-- ==== Sys2Proof/Word.lean ====
section
/-! DEFINITION. The words of the link and of the card (spec/12_formats.md, 12.1), and triples per axis and per
channel (spec/00_scope.md, Terms). -/

namespace Sys2Proof

/-- A byte of the link or of the card. -/
abbrev Byte := BitVec 8

/-- A u16 or s16 field. -/
abbrev Half := BitVec 16

/-- A u32 or s32 field. Part time and the frame counter are u32 and wrap (spec/00_scope.md, Part time; R27). -/
abbrev Word := BitVec 32

/-- One value for each axis: YAW, PITCH, ROLL. -/
structure PerAxis (α : Type) where
  yaw : α
  pitch : α
  roll : α
deriving DecidableEq, Repr

/-- One value for each actuator channel: SX, SY, RT. -/
structure PerChan (α : Type) where
  sx : α
  sy : α
  rt : α
deriving DecidableEq, Repr

end Sys2Proof
end

