-- ==== Sys2Proof/Syntax.lean ====
section
/-! DEFINITION. The commands of the HB3410: one constructor of `Instr` per row of spec/opcode_table.json. A request
carries its tag and the fields of Figure 12.3 (spec/12_formats.md), each at its width on the link; an event carries
what the attached device or pin gives the part. -/

namespace Sys2Proof

/-- An actuator channel (R52). -/
inductive Chan where
  | sx
  | sy
  | rt
deriving DecidableEq, Repr

/-- An input power source (R141). -/
inductive Src where
  | usb
  | aux
deriving DecidableEq, Repr

/-- A raw sample of the inertial sensor (Figure 1.1): signed 16-bit counts as read. -/
structure Sample where
  gyro : PerAxis Half
  accX : Half
  accY : Half
  accZ : Half
deriving DecidableEq, Repr

/-- What one conversion of the measurement scan gives: a reading in the input's unit, or an open thermistor
(R72, R75). -/
inductive Reading where
  | value (z : Int)
  | openCircuit
deriving DecidableEq, Repr

/-- Where the system rail stands against the thresholds of R164 and the 1,000 mV level of R198. -/
inductive Rail where
  /-- below 1,000 mV -/
  | belowPowerOn
  /-- at or above 1,000 mV, below 2,900 mV -/
  | belowBrownout
  /-- at or above 2,900 mV, below 3,150 mV -/
  | belowWarn
  /-- at or above 3,150 mV, below 3,300 mV -/
  | belowRecover
  /-- at or above 3,300 mV -/
  | atRecover
deriving DecidableEq, Repr

/-- What stands on the data lanes LD0 to LD3 at one lane clock (R182). -/
structure LaneClock where
  ld0 : Bool
  ld1 : Bool
  ld2 : Bool
  ld3 : Bool
deriving DecidableEq, Repr

/-- The twenty static fields of a context, at their widths on the link (Figures 3.1 and 12.7). -/
structure CtxFields where
  mode : Byte
  shift : PerAxis Byte
  limit : PerAxis Word
  gain : PerAxis Half
  travel : PerAxis Half
  lookahead : Byte
  pxX : Half
  pxY : Half
  marginX : Half
  marginY : Half
  rollMargin : Half
  readout : Byte
deriving DecidableEq, Repr

/-- The commands, one constructor per row of spec/opcode_table.json, in its order. -/
inductive Instr where
  | ident (tag : Byte)
  | status (tag : Byte) (mask : Half)
  | events (tag : Byte)
  | alertSet (tag : Byte) (record alert : Half)
  | reset (tag : Byte)
  | checkin (tag : Byte)
  | guardSet (tag : Byte) (quiet window : Half)
  | stabSet (tag : Byte) (run learn still : Byte)
  | biasSet (tag : Byte) (yaw pitch roll : Half)
  | impactSet (tag : Byte) (thr count : Byte) (rearm park : Half) (pre post : Byte)
  | ctxWrite (tag : Byte) (index : Byte) (fields : CtxFields)
  | ctxRead (tag : Byte) (index : Byte)
  | ctxSelect (tag : Byte) (index : Byte)
  | ctxReturn (tag : Byte)
  | frameGet (tag : Byte) (frame : Word)
  | actEnableOn (tag : Byte) (mask : Byte)
  | actEnableOff (tag : Byte) (mask : Byte)
  | actSet (tag : Byte) (chan prescaler : Byte) (period limit : Half) (delay retry attempts retryDelay : Byte)
  | actGroup (tag : Byte) (mask prescaler : Byte) (period : Half)
  | actParkOn (tag : Byte) (mask : Byte)
  | actParkOff (tag : Byte) (mask : Byte)
  | mount (tag : Byte) (base len regionId : Word) (units motion : Half) (quota format : Byte)
  | unmount (tag : Byte)
  | recStart (tag : Byte)
  | recStop (tag : Byte)
  | data (tag : Byte) (bytes : List Byte)
  | slotRead (tag : Byte) (first : Half) (count : Byte)
  | slotLockOn (tag : Byte) (slot : Half) (kind : Byte)
  | slotLockOff (tag : Byte) (slot : Half) (kind : Byte)
  | motionRead (tag : Byte) (slot : Half) (mode count : Byte)
  | chargeSet (tag : Byte) (enable : Byte) (target fast termination fastTimer : Half)
  | inputSet (tag : Byte) (preference : Byte) (usbLimit usbFloor auxLimit auxFloor : Half)
  | supplySet (tag : Byte) (ride budget : Byte)
  /-- What the host drove on the lanes between LSEL falling and LSEL rising, clock by clock (R182). -/
  | writeTransaction (clocks : List LaneClock)
  /-- The number of bytes the host clocked out after the read code (R182, R186). -/
  | readTransaction (count : Nat)
  | tick
  /-- The sensor line answers the read: a sample, or a failure (R1). -/
  | sensorReadDone (sample : Option Sample)
  | sensorLost
  | sensorRestored
  | biasLearned
  | impactQualify
  | rearmHoldExpiry
  | impactParkExpiry
  | fsyncEdge
  | cropSample
  | frameGetTimeout
  | pwmPeriodStart (chan : Chan)
  /-- The comparator now reports the coil current above the limit, or at or below it (R64). -/
  | ocComparatorChange (chan : Chan) (above : Bool)
  /-- The qualification time stands at `cycles` cycles of the 48 MHz clock (R64). -/
  | overcurrentFault (chan : Chan) (cycles : Nat)
  | retryDelayExpiry (chan : Chan)
  | cleanRunExpiry (chan : Chan)
  | scanConversion (reading : Reading)
  /-- The scan conversion at which the open count reaches 2; it is an open reading (R75). -/
  | batteryAbsent
  /-- The scan conversion at which the valid count reaches 8, with its temperature (R75). -/
  | batteryPresent (tBat : Int)
  /-- The slot 8 conversion, with its die temperature, whose notice makes the source PRESENT (R142). -/
  | sourcePresent (src : Src) (tDie : Int)
  /-- The slot 8 conversion, with its die temperature, whose notice makes the source ABSENT (R142). -/
  | sourceLost (src : Src) (tDie : Int)
  /-- The slot 8 conversion, with its die temperature, whose notice brings the sag count to 32 (R146). -/
  | iEffRaise (tDie : Int)
  /-- The slot 8 conversion, with its die temperature, whose notice brings the cycle to DONE (R152). -/
  | chargeDone (tDie : Int)
  | cardAttemptFailed
  | cardAttemptTimeout
  /-- Identification succeeded, with the card's capacity in blocks (R97). -/
  | bringUpDone (capacity : Nat)
  | formatHeaderDone
  /-- The header block the card returned, 512 bytes (R99). -/
  | scanReadDone (block : List Byte)
  | unitWriteDone
  | checkpoint
  | blockWriteDone
  | headerUpdateDone
  | openingHeaderDone
  | closedHeaderDone
  /-- The motion block or blocks the card returned (R139). -/
  | hostReadDone (blocks : List Byte)
  | motionReadTimeout
  /-- The card-detect input now shows a card, or none (R136). -/
  | cdetChange (card : Bool)
  | cardInserted
  | cardRemoved
  | railBelowWarn
  | railRecover
  | railBelowRecover
  | rideThroughExpiry
  | emergencyWriteDone
  | emergencyWriteFailed
  | stableTimeReached
  | brownout
  /-- The rail has risen and stands as given: to the brownout level or above it, or, of a rail that stood below warn, to warn
  or above it (R164, R165, R198; log 37). -/
  | powerOnResetEnd (rail : Rail)
  | rstnLow
  | rstnHigh
  | resetWaitExpiry
  | quietTimerExpiry
  | windowTimerExpiry
  | railBelowPowerOnLevel
deriving DecidableEq, Repr

end Sys2Proof
end

