-- ==== Sys2Proof/Decode.lean ====
section
/-! DEFINITION. No row of spec/opcode_table.json gives bits, so no word spells a command: the host's requests arrive
as link frames (R183), which Machine/Link.lean reads. -/

namespace Sys2Proof

/-- The command that the low `nbits` bits of `w` spell by the table's bits: the table gives none. -/
def decodeTableWord (_nbits _w : Nat) : Option Instr := none

end Sys2Proof
end

