-- ==== Sys2Proof/Config.lean ====
section
/-! DEFINITION. The free values: figures the spec leaves open while the command completes. None has a body, so a claim
holds whatever they are. Each has a log entry. -/

namespace Sys2Proof

/-- Whether a time of `ticks` ticks that is no whole number of ms is reported rounded up or down (log 7). -/
opaque Config.msRoundsUp : Nat → Bool

/-- The next sequence a SLOT_READ reply or a CARD(mounted) detail carries when it is exhausted (R105; log 9). -/
opaque Config.exhaustedSequence : Word

/-- The target current before derating in a phase for which R158 names none, by the phase's code and the fast current
(R163; log 10). -/
opaque Config.targetOutsideCharge : Nat → Nat → Nat

/-- The prescaler and period in the reply to an ACT_GROUP with a mask of 0, by the values sent (R56; log 11). -/
opaque Config.groupEmptyReply : Byte → Half → Byte × Half

/-- The units remaining reported by STATUS bit 11 while no emergency close is running (R172; log 11). -/
opaque Config.unitsWithoutClose : Byte

/-- What the 16-bit I_avail field of STATUS bit 9 carries for an available current above 65,535 mA, by that current
(R163, R202; log 47). -/
opaque Config.iAvailField : Nat → Half

/-- Whether the start-up draw with no source selected comes from AUX when both inputs stand at one voltage
(R147; log 50). -/
opaque Config.startupFromAux : Bool

end Sys2Proof
end

