-- ==== Sys2Proof/Machine/State.lean ====
section
/-! DEFINITION. Everything the spec gives the HB3410 to hold, block by block (spec/00_scope.md, Block arrangement), as
plain data, and its value after a power-on reset. Signed quantities with no wrap of their own are `Int`, counts and
sizes are `Nat`, and part time and the frame counter, which wrap, are 32-bit words. -/

namespace Sys2Proof.Machine

/-! ## Motion sampling unit (spec/01) -/

/-- The stabilization state (R15). -/
inductive Stab where
  | off
  | standby
  | running
deriving DecidableEq, Repr

/-- The sensor read of the tick under way (R1): none yet since reset, not answered, answered with a sample, or
reported as failed. -/
inductive SensorRead where
  | idle
  | waiting
  | good (sample : Sample)
  | failed
deriving DecidableEq, Repr

/-- The six settings of IMPACT_SET (R17). Times are in ms, pre-roll and post-roll in s. -/
structure ImpactSettings where
  thr : Nat
  count : Nat
  rearm : Nat
  park : Nat
  pre : Nat
  post : Nat
deriving DecidableEq, Repr

/-- The state of the motion sampling unit (Figure 1.7). `tickBias` and `tickImp` are the bias and the impact settings of
the tick under way: what a request or a completed window stores is used from the next tick on (R6, R8, R17). -/
structure Msu where
  read : SensorRead
  last : Sample
  missing : Nat
  fault : Bool
  goodRun : Nat
  bias : PerAxis Int
  tickBias : PerAxis Int
  learn : Bool
  still : Nat
  winCount : Nat
  winSum : PerAxis Int
  angle : PerAxis Int
  path : PerAxis Int
  stab : Stab
  imp : ImpactSettings
  tickImp : ImpactSettings
  qCount : Nat
  qPeak : Nat
  rearmEnd : Option Word
  parkEnd : Option Word
deriving DecidableEq, Repr

/-! ## Correction split unit (spec/02) -/

/-- A frame record (Figure 2.3), its flags as the u16 of Figure 12.8. -/
structure FrameRecord where
  frame : Word
  time : Word
  cropX : Int
  cropY : Int
  roll : Int
  flags : Half
deriving DecidableEq, Repr

/-- The carried conditions (R33). -/
structure Carried where
  pathClamp : PerAxis Bool
  gyroSat : Bool
  sensorHold : Bool
  impact : Bool
  ctxSwitch : Bool
deriving DecidableEq, Repr

/-- A scheduled crop sample: the frame it belongs to and the part time it is due at (R27). -/
structure PendingSample where
  frame : Word
  due : Word
deriving DecidableEq, Repr

/-- The state of the correction split unit (Figure 2.7). -/
structure Csu where
  step : PerChan Int
  absorbed : PerChan Int
  offset : PerAxis Int
  frame : Word
  sample : Option PendingSample
  carried : Carried
  ring : List FrameRecord
deriving DecidableEq, Repr

/-! ## Context table (spec/03) -/

/-- A context index (R39). -/
inductive CtxIx where
  | c0
  | c1
  | c2
  | c3
deriving DecidableEq, Repr

/-- A context record: static fields as written, saved path or UNSET, link or NONE (Figure 3.1). -/
structure Context where
  fields : CtxFields
  saved : Option (PerAxis Int)
  link : Option CtxIx
deriving DecidableEq, Repr

/-- A switch that waits for its commit: the index chosen and the return mark (R39). -/
structure Switch where
  index : CtxIx
  ret : Bool
deriving DecidableEq, Repr

/-- The context table (R39). -/
structure Ctx where
  t0 : Context
  t1 : Context
  t2 : Context
  t3 : Context
  active : Option CtxIx
  pendingSwitch : Option Switch
deriving DecidableEq, Repr

/-! ## Actuator drive unit (spec/04) -/

/-- A channel's state (Figure 4.3). -/
inductive ChanState where
  | off
  | active
  | parked
  | retryWait
  | latched
  | thermal
deriving DecidableEq, Repr

/-- The reasons of R60. -/
inductive ParkReason where
  | impact
  | supply
  | guard
  | host
deriving DecidableEq, Repr

/-- A park-reason set (R60). -/
structure ParkSet where
  impact : Bool
  supply : Bool
  guard : Bool
  host : Bool
deriving DecidableEq, Repr

/-- The seven settings of a channel (Figure 4.2); the limit in mA, the delay in 50 µs, the retry delay in ms. -/
structure ChanSettings where
  prescaler : Nat
  period : Nat
  limit : Nat
  delay : Nat
  retry : Bool
  attempts : Nat
  retryDelay : Nat
deriving DecidableEq, Repr

/-- A channel record (R52), with the comparator's input and the prescaler and period in use. -/
structure Channel where
  st : ChanState
  cfg : ChanSettings
  prescalerInUse : Nat
  periodInUse : Nat
  attempts : Nat
  park : ParkSet
  waiting : Option Int
  applied : Int
  duty : Nat
  periodCount : Nat
  prescaleCount : Nat
  finalPeriod : Bool
  comparator : Bool
  qual : Nat
  retryEnd : Option Word
  cleanStart : Option Word
deriving DecidableEq, Repr

/-! ## Measurement scan (spec/05) -/

/-- A scan input: its latest value and its history, oldest first (R72, R74). -/
structure Input where
  latest : Int
  hist : List Int
deriving DecidableEq, Repr

/-- The side of each die boundary: `true` is the upper side (R76). -/
structure DieSides where
  b70 : Bool
  b85 : Bool
  b105 : Bool
deriving DecidableEq, Repr

/-- Whether each battery boundary is crossed outward (R77). -/
structure BatSides where
  c0 : Bool
  c10 : Bool
  w45 : Bool
  w55 : Bool
deriving DecidableEq, Repr

/-- The die zones (R76). -/
inductive DieZone where
  | normal
  | warm
  | hot
  | critical
deriving DecidableEq, Repr

/-- The battery zones, ABSENT included (R77). -/
inductive BatZone where
  | absent
  | cold
  | cool
  | normal
  | warm
  | hot
deriving DecidableEq, Repr

/-- The state of the measurement scan (R79). -/
structure Scn where
  slot : Nat
  slot1 : Src
  vIn : Input
  vAlt : Input
  vBat : Input
  iBat : Input
  vSys : Input
  iSys : Input
  tBat : Input
  tDie : Input
  usb : Int
  aux : Int
  battery : Bool
  openCount : Nat
  validCount : Nat
  die : DieSides
  batSides : BatSides
  batZone : BatZone
deriving DecidableEq, Repr

/-! ## Clip buffer (spec/06) -/

/-- The bytes the stream ring holds for one slot, oldest first (R81). -/
structure Segment where
  slot : Nat
  bytes : List Byte
deriving DecidableEq, Repr

/-- A motion record waiting to be written, with its slot (R90). -/
structure MotionRec where
  slot : Nat
  record : FrameRecord
deriving DecidableEq, Repr

/-- A slot's admitted count (R90). -/
structure Admitted where
  slot : Nat
  count : Nat
deriving DecidableEq, Repr

/-- The clip buffer (Figure 6.1). -/
structure Cbf where
  segs : List Segment
  assigned : Nat
  admitted : List Admitted
  pend : List MotionRec
deriving DecidableEq, Repr

/-! ## Slot directory (spec/07) -/

/-- The region as mounted (Figure 7.1, R95, R96). -/
structure Geometry where
  base : Nat
  len : Nat
  regionId : Word
  units : Nat
  motion : Nat
  quota : Nat
  format : Bool
  slotSize : Nat
  slotCount : Nat
deriving DecidableEq, Repr

/-- A slot's state (Figure 7.4). -/
inductive SlotState where
  | free
  | opened
  | closing
  | closed
  | recovered
  | bad
deriving DecidableEq, Repr

/-- The two lock kinds (R108). -/
inductive LockKind where
  | impact
  | keep
deriving DecidableEq, Repr

/-- A lock set (R108). -/
structure LockSet where
  impact : Bool
  keep : Bool
deriving DecidableEq, Repr

/-- Close and stop reasons (Figure 12.4). -/
inductive CloseReason where
  | full
  | stop
  | guard
  | noSlot
  | emergency
  | cardFault
  | cardRemoved
deriving DecidableEq, Repr

/-- A directory entry (Figure 7.4); its index is its place in the list. -/
structure Entry where
  st : SlotState
  sequence : Option Nat
  recId : Option Nat
  locks : LockSet
  openTime : Option Word
  headerWritten : Bool
  streamBytes : Nat
  motionRecords : Nat
  motionDropped : Nat
  lostBytes : Nat
  firstFrame : Option Word
  impactCount : Nat
  reason : Option CloseReason
  queued : Bool
deriving DecidableEq, Repr

/-- The post-roll mark (R112): the impact's time, its candidates, and the post-roll time in s. -/
structure Mark where
  time : Word
  candidates : List Nat
  post : Nat
deriving DecidableEq, Repr

/-- The slot directory (R103). `nextSeq` is `none` when exhausted (R101). -/
structure Sdr where
  geo : Option Geometry
  entries : List Entry
  nextSeq : Option Nat
  nextRec : Nat
  queue : List Nat
  mark : Option Mark
deriving DecidableEq, Repr

/-! ## Card writer (spec/08) -/

/-- The writer states (Figure 8.1). -/
inductive Writer where
  | unmounted
  | mounting
  | ready
  | recording
  | rolling
  | stopping
  | emergencyClose
  | fault
deriving DecidableEq, Repr

/-- What a transfer on the card port is for (R124); the last four are the writes of an emergency close (R174). -/
inductive Xfer where
  | identify
  | formatHeader (slot : Nat)
  | scanRead (slot : Nat)
  | headerUpdate (slot : Nat)
  | openingHeader (slot : Nat)
  | closedHeader (slot : Nat) (reason : CloseReason)
  | streamUnit (slot real : Nat)
  | motionBlock (slot real : Nat)
  /-- `wanted` is `false` once the MOTION_READ it serves has been answered (R140). -/
  | hostRead (wanted : Bool)
  | emUpdate (slot : Nat)
  | emUnit (slot real : Nat)
  | emBlock (slot real : Nat)
  | emClosed (slot : Nat)
deriving DecidableEq, Repr

/-- The transfer under way: what it is for, its first card block and number of blocks, the bytes a write carries, the
number of the attempt and the part time the attempt began at (R126). -/
structure Transfer where
  op : Xfer
  addr : Nat
  blocks : Nat
  bytes : List Byte
  attempt : Nat
  began : Word
deriving DecidableEq, Repr

/-- The MOTION_READ cursor (R138). -/
structure Cursor where
  slot : Nat
  index : Nat
  stale : Bool
deriving DecidableEq, Repr

/-- The card writer and card port (Figure 8.7). -/
structure Cwr where
  writer : Writer
  recId : Option Nat
  lastSlot : Option Nat
  stopMark : Option CloseReason
  closeReason : Option CloseReason
  port : Option Transfer
  run : Nat
  units : Nat
  offUnit : Bool
  offBlock : Bool
  blockFirst : Bool
  cursor : Option Cursor
  present : Bool
  cdet : Bool
  cdetSince : Option Word
deriving DecidableEq, Repr

/-! ## Input power selector and charger (spec/09) -/

/-- A source's presence and counts (Figure 9.1). -/
structure Presence where
  present : Bool
  count : Nat
  loss : Nat
deriving DecidableEq, Repr

/-- The input power selector (Figure 9.1). -/
structure Ips where
  usb : Presence
  aux : Presence
  sel : Option Src
  pref : Src
  usbLimit : Nat
  usbFloor : Nat
  auxLimit : Nat
  auxFloor : Nat
  iEff : Nat
  sag : Nat
deriving DecidableEq, Repr

/-- The charger's phases (Figure 9.3). -/
inductive Phase where
  | disabled
  | noInput
  | noBattery
  | paused
  | precharge
  | fastCc
  | fastCv
  | done
  | fault
deriving DecidableEq, Repr

/-- The cycle phases (Figure 9.3). -/
inductive Cycle where
  | precharge
  | fastCc
  | fastCv
  | done
deriving DecidableEq, Repr

/-- The causes of a charger fault (R153). -/
inductive ChargeFault where
  | prechargeTimer
  | fastTimer
  | overvoltage
deriving DecidableEq, Repr

/-- The pause-reason set (R150). -/
structure PauseSet where
  batCold : Bool
  batHot : Bool
  die : Bool
  supply : Bool
deriving DecidableEq, Repr

/-- The charger (Figures 9.3 and 9.4); the timers are in ticks, the fast timer setting in min. `targetInUse` is the target
voltage setting as the latest notice found it: CHARGE_SET's takes its place at the next one (R155). -/
structure Chg where
  phase : Phase
  pause : PauseSet
  cycle : Option Cycle
  latch : Option ChargeFault
  preTicks : Nat
  fastTicks : Nat
  term : Nat
  enable : Bool
  target : Nat
  targetInUse : Nat
  fast : Nat
  termination : Nat
  fastTimer : Nat
  iCmd : Nat
  supplement : Bool
  derated : Nat
  pIn : Int
  pSys : Int
  pAvail : Int
  iAvail : Nat
deriving DecidableEq, Repr

/-! ## Supply supervisor (spec/10) -/

/-- The supply states (R165). -/
inductive Supply where
  | normal
  | rideThrough
  | emergency
deriving DecidableEq, Repr

/-- The part an emergency close is in (Figure 12.5, bit 11); `inherited` while the transfer it found on the port runs
(R173). -/
inductive ClosePart where
  | inherited
  | updates
  | stream
  | motion
  | header
deriving DecidableEq, Repr

/-- An emergency close under way (R173 to R179): the budget it began with, the units remaining, its part, the slots
still to be closed in order, and whether a failure has ended its parts other than the CLOSED headers. -/
structure EmergencyClose where
  budget : Nat
  left : Nat
  part : ClosePart
  todo : List Nat
  failed : Bool
deriving DecidableEq, Repr

/-- The supply supervisor (Figure 10.8). `rail` is where its comparator stands. -/
structure Ssv where
  st : Supply
  timerEnd : Option Word
  stable : Option Nat
  rideMs : Nat
  budget : Nat
  rail : Rail
  close : Option EmergencyClose
deriving DecidableEq, Repr

/-! ## Link unit (spec/11) -/

/-- The reply statuses (Figure 11.2). -/
inductive Status where
  | ok
  | clamped
  | accepted
  | busy
  | state
  | range
  | full
  | notReady
  | gone
  | stale
  | noCard
  | noSlot
  | noLink
  | same
  | badFrame
  | badKind
  | badLength
deriving DecidableEq, Repr

/-- A request in the request slot (R187), with its tag and, where its hold can time out, the part time it was taken. -/
inductive Held where
  | frameGet (tag : Byte) (frame : Word) (taken : Word)
  | unmount (tag : Byte)
  | motionRead (tag : Byte) (slot index number : Nat) (taken : Word)
deriving DecidableEq, Repr

/-- A reply in the reply slot (R182): kind, tag, status and the data after it. -/
structure Reply where
  kind : Byte
  tag : Byte
  status : Status
  data : List Byte
deriving DecidableEq, Repr

/-- The event classes, in the order of Figure 11.4. -/
inductive EvClass where
  | impact
  | slot
  | record
  | card
  | actuator
  | context
  | charge
  | input
  | supply
  | thermal
  | guard
  | motion
deriving DecidableEq, Repr

/-- The guard states (Figure 11.5). -/
inductive Guard where
  | disarmed
  | quiet
  | window
  | tripped
deriving DecidableEq, Repr

/-- The trip causes (R196). -/
inductive Trip where
  | early
  | missed
deriving DecidableEq, Repr

/-- The causes of CARD(fault) (Figure 12.6). -/
inductive CardCause where
  | bringUp
  | range
  | write
deriving DecidableEq, Repr

/-- The kinds of a failed write (Figure 12.6). -/
inductive WriteKind where
  | header
  | streamUnit
  | motionBlock
deriving DecidableEq, Repr

/-- The kinds of SUPPLY event (R172). -/
inductive SupplyKind where
  | rideThrough
  | recovered
  | emergency
  | normal
deriving DecidableEq, Repr

/-- An event's detail (Figure 12.6). -/
inductive Detail where
  | impact (time : Word) (peak : Nat) (slots : List Nat)
  | slotOpened (slot sequence recId : Nat) (openTime : Word)
  | slotClosed (slot : Nat) (reason : CloseReason) (sequence stream lost motion dropped spent : Nat)
      (unsaved : List Nat)
  | slotReleased (slot : Nat)
  | slotLocked (slot : Nat) (time : Word)
  | recordStopped (recId : Nat) (reason : CloseReason) (time : Word) (last : Option Nat) (budget spent : Nat)
  | cardMounted (slots free closed recovered bad conflicts released quota : Nat) (nextSeq : Option Nat)
      (nextRec : Nat)
  | cardFault (cause : CardCause) (write : Option (Nat × Nat × WriteKind))
  | cardRemoved
  | cardInserted
  | cardUnmounted
  | overcurrent (chan : Chan) (time : Word) (limit attempts : Nat)
  | latched (chan : Chan) (time : Word)
  | thermalDown (time : Word) (temp : Int) (chans : PerChan Bool)
  | switched (index : CtxIx) (out : Option CtxIx) (ret : Bool) (frame time : Word)
  | ctxFault (index : CtxIx) (code value : Nat)
  | charge (before after : Phase) (pause : PauseSet) (cycle : Option Cycle) (cause : Option ChargeFault)
      (vBat iBat : Int) (preTicks fastTicks : Nat) (time : Word)
  | input (usb aux : Bool) (before after : Option Src) (iEff : Nat) (time : Word)
  | supply (kind : SupplyKind) (before after : Supply) (vSys : Int) (time : Word) (started : Bool) (budget : Nat)
  | dieZone (before after : DieZone) (temp : Int) (time : Word)
  | batZone (before after : BatZone) (temp : Int) (time : Word)
  | guardTripped (cause : Trip) (writer : Writer) (stopAsked : Bool) (time : Word)
  | guardRestored (kind : Byte) (time : Word)
  | sensorLost (time : Word)
  | sensorRestored (time : Word)
  | biasLearned (bias : PerAxis Int)
deriving DecidableEq, Repr

/-- One class's entry of the event set (R190). -/
structure EvEntry where
  count : Nat
  detail : Option Detail
deriving DecidableEq, Repr

/-- The event set (R190), one entry a class. -/
structure EventSet where
  impact : EvEntry
  slot : EvEntry
  record : EvEntry
  card : EvEntry
  actuator : EvEntry
  context : EvEntry
  charge : EvEntry
  input : EvEntry
  supply : EvEntry
  thermal : EvEntry
  guard : EvEntry
  motion : EvEntry
deriving DecidableEq, Repr

/-- The link unit (R201); bit k − 1 of each mask belongs to class k. `lanes` is what the part drove on LD0 to LD3 in the
last read transaction, clock by clock (R182). -/
structure Lnk where
  req : Option Held
  reply : Option Reply
  refused : Bool
  events : EventSet
  recordMask : BitVec 12
  alertMask : BitVec 12
  guard : Guard
  trip : Option Trip
  quiet : Nat
  window : Nat
  guardEnd : Option Word
  resetTaken : Option Word
  lanes : List LaneClock
deriving DecidableEq, Repr

/-! ## Resets (spec/11, section 11.7) -/

/-- The reset causes (R198). -/
inductive ResetCause where
  | powerOn
  | brownout
  | line
  | request
deriving DecidableEq, Repr

/-- Whether the part is held in reset, the causes held, and the cause recorded (R197, R198). -/
structure Rst where
  active : Bool
  supplyLow : Bool
  lineLow : Bool
  cause : ResetCause
deriving DecidableEq, Repr

/-- The whole part, and the commands that wait for it. -/
structure State where
  now : Word
  msu : Msu
  csu : Csu
  ctx : Ctx
  adu : PerChan Channel
  scn : Scn
  cbf : Cbf
  sdr : Sdr
  cwr : Cwr
  ips : Ips
  chg : Chg
  ssv : Ssv
  lnk : Lnk
  rst : Rst
  pending : List Instr
deriving DecidableEq, Repr

/-- Why a command can fail to have an outcome. -/
inductive Fault where
  /-- Raised by SCAN_READ_DONE and HOST_READ_DONE when the bytes they bring are not the whole blocks the transfer under
  way asked for. Safe: no card produces such bytes, and the model stops instead of reading what is not there. -/
  | badBlockLength
deriving DecidableEq, Repr

/-- Why a command can be turned away by the model. -/
inductive Refusal where
  /-- Raised by an arm of `exec` for a row that has no meaning yet; no arm does. Safe: the model stops. -/
  | notModelled (mnemonic : String)
deriving DecidableEq, Repr

/-! ## Values after a power-on reset -/

/-- Three equal values. -/
def allAxes {α : Type} (x : α) : PerAxis α := ⟨x, x, x⟩

/-- Three equal values. -/
def allChans {α : Type} (x : α) : PerChan α := ⟨x, x, x⟩

/-- R17's power-on values. -/
def ImpactSettings.powerOn : ImpactSettings := ⟨128, 8, 2000, 500, 10, 10⟩

/-- Figure 1.7. -/
def Msu.reset : Msu where
  read := .idle
  last := ⟨allAxes 0, 0, 0, 0⟩
  missing := 0
  fault := false
  goodRun := 0
  bias := allAxes 0
  tickBias := allAxes 0
  learn := false
  still := 16
  winCount := 0
  winSum := allAxes 0
  angle := allAxes 0
  path := allAxes 0
  stab := .off
  imp := ImpactSettings.powerOn
  tickImp := ImpactSettings.powerOn
  qCount := 0
  qPeak := 0
  rearmEnd := none
  parkEnd := none

/-- No carried condition (R33). -/
def Carried.empty : Carried := ⟨allAxes false, false, false, false, false⟩

/-- Figure 2.7. -/
def Csu.reset : Csu where
  step := allChans 0
  absorbed := allChans 0
  offset := allAxes 0
  frame := 0
  sample := none
  carried := Carried.empty
  ring := []

/-- Every static field 0 (R39). -/
def CtxFields.zero : CtxFields where
  mode := 0
  shift := allAxes 0
  limit := allAxes 0
  gain := allAxes 0
  travel := allAxes 0
  lookahead := 0
  pxX := 0
  pxY := 0
  marginX := 0
  marginY := 0
  rollMargin := 0
  readout := 0

/-- A context record after reset (R39). -/
def Context.blank : Context := ⟨CtxFields.zero, none, none⟩

/-- Figure 3.5. -/
def Ctx.reset : Ctx where
  t0 := Context.blank
  t1 := Context.blank
  t2 := Context.blank
  t3 := Context.blank
  active := none
  pendingSwitch := none

/-- The empty park-reason set (R60). -/
def ParkSet.empty : ParkSet := ⟨false, false, false, false⟩

/-- A channel's power-on settings (Figure 4.2). -/
def ChanSettings.powerOn : ChanSettings where
  prescaler := 4
  period := 2000
  limit := 400
  delay := 4
  retry := true
  attempts := 3
  retryDelay := 20

/-- A channel after reset (R52, Figure 4.7). The comparator's input is a pin: log 12. -/
def Channel.reset : Channel where
  st := .off
  cfg := ChanSettings.powerOn
  prescalerInUse := 4
  periodInUse := 2000
  attempts := 3
  park := ParkSet.empty
  waiting := none
  applied := 0
  duty := 0
  periodCount := 0
  prescaleCount := 0
  finalPeriod := false
  comparator := false
  qual := 0
  retryEnd := none
  cleanStart := none

/-- An input with nothing converted (R74). -/
def Input.empty : Input := ⟨0, []⟩

/-- R79, after a power-on reset. -/
def Scn.reset : Scn where
  slot := 1
  slot1 := .usb
  vIn := Input.empty
  vAlt := Input.empty
  vBat := Input.empty
  iBat := Input.empty
  vSys := Input.empty
  iSys := Input.empty
  tBat := Input.empty
  tDie := Input.empty
  usb := 0
  aux := 0
  battery := false
  openCount := 0
  validCount := 0
  die := ⟨false, false, false⟩
  batSides := ⟨false, false, false, false⟩
  batZone := .absent

/-- R81, R89, R90. -/
def Cbf.reset : Cbf := ⟨[], 0, [], []⟩

/-- R103: no geometry, no entries. The next sequence and recording id mean nothing until a mount (log 12). -/
def Sdr.reset : Sdr where
  geo := none
  entries := []
  nextSeq := some 1
  nextRec := 1
  queue := []
  mark := none

/-- Figure 8.7, with the card presence taken from the card-detect input (R136). -/
def Cwr.reset (cdet : Bool) : Cwr where
  writer := .unmounted
  recId := none
  lastSlot := none
  stopMark := none
  closeReason := none
  port := none
  run := 0
  units := 0
  offUnit := false
  offBlock := false
  blockFirst := false
  cursor := none
  present := cdet
  cdet := cdet
  cdetSince := none

/-- R141, after a power-on reset. -/
def Ips.reset : Ips where
  usb := ⟨false, 0, 0⟩
  aux := ⟨false, 0, 0⟩
  sel := none
  pref := .aux
  usbLimit := 1500
  usbFloor := 4600
  auxLimit := 2000
  auxFloor := 6000
  iEff := 0
  sag := 0

/-- R148, after a power-on reset. -/
def Chg.reset : Chg where
  phase := .noInput
  pause := ⟨false, false, false, false⟩
  cycle := none
  latch := none
  preTicks := 0
  fastTicks := 0
  term := 0
  enable := true
  target := 4200
  targetInUse := 4200
  fast := 500
  termination := 50
  fastTimer := 240
  iCmd := 0
  supplement := false
  derated := 0
  pIn := 0
  pSys := 0
  pAvail := 0
  iAvail := 0

/-- R165, after a power-on reset: the stable time runs when the rail stands at or above recover (log 23). -/
def Ssv.reset (rail : Rail) : Ssv where
  st := .normal
  timerEnd := none
  stable := if rail = .atRecover then some 0 else none
  rideMs := 8
  budget := 48
  rail := rail
  close := none

/-- A class with nothing counted (R190). -/
def EvEntry.empty : EvEntry := ⟨0, none⟩

/-- R190: every count 0, no detail. -/
def EventSet.empty : EventSet where
  impact := EvEntry.empty
  slot := EvEntry.empty
  record := EvEntry.empty
  card := EvEntry.empty
  actuator := EvEntry.empty
  context := EvEntry.empty
  charge := EvEntry.empty
  input := EvEntry.empty
  supply := EvEntry.empty
  thermal := EvEntry.empty
  guard := EvEntry.empty
  motion := EvEntry.empty

/-- R201. -/
def Lnk.reset : Lnk where
  req := none
  reply := none
  refused := false
  events := EventSet.empty
  recordMask := BitVec.allOnes 12
  alertMask := 0
  guard := .disarmed
  trip := none
  quiet := 0
  window := 0
  guardEnd := none
  resetTaken := none
  lanes := []

/-- The part right after a power-on reset from no supply (R198): the pins stand as log 12 says. -/
def State.reset : State where
  now := 0
  msu := Msu.reset
  csu := Csu.reset
  ctx := Ctx.reset
  adu := allChans Channel.reset
  scn := Scn.reset
  cbf := Cbf.reset
  sdr := Sdr.reset
  cwr := Cwr.reset false
  ips := Ips.reset
  chg := Chg.reset
  ssv := Ssv.reset .atRecover
  lnk := Lnk.reset
  rst := ⟨false, false, false, .powerOn⟩
  pending := []

end Sys2Proof.Machine
end

