-- ==== Sys2Proof/Machine/Arith.lean ====
section
/-! DEFINITION. Rounding, clamping, time and byte order (spec/00_scope.md, Conventions; spec/12_formats.md, 12.1), and
the two checks of R203 and R205. -/

namespace Sys2Proof.Machine

/-! ## Rounding and clamping -/

/-- `z / d` rounded half away from zero (spec/00_scope.md, Rounding). -/
def roundDiv (z : Int) (d : Nat) : Int :=
  if 0 ≤ z then ((2 * z.natAbs + d) / (2 * d) : Nat) else -((2 * z.natAbs + d) / (2 * d) : Nat)

/-- `z` clamped to ±`x` (spec/00_scope.md, Clamping). -/
def clampAbs (x : Nat) (z : Int) : Int :=
  if (x : Int) < z then x else if z < -(x : Int) then -(x : Int) else z

/-- `n` clamped into `lo..hi`. -/
def clampNat (lo hi n : Nat) : Nat := if n < lo then lo else if hi < n then hi else n

/-- `z` clamped into `lo..hi`. -/
def clampInt (lo hi z : Int) : Int := if z < lo then lo else if hi < z then hi else z

/-- `n` floored to a multiple of `step`. -/
def floorTo (step n : Nat) : Nat := n / step * step

/-- `a + b`, held at `2^32 − 1` (R83, R91). -/
def satAdd32 (a b : Nat) : Nat := min 4294967295 (a + b)

/-! ## Time (spec/00_scope.md, Time base and units) -/

/-- The whole number of ticks nearest to `n` ms. No number of ms lies halfway between two ticks. -/
def ticksOfMs (n : Nat) : Nat := (n * 4096 + 500) / 1000

/-- A number of seconds in ticks (`n` s is `1000 n` ms, a whole number of ticks). -/
def ticksOfSec (n : Nat) : Nat := n * 4096

/-- A time of `t` ticks in ms: exact where it is a whole number of ms, else the whole number just below or just above,
whichever the free value says (log 7). -/
def msOfTicks (t : Nat) : Nat :=
  if t * 125 % 512 = 0 then t * 125 / 512
  else if Config.msRoundsUp t then t * 125 / 512 + 1 else t * 125 / 512

/-- The part time `n` ticks after `t`. -/
def later (t : Word) (n : Nat) : Word := t + BitVec.ofNat 32 n

/-- The ticks from `t` to `now`, the difference modulo 2^32. -/
def since (now t : Word) : Nat := (now - t).toNat

/-- Whether `now` is at or after `t`: the difference modulo 2^32, read as signed, is not negative (log 3). -/
def reached (now t : Word) : Bool := since now t < 2147483648

/-- Whether a timer runs and its end time has come (log 3). -/
def expired (now : Word) (endTime : Option Word) : Bool :=
  match endTime with
  | none => false
  | some t => reached now t

/-- The ticks left to `t`, 0 once it is reached. -/
def ticksLeft (now t : Word) : Nat := if reached now t then 0 else since t now

/-! ## Byte order (R202): least significant byte first -/

def u8 (n : Nat) : List Byte := [BitVec.ofNat 8 n]

def u16 (n : Nat) : List Byte := [BitVec.ofNat 8 n, BitVec.ofNat 8 (n / 256)]

def u32 (n : Nat) : List Byte :=
  [BitVec.ofNat 8 n, BitVec.ofNat 8 (n / 256), BitVec.ofNat 8 (n / 65536), BitVec.ofNat 8 (n / 16777216)]

/-- Two's complement. -/
def s16 (z : Int) : List Byte := u16 (BitVec.ofInt 16 z).toNat

/-- Two's complement. -/
def s32 (z : Int) : List Byte := u32 (BitVec.ofInt 32 z).toNat

def flag8 (b : Bool) : List Byte := u8 (if b then 1 else 0)

/-- The value of a field of bytes, least significant byte first. -/
def fromLe : List Byte → Nat
  | [] => 0
  | b :: rest => b.toNat + 256 * fromLe rest

/-- The `n` bytes of `bytes` from offset `i`, as a number. -/
def fieldAt (bytes : List Byte) (i n : Nat) : Nat := fromLe ((bytes.drop i).take n)

/-! ## Checks -/

/-- `n` steps of the CRC-16 register: shift out the most significant bit (R203). -/
def crc16Shift : Nat → BitVec 16 → BitVec 16
  | 0, r => r
  | n + 1, r => crc16Shift n (if r.msb then (r <<< 1) ^^^ 0x1021#16 else r <<< 1)

/-- The CRC-16 of R203 over `bytes`, from the register `r`. -/
def crc16From (r : BitVec 16) : List Byte → BitVec 16
  | [] => r
  | b :: rest => crc16From (crc16Shift 8 (r ^^^ (b.setWidth 16 <<< 8))) rest

/-- R203: polynomial 0x1021, register from 0xFFFF, most significant bit first, no inversion. -/
def crc16 (bytes : List Byte) : BitVec 16 := crc16From 0xFFFF#16 bytes

/-- `n` steps of the CRC-32 register: shift out the least significant bit (R205, reflected 0x04C11DB7). -/
def crc32Shift : Nat → BitVec 32 → BitVec 32
  | 0, r => r
  | n + 1, r => crc32Shift n (if r.getLsbD 0 then (r >>> 1) ^^^ 0xEDB88320#32 else r >>> 1)

/-- The CRC-32 register after `bytes`, from `r`. -/
def crc32From (r : BitVec 32) : List Byte → BitVec 32
  | [] => r
  | b :: rest => crc32From (crc32Shift 8 (r ^^^ b.setWidth 32)) rest

/-- R205: register from 0xFFFFFFFF, least significant bit first, the result inverted. -/
def crc32 (bytes : List Byte) : BitVec 32 := ~~~ crc32From 0xFFFFFFFF#32 bytes

end Sys2Proof.Machine
end

