-- ==== Sys2Proof/Machine/Codes.lean ====
section
/-! DEFINITION. The codes of Figure 12.4 and the byte layouts of chapter 12 (spec/12_formats.md): frame records, motion
blocks, slot headers, directory entries, event details. -/

namespace Sys2Proof.Machine

/-! ## Codes (Figure 12.4) -/

def statusCode : Status → Nat
  | .ok => 0x00
  | .clamped => 0x01
  | .accepted => 0x02
  | .busy => 0x10
  | .state => 0x11
  | .range => 0x12
  | .full => 0x13
  | .notReady => 0x14
  | .gone => 0x15
  | .stale => 0x16
  | .noCard => 0x17
  | .noSlot => 0x18
  | .noLink => 0x19
  | .same => 0x1A
  | .badFrame => 0x20
  | .badKind => 0x21
  | .badLength => 0x22

def stabCode : Stab → Nat
  | .off => 0
  | .standby => 1
  | .running => 2

def chanStateCode : ChanState → Nat
  | .off => 0
  | .active => 1
  | .parked => 2
  | .retryWait => 3
  | .latched => 4
  | .thermal => 5

/-- The sum of 2^i over the set bits, bit 0 first. -/
def bitsCode : List Bool → Nat
  | [] => 0
  | b :: rest => (if b then 1 else 0) + 2 * bitsCode rest

def parkCode (p : ParkSet) : Nat := bitsCode [p.impact, p.supply, p.guard, p.host]

def writerCode : Writer → Nat
  | .unmounted => 0
  | .mounting => 1
  | .ready => 2
  | .recording => 3
  | .rolling => 4
  | .stopping => 5
  | .emergencyClose => 6
  | .fault => 7

def slotStateCode : SlotState → Nat
  | .free => 0
  | .opened => 1
  | .closing => 2
  | .closed => 3
  | .recovered => 4
  | .bad => 5

def lockCode (l : LockSet) : Nat := bitsCode [l.impact, l.keep]

def reasonCode : CloseReason → Nat
  | .full => 1
  | .stop => 2
  | .guard => 3
  | .noSlot => 4
  | .emergency => 5
  | .cardFault => 6
  | .cardRemoved => 7

/-- Absent or clear is 0. -/
def optReasonCode : Option CloseReason → Nat
  | none => 0
  | some r => reasonCode r

/-- A close reason code read from a header: 0 and every code above 5 are absent (R99, R205). -/
def reasonOfCode (n : Nat) : Option CloseReason :=
  if n = 1 then some .full
  else if n = 2 then some .stop
  else if n = 3 then some .guard
  else if n = 4 then some .noSlot
  else if n = 5 then some .emergency
  else none

def phaseCode : Phase → Nat
  | .disabled => 0
  | .noInput => 1
  | .noBattery => 2
  | .paused => 3
  | .precharge => 4
  | .fastCc => 5
  | .fastCv => 6
  | .done => 7
  | .fault => 8

/-- A cycle phase has the code of the phase it names; NONE is 0xFF. -/
def cycleCode : Option Cycle → Nat
  | none => 0xFF
  | some .precharge => 4
  | some .fastCc => 5
  | some .fastCv => 6
  | some .done => 7

def pauseCode (p : PauseSet) : Nat := bitsCode [p.batCold, p.batHot, p.die, p.supply]

def chargeFaultCode : Option ChargeFault → Nat
  | none => 0
  | some .prechargeTimer => 1
  | some .fastTimer => 2
  | some .overvoltage => 3

def srcCode : Src → Nat
  | .usb => 1
  | .aux => 2

def optSrcCode : Option Src → Nat
  | none => 0
  | some x => srcCode x

def supplyCode : Supply → Nat
  | .normal => 0
  | .rideThrough => 1
  | .emergency => 2

def dieZoneCode : DieZone → Nat
  | .normal => 0
  | .warm => 1
  | .hot => 2
  | .critical => 3

def batZoneCode : BatZone → Nat
  | .absent => 0
  | .cold => 1
  | .cool => 2
  | .normal => 3
  | .warm => 4
  | .hot => 5

def guardCode : Guard → Nat
  | .disarmed => 0
  | .quiet => 1
  | .window => 2
  | .tripped => 3

def tripCode : Option Trip → Nat
  | none => 0
  | some .early => 1
  | some .missed => 2

def causeCode : ResetCause → Nat
  | .powerOn => 0
  | .brownout => 1
  | .line => 2
  | .request => 3

def chanCode : Chan → Nat
  | .sx => 0
  | .sy => 1
  | .rt => 2

def ctxCode : CtxIx → Nat
  | .c0 => 0
  | .c1 => 1
  | .c2 => 2
  | .c3 => 3

/-- A context index that is absent is 0xFF (R202). -/
def optCtxCode : Option CtxIx → Nat
  | none => 0xFF
  | some i => ctxCode i

/-- A slot index that is absent is 0xFFFF (R202). -/
def optSlotCode : Option Nat → Nat
  | none => 0xFFFF
  | some i => i

/-- The code of the part a close is in (Figure 12.5, bit 11): 0 while the transfer it inherited runs (log 22). -/
def closePartCode : ClosePart → Nat
  | .inherited => 0
  | .updates => 1
  | .stream => 2
  | .motion => 3
  | .header => 4

def cardCauseCode : CardCause → Nat
  | .bringUp => 1
  | .range => 2
  | .write => 3

def writeKindCode : WriteKind → Nat
  | .header => 1
  | .streamUnit => 2
  | .motionBlock => 3

def supplyKindCode : SupplyKind → Nat
  | .rideThrough => 1
  | .recovered => 2
  | .emergency => 3
  | .normal => 4

/-- The next sequence as a field: the free value of log 9 when exhausted. -/
def nextSeqField : Option Nat → List Byte
  | none => u32 Config.exhaustedSequence.toNat
  | some n => u32 n

/-! ## Frame records and motion blocks (Figure 12.8, R204) -/

def recordBytes (r : FrameRecord) : List Byte :=
  u32 r.frame.toNat ++ u32 r.time.toNat ++ s16 r.cropX ++ s16 r.cropY ++ s16 r.roll ++ u16 r.flags.toNat

def recordsBytes : List FrameRecord → List Byte
  | [] => []
  | r :: rest => recordBytes r ++ recordsBytes rest

/-- Real records, then padding records of sixteen 0xFF bytes up to 32 records (R204). -/
def motionBlockBytes (rs : List FrameRecord) : List Byte :=
  recordsBytes rs ++ List.replicate (16 * (32 - rs.length)) 0xFF#8

/-- Real bytes, then zero bytes up to 65,536 (R86, R204). -/
def unitBytes (bytes : List Byte) : List Byte := bytes ++ List.replicate (65536 - bytes.length) 0#8

/-! ## Slot header (Figure 12.10, R205) -/

/-- A header block: its first 508 bytes and their CRC-32. -/
def sealHeader (body : List Byte) : List Byte :=
  let full := body ++ List.replicate (508 - body.length) 0#8
  full ++ u32 (crc32 full).toNat

/-- The marker of a slot header. -/
def headerMarker : Nat := 0x4C485750

/-- A blank header (R98). -/
def blankHeader (regionId : Word) : List Byte := sealHeader (u32 headerMarker ++ u32 regionId.toNat)

/-- A header with state code `code` and reason code `reason`, from a directory entry. While the first frame is absent,
with bit 0 of offset 18 clear, First frame at offset 24 is 0 (log 53, a DESIGN CHOICE: Figure 12.10 gives no value). -/
def entryHeader (regionId : Word) (code reason : Nat) (e : Entry) : List Byte :=
  sealHeader (u32 headerMarker ++ u32 regionId.toNat ++ u8 code ++ u8 (lockCode e.locks) ++ u8 reason
    ++ u8 e.impactCount ++ u32 (e.sequence.getD 0) ++ u16 (e.recId.getD 0) ++ flag8 e.firstFrame.isSome ++ u8 0
    ++ u32 (e.openTime.getD 0).toNat ++ u32 (e.firstFrame.getD 0).toNat ++ u32 e.streamBytes
    ++ u32 e.motionRecords ++ u32 e.motionDropped ++ u32 e.lostBytes)

/-- An OPEN header: state code 1, close reason 0. -/
def openHeader (regionId : Word) (e : Entry) : List Byte := entryHeader regionId 1 0 e

/-- A CLOSED header: state code 2. -/
def closedHeader (regionId : Word) (reason : Nat) (e : Entry) : List Byte := entryHeader regionId 2 reason e

/-! ## Directory entry in a SLOT_READ reply (Figure 12.9) -/

/-- An absent field is sent as 0 with its present bit clear. -/
def entryBytes (index : Nat) (e : Entry) : List Byte :=
  u16 index ++ u8 (slotStateCode e.st) ++ u8 (lockCode e.locks)
    ++ u8 (bitsCode [e.sequence.isSome, e.recId.isSome, e.openTime.isSome, e.firstFrame.isSome])
    ++ u8 (bitsCode [e.queued, e.headerWritten]) ++ u8 (optReasonCode e.reason) ++ u8 e.impactCount
    ++ u32 (e.sequence.getD 0) ++ u16 (e.recId.getD 0) ++ u32 (e.openTime.getD 0).toNat ++ u32 e.streamBytes
    ++ u32 e.motionRecords ++ u32 e.motionDropped ++ u32 e.lostBytes ++ u32 (e.firstFrame.getD 0).toNat

/-- Entries with consecutive indices from `index` on. -/
def entriesBytes (index : Nat) : List Entry → List Byte
  | [] => []
  | e :: rest => entryBytes index e ++ entriesBytes (index + 1) rest

/-! ## Context fields (Figure 12.7) -/

def ctxFieldsBytes (f : CtxFields) : List Byte :=
  u8 f.mode.toNat ++ u8 f.shift.yaw.toNat ++ u8 f.shift.pitch.toNat ++ u8 f.shift.roll.toNat
    ++ u32 f.limit.yaw.toNat ++ u32 f.limit.pitch.toNat ++ u32 f.limit.roll.toNat
    ++ u16 f.gain.yaw.toNat ++ u16 f.gain.pitch.toNat ++ u16 f.gain.roll.toNat
    ++ u16 f.travel.yaw.toNat ++ u16 f.travel.pitch.toNat ++ u16 f.travel.roll.toNat
    ++ u8 f.lookahead.toNat ++ u16 f.pxX.toNat ++ u16 f.pxY.toNat ++ u16 f.marginX.toNat ++ u16 f.marginY.toNat
    ++ u16 f.rollMargin.toNat ++ u8 f.readout.toNat

/-! ## Event details (Figure 12.6) -/

def slotsBytes : List Nat → List Byte
  | [] => []
  | i :: rest => u16 i ++ slotsBytes rest

/-- The detail's bytes. In a SLOT(closed) the list holds at most 100 slots. -/
def detailBytes : Detail → List Byte
  | .impact time peak slots => u32 time.toNat ++ u32 peak ++ u8 slots.length ++ slotsBytes slots
  | .slotOpened slot sequence recId openTime =>
      u8 1 ++ u16 slot ++ u32 sequence ++ u16 recId ++ u32 openTime.toNat
  | .slotClosed slot reason sequence stream lost motion dropped spent unsaved =>
      u8 2 ++ u16 slot ++ u8 (reasonCode reason) ++ u32 sequence ++ u32 stream ++ u32 lost ++ u32 motion
        ++ u32 dropped ++ u8 spent ++ u8 (unsaved.take 100).length ++ slotsBytes (unsaved.take 100)
  | .slotReleased slot => u8 3 ++ u16 slot
  | .slotLocked slot time => u8 4 ++ u16 slot ++ u32 time.toNat
  | .recordStopped recId reason time last budget spent =>
      u16 recId ++ u8 (reasonCode reason) ++ u32 time.toNat ++ u16 (optSlotCode last) ++ u8 budget ++ u8 spent
  | .cardMounted slots free closed recovered bad conflicts released quota nextSeq nextRec =>
      u8 1 ++ u16 slots ++ u16 free ++ u16 closed ++ u16 recovered ++ u16 bad ++ u16 conflicts ++ u16 released
        ++ u8 quota ++ nextSeqField nextSeq ++ u16 nextRec
  | .cardFault cause none => u8 2 ++ u8 (cardCauseCode cause) ++ u16 0xFFFF ++ u32 0 ++ u8 0
  | .cardFault cause (some (slot, block, kind)) =>
      u8 2 ++ u8 (cardCauseCode cause) ++ u16 slot ++ u32 block ++ u8 (writeKindCode kind)
  | .cardRemoved => u8 3
  | .cardInserted => u8 4
  | .cardUnmounted => u8 5
  | .overcurrent chan time limit attempts =>
      u8 1 ++ u8 (chanCode chan) ++ u32 time.toNat ++ u16 limit ++ u8 attempts
  | .latched chan time => u8 2 ++ u8 (chanCode chan) ++ u32 time.toNat
  | .thermalDown time temp chans => u8 3 ++ u32 time.toNat ++ s16 temp ++ u8 (bitsCode [chans.sx, chans.sy, chans.rt])
  | .switched index out ret frame time =>
      u8 1 ++ u8 (ctxCode index) ++ u8 (optCtxCode out) ++ flag8 ret ++ u32 frame.toNat ++ u32 time.toNat
  | .ctxFault index code value => u8 2 ++ u8 (ctxCode index) ++ u8 code ++ u32 value
  | .charge before after pause cycle cause vBat iBat preTicks fastTicks time =>
      u8 (phaseCode before) ++ u8 (phaseCode after) ++ u8 (pauseCode pause) ++ u8 (cycleCode cycle)
        ++ u8 (chargeFaultCode cause) ++ s16 vBat ++ s16 iBat ++ u32 (msOfTicks preTicks)
        ++ u32 (msOfTicks fastTicks) ++ u32 time.toNat
  | .input usb aux before after iEff time =>
      flag8 usb ++ flag8 aux ++ u8 (optSrcCode before) ++ u8 (optSrcCode after) ++ u16 iEff ++ u32 time.toNat
  | .supply kind before after vSys time started budget =>
      u8 (supplyKindCode kind) ++ u8 (supplyCode before) ++ u8 (supplyCode after) ++ s16 vSys ++ u32 time.toNat
        ++ flag8 started ++ u8 budget
  | .dieZone before after temp time =>
      u8 1 ++ u8 (dieZoneCode before) ++ u8 (dieZoneCode after) ++ s16 temp ++ u32 time.toNat
  | .batZone before after temp time =>
      u8 2 ++ u8 (batZoneCode before) ++ u8 (batZoneCode after) ++ s16 temp ++ u32 time.toNat
  | .guardTripped cause writer stopAsked time =>
      u8 1 ++ u8 (tripCode (some cause)) ++ u8 (writerCode writer) ++ flag8 stopAsked ++ u32 time.toNat
  | .guardRestored kind time => u8 2 ++ u8 kind.toNat ++ u32 time.toNat
  | .sensorLost time => u8 1 ++ u32 time.toNat
  | .sensorRestored time => u8 2 ++ u32 time.toNat
  | .biasLearned bias => u8 3 ++ s16 bias.yaw ++ s16 bias.pitch ++ s16 bias.roll

/-! ## Reply frames (Figure 12.1, R203) -/

/-- The payload: the status byte, then the data. -/
def replyPayload (r : Reply) : List Byte := u8 (statusCode r.status) ++ r.data

/-- The kind, tag, length and payload, over which the CRC-16 runs. -/
def replyBody (r : Reply) : List Byte :=
  u8 r.kind.toNat ++ u8 r.tag.toNat ++ u16 (replyPayload r).length ++ replyPayload r

/-- The whole reply frame, from its start byte to its last CRC byte. -/
def replyFrame (r : Reply) : List Byte := u8 0x5C ++ replyBody r ++ u16 (crc16 (replyBody r)).toNat

end Sys2Proof.Machine
end

