-- ==== Sys2Proof/Machine/Ops.lean ====
section
/-! DEFINITION. The operations every block shares: access by channel and axis, the event set, the reply slot, and the
two gates a command passes (held in reset: R197; link slots occupied: R184). -/

namespace Sys2Proof.Machine

/-- What a command answers. -/
abbrev Result := Host.Outcome State Fault Refusal

/-! ## Access by channel and axis -/

def chanGet {α : Type} (t : PerChan α) : Chan → α
  | .sx => t.sx
  | .sy => t.sy
  | .rt => t.rt

def chanSet {α : Type} (t : PerChan α) (c : Chan) (x : α) : PerChan α :=
  match c with
  | .sx => ⟨x, t.sy, t.rt⟩
  | .sy => ⟨t.sx, x, t.rt⟩
  | .rt => ⟨t.sx, t.sy, x⟩

def chanMap {α β : Type} (f : α → β) (t : PerChan α) : PerChan β := ⟨f t.sx, f t.sy, f t.rt⟩

def axisMap {α β : Type} (f : α → β) (t : PerAxis α) : PerAxis β := ⟨f t.yaw, f t.pitch, f t.roll⟩

def axisMap2 {α β γ : Type} (f : α → β → γ) (t : PerAxis α) (u : PerAxis β) : PerAxis γ :=
  ⟨f t.yaw u.yaw, f t.pitch u.pitch, f t.roll u.roll⟩

/-- The value of the axis a channel serves (Figure 2.1). -/
def axisOf {α : Type} (t : PerAxis α) : Chan → α
  | .sx => t.yaw
  | .sy => t.pitch
  | .rt => t.roll

/-- The list without its last element's place changed: element `i` replaced, the others kept. -/
def setAt {α : Type} : List α → Nat → α → List α
  | [], _, _ => []
  | _ :: xs, 0, y => y :: xs
  | x :: xs, i + 1, y => x :: setAt xs i y

/-! ## Events (R190, R191) -/

/-- The class an event belongs to (Figure 11.4). -/
def detailClass : Detail → EvClass
  | .impact .. => .impact
  | .slotOpened .. => .slot
  | .slotClosed .. => .slot
  | .slotReleased .. => .slot
  | .slotLocked .. => .slot
  | .recordStopped .. => .record
  | .cardMounted .. => .card
  | .cardFault .. => .card
  | .cardRemoved => .card
  | .cardInserted => .card
  | .cardUnmounted => .card
  | .overcurrent .. => .actuator
  | .latched .. => .actuator
  | .thermalDown .. => .actuator
  | .switched .. => .context
  | .ctxFault .. => .context
  | .charge .. => .charge
  | .input .. => .input
  | .supply .. => .supply
  | .dieZone .. => .thermal
  | .batZone .. => .thermal
  | .guardTripped .. => .guard
  | .guardRestored .. => .guard
  | .sensorLost .. => .motion
  | .sensorRestored .. => .motion
  | .biasLearned .. => .motion

/-- The mask bit of a class: its number less 1. -/
def classBit : EvClass → Nat
  | .impact => 0
  | .slot => 1
  | .record => 2
  | .card => 3
  | .actuator => 4
  | .context => 5
  | .charge => 6
  | .input => 7
  | .supply => 8
  | .thermal => 9
  | .guard => 10
  | .motion => 11

def eventGet (e : EventSet) : EvClass → EvEntry
  | .impact => e.impact
  | .slot => e.slot
  | .record => e.record
  | .card => e.card
  | .actuator => e.actuator
  | .context => e.context
  | .charge => e.charge
  | .input => e.input
  | .supply => e.supply
  | .thermal => e.thermal
  | .guard => e.guard
  | .motion => e.motion

def eventSet (e : EventSet) (c : EvClass) (x : EvEntry) : EventSet :=
  match c with
  | .impact => { e with impact := x }
  | .slot => { e with slot := x }
  | .record => { e with record := x }
  | .card => { e with card := x }
  | .actuator => { e with actuator := x }
  | .context => { e with context := x }
  | .charge => { e with charge := x }
  | .input => { e with input := x }
  | .supply => { e with supply := x }
  | .thermal => { e with thermal := x }
  | .guard => { e with guard := x }
  | .motion => { e with motion := x }

/-- The classes in class order. -/
def allClasses : List EvClass :=
  [.impact, .slot, .record, .card, .actuator, .context, .charge, .input, .supply, .thermal, .guard, .motion]

/-- One more event in an entry: the count holds at 255, the detail is replaced (R190). -/
def countEvent (e : EvEntry) (d : Detail) : EvEntry := ⟨min 255 (e.count + 1), some d⟩

/-- An event is kept only when its class's record-mask bit is set (R190). -/
def raiseIn (l : Lnk) (d : Detail) : Lnk :=
  let c := detailClass d
  if l.recordMask.getLsbD (classBit c) then
    { l with events := eventSet l.events c (countEvent (eventGet l.events c) d) }
  else l

/-- A block raises an event. -/
def raise (d : Detail) (s : State) : State := { s with lnk := raiseIn s.lnk d }

/-- ATTN (R191): a class with a count above 0 has its alert bit set. -/
def attn (l : Lnk) : Bool :=
  allClasses.any fun c => l.alertMask.getLsbD (classBit c) && decide (0 < (eventGet l.events c).count)

/-! ## The request slot and the reply slot (R184 to R187) -/

/-- The reply to request kind `kind` (kind plus 0x80) is placed in the reply slot. -/
def answer (kind tag : Byte) (status : Status) (data : List Byte) (s : State) : State :=
  { s with lnk := { s.lnk with reply := some ⟨kind + 0x80#8, tag, status, data⟩ } }

/-- Either link slot holds a frame. -/
def linkBusy (l : Lnk) : Bool := l.req.isSome || l.reply.isSome

/-- A request becomes held (R187). -/
def hold (h : Held) (s : State) : State := { s with lnk := { s.lnk with req := some h } }

def heldKind : Held → Byte
  | .frameGet .. => 0x17#8
  | .unmount .. => 0x21#8
  | .motionRead .. => 0x28#8

def heldTag : Held → Byte
  | .frameGet tag _ _ => tag
  | .unmount tag => tag
  | .motionRead tag _ _ _ _ => tag

/-- The hold of `h` ends: the request slot empties and the reply is placed (R187). -/
def endHold (h : Held) (status : Status) (data : List Byte) (s : State) : State :=
  answer (heldKind h) (heldTag h) status data { s with lnk := { s.lnk with req := none } }

/-- A held UNMOUNT, if there is one, is answered with `status`. -/
def endUnmount (status : Status) (s : State) : State :=
  match s.lnk.req with
  | some (.unmount tag) => endHold (.unmount tag) status [] s
  | _ => s

/-- A held MOTION_READ, if there is one, is answered with `status`, and its read's data is no longer wanted. -/
def endMotionRead (status : Status) (s : State) : State :=
  match s.lnk.req with
  | some (.motionRead tag slot k n taken) =>
      let s := endHold (.motionRead tag slot k n taken) status [] s
      match s.cwr.port with
      | some t =>
          match t.op with
          | .hostRead _ => { s with cwr := { s.cwr with port := some { t with op := .hostRead false } } }
          | _ => s
      | none => s
  | _ => s

/-- A held FRAME_GET, if there is one, is answered with `status`. -/
def endFrameGet (status : Status) (s : State) : State :=
  match s.lnk.req with
  | some (.frameGet tag n taken) => endHold (.frameGet tag n taken) status [] s
  | _ => s

/-! ## The gates -/

/-- While the part is held in reset every block stops where it is (R197): the command changes nothing. -/
def whenUp (s : State) (f : State → State) : Result := .next (if s.rst.active then s else f s)

/-- A request that arrives while a link slot is occupied is discarded and REFUSED is set (R184); one that arrives in
reset is not taken (R182). -/
def takeReq (s : State) (f : State → State) : Result :=
  whenUp s fun s => if linkBusy s.lnk then { s with lnk := { s.lnk with refused := true } } else f s

/-- A row that names the moment at which a count reaches its end inside another step is that step, when it does so
(log 2). -/
def stepThat (happens : State → State → Bool) (f : State → State) (s : State) : State :=
  if happens s (f s) then f s else s

end Sys2Proof.Machine
end

