-- ==== Sys2Proof/Machine/Directory.lean ====
section
/-! DEFINITION. The slot directory (spec/07): geometry, entries, slot choice, locks, the header update queue, and the
reading of a header block at mount. -/

namespace Sys2Proof.Machine

/-! ## Entries by index and state -/

/-- The first index, from `i` on, whose entry is in state `st`. -/
def findState (st : SlotState) : Nat → List Entry → Option Nat
  | _, [] => none
  | i, e :: rest => if e.st = st then some i else findState st (i + 1) rest

/-- The OPEN slot (R104: there is at most one). -/
def openSlot (s : State) : Option Nat := findState .opened 0 s.sdr.entries

/-- The CLOSING slot (R104: there is at most one). -/
def closingSlot (s : State) : Option Nat := findState .closing 0 s.sdr.entries

/-- A slot's directory entry. -/
def entryAt (s : State) (i : Nat) : Option Entry := s.sdr.entries[i]?

/-- One entry rewritten. -/
def modEntry (i : Nat) (f : Entry → Entry) (s : State) : State :=
  match entryAt s i with
  | none => s
  | some e => { s with sdr := { s.sdr with entries := setAt s.sdr.entries i (f e) } }

/-- A slot's state changes. -/
def setSlotState (st : SlotState) (i : Nat) (s : State) : State := modEntry i (fun e => { e with st := st }) s

/-- The Header written field of a slot; `false` where there is no such slot. -/
def headerWritten (s : State) (i : Nat) : Bool :=
  match entryAt s i with
  | none => false
  | some e => e.headerWritten

/-- The number of entries in a state. -/
def countSlots (st : SlotState) (es : List Entry) : Nat := (es.filter fun e => e.st == st).length

/-- The number of entries that carry IMPACT. -/
def impactLocks (es : List Entry) : Nat := (es.filter fun e => e.locks.impact).length

def noLocks : LockSet := ⟨false, false⟩

/-- The entry of a slot classified FREE (R99). -/
def freeEntry : Entry where
  st := .free
  sequence := none
  recId := none
  locks := noLocks
  openTime := none
  headerWritten := false
  streamBytes := 0
  motionRecords := 0
  motionDropped := 0
  lostBytes := 0
  firstFrame := none
  impactCount := 0
  reason := none
  queued := false

/-- The entry of a slot classified BAD (R98, R99). -/
def badEntry : Entry := { freeEntry with st := .bad }

/-! ## Geometry (R95) -/

/-- The applied Q; 0 with no region. -/
def quotaOf (s : State) : Nat :=
  match s.sdr.geo with
  | none => 0
  | some g => g.quota

/-- The header block of slot `i`. -/
def headerBlock (g : Geometry) (i : Nat) : Nat := g.base + i * g.slotSize

/-- The first block of write unit `k` of slot `i`. -/
def unitBlock (g : Geometry) (i k : Nat) : Nat := headerBlock g i + 1 + 128 * k

/-- Motion block `j` of slot `i`. -/
def motionBlock (g : Geometry) (i j : Nat) : Nat := headerBlock g i + 1 + 128 * g.units + j

/-- A slot's stream capacity in bytes (6.1). -/
def slotCapacity (s : State) : Nat :=
  match s.sdr.geo with
  | none => 0
  | some g => g.units * 65536

/-- A slot's motion capacity in records (R91). -/
def motionCapacity (s : State) : Nat :=
  match s.sdr.geo with
  | none => 0
  | some g => 32 * g.motion

/-- R95, R96: the geometry of a MOUNT. -/
def geometryOf (base len regionId : Word) (units motion : Half) (quota : Byte) (format : Bool) : Geometry :=
  let size := 1 + 128 * units.toNat + motion.toNat
  let count := min 256 (len.toNat / size)
  { base := base.toNat
    len := len.toNat
    regionId := regionId
    units := units.toNat
    motion := motion.toNat
    quota := clampNat 0 (count / 2) quota.toNat
    format := format
    slotSize := size
    slotCount := count }

/-! ## The header update queue (R113, R114) -/

/-- A slot joins the queue at its tail unless it is in it already. -/
def enqueue (i : Nat) (s : State) : State :=
  if i ∈ s.sdr.queue then s
  else
    let s := modEntry i (fun e => { e with queued := true }) s
    { s with sdr := { s.sdr with queue := s.sdr.queue ++ [i] } }

/-- The head of the queue leaves it. -/
def dequeue (i : Nat) (rest : List Nat) (s : State) : State :=
  let s := modEntry i (fun e => { e with queued := false }) s
  { s with sdr := { s.sdr with queue := rest } }

/-- R114: an entry taken from the queue needs a header write. -/
def needsUpdate (s : State) (i : Nat) : Bool :=
  match entryAt s i with
  | none => false
  | some e => (e.st == .opened && e.headerWritten) || e.st == .closed || e.st == .recovered

/-- R114: entries at the head that need no write are removed. -/
def skipQueue : List Nat → State → State
  | [], s => s
  | i :: rest, s => if needsUpdate s i then s else skipQueue rest (dequeue i rest s)

/-- R114: the header an update writes. -/
def updateHeader (g : Geometry) (e : Entry) : List Byte :=
  if e.st = .opened then openHeader g.regionId e else closedHeader g.regionId (optReasonCode e.reason) e

/-! ## Slot choice (R106, R107) -/

/-- The entry with the lowest sequence among those with `p`, as its sequence and index, from index `i` on. -/
def lowestSeq (p : Nat → Entry → Bool) : Nat → List Entry → Option (Nat × Nat)
  | _, [] => none
  | i, e :: rest =>
      let later := lowestSeq p (i + 1) rest
      match e.sequence with
      | none => later
      | some q =>
          if p i e then
            match later with
            | none => some (q, i)
            | some (q', i') => if q ≤ q' then some (q, i) else some (q', i')
          else later

/-- The entry with the greatest sequence among those with `p`, from index `i` on. -/
def greatestSeq (p : Nat → Entry → Bool) : Nat → List Entry → Option (Nat × Nat)
  | _, [] => none
  | i, e :: rest =>
      let later := greatestSeq p (i + 1) rest
      match e.sequence with
      | none => later
      | some q =>
          if p i e then
            match later with
            | none => some (q, i)
            | some (q', i') => if q' ≤ q then some (q, i) else some (q', i')
          else later

/-- A recorded entry: CLOSED or RECOVERED. -/
def recorded (e : Entry) : Bool := e.st == .closed || e.st == .recovered

def unlocked (e : Entry) : Bool := !e.locks.impact && !e.locks.keep

/-- R106: the slot to open next. -/
def chooseSlot (s : State) : Option Nat :=
  match s.sdr.nextSeq with
  | none => none
  | some _ =>
      match findState .free 0 s.sdr.entries with
      | some i => some i
      | none => (lowestSeq (fun _ e => recorded e && unlocked e) 0 s.sdr.entries).map Prod.snd

/-- R101: the sequence after `q`, `none` when exhausted. -/
def seqAfter (q : Nat) : Option Nat := if 4294967295 ≤ q then none else some (q + 1)

/-- R101: the recording id after `r`. -/
def recAfter (r : Nat) : Nat := if 65535 ≤ r then 1 else r + 1

/-- R107: an entry when its slot is chosen; the Queued field is left. -/
def openedEntry (sequence recId : Nat) (now : Word) (e : Entry) : Entry :=
  { freeEntry with
    st := .opened
    sequence := some sequence
    recId := some recId
    openTime := some now
    queued := e.queued }

/-- R107, R138, R140: a cursor on the chosen slot becomes stale; a MOTION_READ held on it is answered STALE and the
cursor becomes none. -/
def staleCursor (i : Nat) (s : State) : State :=
  let s :=
    match s.cwr.cursor with
    | none => s
    | some c => if c.slot = i then { s with cwr := { s.cwr with cursor := some { c with stale := true } } } else s
  match s.lnk.req with
  | some (.motionRead _ slot _ _ _) =>
      if slot = i then
        let s := endMotionRead .stale s
        { s with cwr := { s.cwr with cursor := none } }
      else s
  | _ => s

/-- R107: the chosen slot's entry is reset, with sequence `q`. -/
def resetEntry (i q recId : Nat) (s : State) : State :=
  let s := modEntry i (openedEntry q recId s.now) s
  staleCursor i { s with sdr := { s.sdr with nextSeq := seqAfter q } }

/-! ## Locks (R108 to R112) -/

/-- IMPACT set or cleared on a slot. -/
def setImpact (b : Bool) (i : Nat) (s : State) : State :=
  modEntry i (fun e => { e with locks := { e.locks with impact := b } }) s

/-- IMPACT is cleared to make room (R102, R110): an event and a header update follow. -/
def releaseSlot (i : Nat) (s : State) : State := enqueue i (raise (.slotReleased i) (setImpact false i s))

/-- IMPACT is added (R110): a header update follows. -/
def lockSlot (i : Nat) (s : State) : State := enqueue i (setImpact true i s)

def hasImpact (s : State) (i : Nat) : Bool :=
  match entryAt s i with
  | none => false
  | some e => e.locks.impact

/-- R110: IMPACT is applied to the slots of a list, in order; `cands` are all the impact's candidates. -/
def lockList (cands : List Nat) : List Nat → State → State
  | [], s => s
  | i :: rest, s =>
      if hasImpact s i then lockList cands rest s
      else if quotaOf s = 0 then s
      else if impactLocks s.sdr.entries < quotaOf s then lockList cands rest (lockSlot i s)
      else
        match lowestSeq (fun j e => e.locks.impact && !cands.contains j) 0 s.sdr.entries with
        | none => s
        | some (_, j) => lockList cands rest (lockSlot i (releaseSlot j s))

/-- R109: the anchor, the OPEN entry or else the CLOSING one. -/
def anchorSlot (s : State) : Option Nat :=
  match openSlot s with
  | some i => some i
  | none => closingSlot s

/-- R109 (b): the entry before the anchor in its recording, when the impact lies within the pre-roll of its opening. -/
def beforeAnchor (time : Word) (pre : Nat) (e : Entry) (s : State) : List Nat :=
  match e.openTime, e.sequence with
  | some t, some q =>
      if since time t < pre * 4096 then
        match greatestSeq (fun _ x => decide (x.sequence.getD 0 < q)) 0 s.sdr.entries with
        | none => []
        | some (_, j) =>
            match entryAt s j with
            | none => []
            | some x => if x.recId = e.recId then [j] else []
      else []
  | _, _ => []

/-- R112: a lock request in RECORDING or ROLLING sets the post-roll mark. -/
def setMark (time : Word) (cands : List Nat) (post : Nat) (s : State) : State :=
  if s.cwr.writer = .recording ∨ s.cwr.writer = .rolling then
    { s with sdr := { s.sdr with mark := if post = 0 then none else some ⟨time, cands, post⟩ } }
  else s

/-- R109 to R112: a lock request for an impact at `time`; the candidates that carry IMPACT after it. -/
def lockRequest (time : Word) (pre post : Nat) (s : State) : State × List Nat :=
  match anchorSlot s with
  | none => (s, [])
  | some i =>
      match entryAt s i with
      | none => (s, [])
      | some e =>
          let cands := i :: beforeAnchor time pre e s
          let s := lockList cands cands (setMark time cands post s)
          let s := modEntry i (fun x => { x with impactCount := min 255 (x.impactCount + 1) }) s
          (s, cands.filter (hasImpact s))

/-- R112: the post-roll lock of the slot chosen at a crossing; the mark becomes none. -/
def postRoll (i : Nat) (s : State) : State :=
  match s.sdr.mark with
  | none => s
  | some m =>
      let s := { s with sdr := { s.sdr with mark := none } }
      if since s.now m.time < m.post * 4096 then
        let s := lockList (m.candidates ++ [i]) [i] s
        if hasImpact s i then raise (.slotLocked i m.time) s else s
      else s

/-! ## Mount (R99 to R102, R205) -/

/-- R99, R205: the entry a header block gives, for the region mounted. Header written is no for every entry a mount fills
(DESIGN CHOICE, log 43), and the lock byte's bits above bit 1 are not looked at (DESIGN CHOICE, log 44). -/
def classify (g : Geometry) (block : List Byte) : Entry :=
  let code := fieldAt block 8 1
  let e : Entry :=
    { st := if code = 2 then .closed else .recovered
      sequence := some (fieldAt block 12 4)
      recId := some (fieldAt block 16 2)
      locks := ⟨(fieldAt block 9 1).testBit 0, (fieldAt block 9 1).testBit 1⟩
      openTime := some (BitVec.ofNat 32 (fieldAt block 20 4))
      headerWritten := false
      streamBytes := fieldAt block 28 4
      motionRecords := fieldAt block 32 4
      motionDropped := fieldAt block 36 4
      lostBytes := fieldAt block 40 4
      firstFrame := if (fieldAt block 18 1).testBit 0 then some (BitVec.ofNat 32 (fieldAt block 24 4)) else none
      impactCount := fieldAt block 11 1
      reason := if code = 2 then reasonOfCode (fieldAt block 10 1) else none
      queued := false }
  if (crc32 (block.take 508)).toNat ≠ fieldAt block 508 4 then freeEntry
  else if fieldAt block 0 4 ≠ headerMarker then freeEntry
  else if fieldAt block 4 4 ≠ g.regionId.toNat then freeEntry
  else if code ≠ 1 ∧ code ≠ 2 then freeEntry
  else if g.units * 65536 < e.streamBytes then freeEntry
  else if 32 * g.motion < e.motionRecords then freeEntry
  else e

/-- R100: of the entries with one sequence the first keeps its class; the others become FREE and are counted. -/
def dropConflicts : List Nat → List Entry → List Entry × Nat
  | _, [] => ([], 0)
  | seen, e :: rest =>
      match e.sequence with
      | none =>
          let r := dropConflicts seen rest
          (e :: r.1, r.2)
      | some q =>
          if seen.contains q then
            let r := dropConflicts seen rest
            (freeEntry :: r.1, r.2 + 1)
          else
            let r := dropConflicts (q :: seen) rest
            (e :: r.1, r.2)

/-- R101: the next sequence and the next recording id after a header scan. -/
def nextNumbers (es : List Entry) : Option Nat × Nat :=
  match greatestSeq (fun _ _ => true) 0 es with
  | none => (some 1, 1)
  | some (q, i) =>
      match es[i]? with
      | none => (some 1, 1)
      | some e => (seqAfter q, recAfter (e.recId.getD 0))

/-- R102: while more entries carry IMPACT than the quota allows, the oldest is released; the number released.
`fuel` bounds the releases. -/
def releaseExcess : Nat → State → State × Nat
  | 0, s => (s, 0)
  | fuel + 1, s =>
      if quotaOf s < impactLocks s.sdr.entries then
        match lowestSeq (fun _ e => e.locks.impact) 0 s.sdr.entries with
        | none => (s, 0)
        | some (_, i) =>
            let r := releaseExcess fuel (releaseSlot i s)
            (r.1, r.2 + 1)
      else (s, 0)

/-! ## Discard (R117) -/

/-- The directory is discarded, and the cursor with it (R138). -/
def discardDirectory (s : State) : State :=
  { s with sdr := Sdr.reset, cwr := { s.cwr with cursor := none } }

end Sys2Proof.Machine
end

