-- ==== Sys2Proof/Machine/ClipBuffer.lean ====
section
/-! DEFINITION. The clip buffer (spec/06): the stream ring, the offered write unit and motion block, the pending list,
and what an emergency close takes away. -/

namespace Sys2Proof.Machine

/-! ## The stream ring (R81) -/

/-- The ring's capacity. -/
def ringBytes : Nat := 4194304

/-- The bytes held. -/
def fillOf : List Segment → Nat
  | [] => 0
  | g :: rest => g.bytes.length + fillOf rest

/-- The free space. -/
def freeSpace (c : Cbf) : Nat := ringBytes - fillOf c.segs

/-- R84: bytes join their slot's segment, which is created at the tail if it does not exist. -/
def appendSeg (slot : Nat) (bytes : List Byte) : List Segment → List Segment
  | [] => if bytes = [] then [] else [⟨slot, bytes⟩]
  | g :: rest => if g.slot = slot then ⟨slot, g.bytes ++ bytes⟩ :: rest else g :: appendSeg slot bytes rest

/-- R87: real bytes leave the head; an emptied segment is removed. -/
def dropBytes (real : Nat) : List Segment → List Segment
  | [] => []
  | g :: rest => if (g.bytes.drop real).length = 0 then rest else ⟨g.slot, g.bytes.drop real⟩ :: rest

/-- The bytes held for a slot. -/
def bytesOf (slot : Nat) (segs : List Segment) : Nat := fillOf (segs.filter fun g => g.slot == slot)

/-- A slot's state is CLOSING. -/
def isClosing (s : State) (i : Nat) : Bool :=
  match entryAt s i with
  | none => false
  | some e => e.st == .closing

/-! ## The offered unit and block (R86, R92) -/

/-- The four items of an offered unit or block: its slot, its number in the slot's area, its count of real bytes or
records, and whether it is the slot's last. -/
structure Offer where
  slot : Nat
  number : Nat
  real : Nat
  last : Bool
deriving DecidableEq, Repr

/-- R86: the write unit of `real` bytes at the head of segment `g`. -/
def unitOffer (s : State) (g : Segment) (real : Nat) : Offer where
  slot := g.slot
  number := (match entryAt s g.slot with
    | none => 0
    | some e => e.streamBytes) / 65536
  real := real
  last := isClosing s g.slot && real == g.bytes.length

/-- R86: the write unit offered. -/
def offeredUnit (s : State) : Option Offer :=
  match s.cbf.segs with
  | [] => none
  | g :: _ =>
      if 65536 ≤ g.bytes.length then some (unitOffer s g 65536)
      else if isClosing s g.slot then some (unitOffer s g g.bytes.length)
      else none

/-- The records at the head of the list for the head record's slot. -/
def headRecords (slot : Nat) : List MotionRec → Nat
  | [] => 0
  | r :: rest => if r.slot = slot then headRecords slot rest + 1 else 0

/-- The records of a slot still pending. -/
def pendingOf (slot : Nat) (pend : List MotionRec) : Nat := (pend.filter fun r => r.slot == slot).length

/-- R92: the motion block of `real` records for slot `i`; it is the slot's last when the slot is CLOSING and no other
record of it is pending. -/
def blockOffer (s : State) (i real : Nat) : Offer where
  slot := i
  number := (match entryAt s i with
    | none => 0
    | some e => e.motionRecords) / 32
  real := real
  last := isClosing s i && real == pendingOf i s.cbf.pend

/-- R92: the motion block offered. -/
def offeredBlock (s : State) : Option Offer :=
  match s.cbf.pend with
  | [] => none
  | r :: rest =>
      let n := headRecords r.slot (r :: rest)
      if 32 ≤ n then some (blockOffer s r.slot 32)
      else if isClosing s r.slot then some (blockOffer s r.slot n)
      else none

/-- The bytes of the offered unit as written: real bytes and zero padding. -/
def unitData (real : Nat) (c : Cbf) : List Byte :=
  match c.segs with
  | [] => unitBytes []
  | g :: _ => unitBytes (g.bytes.take real)

/-- The bytes of the offered block as written: real records and padding records. -/
def blockData (real : Nat) (c : Cbf) : List Byte := motionBlockBytes ((c.pend.take real).map fun r => r.record)

/-! ## Admission (R90, R91) -/

/-- A slot's admitted count. -/
def admittedOf (slot : Nat) : List Admitted → Nat
  | [] => 0
  | a :: rest => if a.slot = slot then a.count else admittedOf slot rest

/-- A slot's admitted count set. -/
def setAdmitted (slot n : Nat) : List Admitted → List Admitted
  | [] => [⟨slot, n⟩]
  | a :: rest => if a.slot = slot then ⟨slot, n⟩ :: rest else a :: setAdmitted slot n rest

/-- R90: a record joins the list; the first one of its slot gives the slot's first frame. -/
def admitRecord (slot : Nat) (r : FrameRecord) (s : State) : State :=
  let n := admittedOf slot s.cbf.admitted
  let s := if n = 0 then modEntry slot (fun e => { e with firstFrame := some r.frame }) s else s
  { s with cbf := { s.cbf with
      pend := s.cbf.pend ++ [⟨slot, r⟩]
      admitted := setAdmitted slot (n + 1) s.cbf.admitted } }

/-- R91: a record is dropped. -/
def dropRecord (slot : Nat) (s : State) : State :=
  modEntry slot (fun e => { e with motionDropped := satAdd32 e.motionDropped 1 }) s

/-- R90, R91: a frame record is handed; it belongs to the OPEN slot. Outside RECORDING and ROLLING none is handed
(R36). -/
def intake (r : FrameRecord) (s : State) : State :=
  if s.cwr.writer = .recording ∨ s.cwr.writer = .rolling then
    match openSlot s with
    | none => s
    | some i =>
        if 128 ≤ s.cbf.pend.length ∨ motionCapacity s ≤ admittedOf i s.cbf.admitted then dropRecord i s
        else admitRecord i r s
  else s

/-! ## Completions (R87, R93) -/

/-- R87: a written unit's bytes leave the ring and the slot's stream bytes rise. -/
def unitWritten (slot real : Nat) (s : State) : State :=
  modEntry slot (fun e => { e with streamBytes := e.streamBytes + real })
    { s with cbf := { s.cbf with segs := dropBytes real s.cbf.segs } }

/-- R93: a written block's records leave the list and the slot's motion records rise. -/
def blockWritten (slot real : Nat) (s : State) : State :=
  modEntry slot (fun e => { e with motionRecords := e.motionRecords + real })
    { s with cbf := { s.cbf with pend := s.cbf.pend.drop real } }

/-! ## Loss and discard (R88, R89, R93) -/

/-- R83, R85: bytes counted lost for a slot. -/
def addLost (slot n : Nat) (s : State) : State :=
  modEntry slot (fun e => { e with lostBytes := satAdd32 e.lostBytes n }) s

/-- R88: a slot's bytes in the ring are declared lost and its segment removed. -/
def loseSegment (slot : Nat) (s : State) : State :=
  let n := bytesOf slot s.cbf.segs
  addLost slot n { s with cbf := { s.cbf with segs := s.cbf.segs.filter fun g => g.slot != slot } }

/-- R93, R177: a slot's records still in the list are removed and counted dropped. -/
def loseRecords (slot : Nat) (s : State) : State :=
  let n := pendingOf slot s.cbf.pend
  modEntry slot (fun e => { e with motionDropped := satAdd32 e.motionDropped n })
    { s with cbf := { s.cbf with pend := s.cbf.pend.filter fun r => r.slot != slot } }

/-- R89: the whole buffer is discarded, and what it offered with it. -/
def discardBuffer (s : State) : State :=
  { s with
    cbf := Cbf.reset
    cwr := { s.cwr with offUnit := false, offBlock := false, blockFirst := false } }

end Sys2Proof.Machine
end

