-- ==== Sys2Proof/Machine/Operands.lean ====
section
/-! DEFINITION. How a request's fields are read (R202): on-off fields, enumerated fields, indices and masks, and
numeric settings brought into range with the mark CLAMPED needs. -/

namespace Sys2Proof.Machine

/-- On-off fields carry 0 for off and 1 for on; another code is not listed. -/
def onOff (b : Byte) : Option Bool := if b = 0 then some false else if b = 1 then some true else none

/-- A context index, 0..3. -/
def ctxOf (b : Byte) : Option CtxIx :=
  if b = 0 then some .c0 else if b = 1 then some .c1 else if b = 2 then some .c2 else if b = 3 then some .c3 else none

/-- A channel index: 0 SX, 1 SY, 2 RT (R55). -/
def chanOf (b : Byte) : Option Chan :=
  if b = 0 then some .sx else if b = 1 then some .sy else if b = 2 then some .rt else none

/-- A channel mask: SX in bit 0, SY in bit 1, RT in bit 2; a mask with any further bit set is out of range (R58). -/
def maskOf (b : Byte) : Option (PerChan Bool) :=
  if 8 ≤ b.toNat then none else some ⟨b.getLsbD 0, b.getLsbD 1, b.getLsbD 2⟩

/-- INPUT_SET's preference: USB 1, AUX 2; NONE and unlisted codes are RANGE (R145, R202). -/
def preferenceOf (b : Byte) : Option Src := if b = 1 then some .usb else if b = 2 then some .aux else none

/-- SLOT_LOCK's lock kind: 1 IMPACT, 2 KEEP (Figure 12.3). -/
def lockOf (b : Byte) : Option LockKind := if b = 1 then some .impact else if b = 2 then some .keep else none

/-- MOTION_READ's mode: 0 start, 1 continue (Figure 12.3). `true` is continue. -/
def modeOf (b : Byte) : Option Bool := onOff b

/-- A class mask in a 16-bit field: any bit above the twelfth is out of range (R193). -/
def classMaskOf (h : Half) : Option (BitVec 12) := if 4096 ≤ h.toNat then none else some (h.setWidth 12)

/-- CLAMPED when a value was changed, OK otherwise. -/
def clampStatus (changed : Bool) : Status := if changed then .clamped else .ok

/-- The least whole multiple of `step` not above `n`, in `lo..hi` (R55, R155). -/
def clampStep (lo hi step n : Nat) : Nat := clampNat lo hi (if lo ≤ n ∧ n ≤ hi then floorTo step n else n)

end Sys2Proof.Machine
end

