-- ==== Sys2Proof/Machine/Flags.lean ====
section
/-! DEFINITION. The flag words: a frame record's flags (Figures 2.4 and 12.8) and the link status byte (R186,
Figure 12.2). -/

namespace Sys2Proof.Machine

/-- The flags of a frame record: the carried conditions (R33), CROP_CLAMP per axis, each channel not ACTIVE, and
STANDBY (R34). Bits 14 and 15 are 0. -/
def recordFlags (c : Carried) (crop : PerAxis Bool) (off : PerChan Bool) (standby : Bool) : Half :=
  BitVec.ofNat 16 (bitsCode [c.pathClamp.yaw, c.pathClamp.pitch, c.pathClamp.roll, crop.yaw, crop.pitch, crop.roll,
    c.gyroSat, c.sensorHold, off.sx, off.sy, off.rt, c.impact, c.ctxSwitch, standby])

/-- The link status byte: REPLY_READY, ALERT, HELD, REFUSED in bits 0 to 3, the rest 0. -/
def linkStatus (l : Lnk) : Byte :=
  BitVec.ofNat 8 (bitsCode [l.reply.isSome, attn l, l.req.isSome, l.refused])

end Sys2Proof.Machine
end

