-- ==== Sys2Proof/Machine/Split.lean ====
section
/-! DEFINITION. The correction split unit's operations (spec/02): step values, absorbed angles, handing to the actuator
drive, the crop, and the context fields they read. -/

namespace Sys2Proof.Machine

/-! ## The context in force -/

def ctxGet (c : Ctx) : CtxIx → Context
  | .c0 => c.t0
  | .c1 => c.t1
  | .c2 => c.t2
  | .c3 => c.t3

def ctxSet (c : Ctx) (i : CtxIx) (x : Context) : Ctx :=
  match i with
  | .c0 => { c with t0 := x }
  | .c1 => { c with t1 := x }
  | .c2 => { c with t2 := x }
  | .c3 => { c with t3 := x }

/-- The static fields of the active context. -/
def activeFields (s : State) : Option CtxFields := s.ctx.active.map fun i => (ctxGet s.ctx i).fields

/-! ## Step values (R21 to R25) -/

/-- R21: the predicted offset times the gain over 2^24, rounded half away, clamped to the travel. -/
def stepValue (f : CtxFields) (c : Chan) (h r : Int) : Int :=
  clampAbs (axisOf f.travel c).toNat
    (roundDiv ((h + r * (f.lookahead.toNat : Int)) * ((axisOf f.gain c).toNat : Int)) 16777216)

/-- R24: the angle a step cancels, in au, clamped to ±2^30; 0 when the gain is 0. -/
def absorbedAngle (gain : Nat) (step : Int) : Int :=
  if gain = 0 then 0 else clampAbs 1073741824 (roundDiv (step * 16777216) gain)

/-- R22: the step is forced to 0 in a CROP_ONLY context, with a gain of 0, on a channel that is not ACTIVE, and outside
RUNNING. -/
def forcedZero (f : CtxFields) (c : Chan) (st : ChanState) (stab : Stab) : Bool :=
  f.mode == 1#8 || axisOf f.gain c == 0#16 || st != .active || stab != .running

/-- R23: a handed step waits as the channel's next step. In OFF, RETRY_WAIT, LATCHED and THERMAL the waiting step stays
empty (R54). -/
def handStep (step : Int) (ch : Channel) : Channel :=
  if ch.st = .active ∨ ch.st = .parked then { ch with waiting := some step } else ch

/-- The CSU takes `step` for channel `c`, with its absorbed angle, and hands it to the actuator drive. -/
def setStep (c : Chan) (step absorbed : Int) (s : State) : State :=
  { s with
    csu := { s.csu with step := chanSet s.csu.step c step, absorbed := chanSet s.csu.absorbed c absorbed }
    adu := chanSet s.adu c (handStep step (chanGet s.adu c)) }

/-- R22, between ticks: S and absorbed become 0 and the 0 is handed at that moment. -/
def zeroStep (c : Chan) (s : State) : State := setStep c 0 0 s

/-- All three channels' steps become 0: the stabilization state has left RUNNING (R22). -/
def zeroSteps (s : State) : State := zeroStep .rt (zeroStep .sy (zeroStep .sx s))

/-- R21 for one channel: the new step from the offset the tick handed over and its rate, unless R22 forces 0. -/
def splitChan (r : PerAxis Int) (c : Chan) (s : State) : State :=
  match activeFields s with
  | none => zeroStep c s
  | some f =>
      let v := if forcedZero f c (chanGet s.adu c).st s.msu.stab then 0
        else stepValue f c (axisOf s.csu.offset c) (axisOf r c)
      setStep c v (absorbedAngle (axisOf f.gain c).toNat v) s

/-- R21 for the three channels at a tick, from the rates `r`. -/
def splitTick (r : PerAxis Int) (s : State) : State := splitChan r .rt (splitChan r .sy (splitChan r .sx s))

/-- R25 for one channel: the held step is clamped to the new travel and forced to 0 where R22 now requires it, and
absorbed is formed with the new gain. A 0 that is forced is handed (R23). -/
def recommitChan (f : CtxFields) (c : Chan) (s : State) : State :=
  if forcedZero f c (chanGet s.adu c).st s.msu.stab then zeroStep c s
  else
    let v := clampAbs (axisOf f.travel c).toNat (chanGet s.csu.step c)
    { s with csu := { s.csu with
        step := chanSet s.csu.step c v
        absorbed := chanSet s.csu.absorbed c (absorbedAngle (axisOf f.gain c).toNat v) } }

/-- R25 for the three channels, from the new active context's fields. -/
def recommitSteps (f : CtxFields) (s : State) : State :=
  recommitChan f .rt (recommitChan f .sy (recommitChan f .sx s))

/-! ## Carried conditions (R33) -/

/-- The union of two sets of conditions. -/
def carriedUnion (a b : Carried) : Carried where
  pathClamp := axisMap2 (· || ·) a.pathClamp b.pathClamp
  gyroSat := a.gyroSat || b.gyroSat
  sensorHold := a.sensorHold || b.sensorHold
  impact := a.impact || b.impact
  ctxSwitch := a.ctxSwitch || b.ctxSwitch

/-- Conditions are added to the set, and dropped in OFF (R33). -/
def carry (c : Carried) (s : State) : State :=
  if s.msu.stab = .off then s
  else { s with csu := { s.csu with carried := carriedUnion s.csu.carried c } }

/-! ## The crop (R28, R29, R34) -/

/-- The crop values of a sample and whether each was changed by its clamp. -/
structure Crop where
  x : Int
  y : Int
  roll : Int
  clamped : PerAxis Bool
deriving DecidableEq, Repr

/-- R29: a residue in px, rounded half away. -/
def cropPx (residue : Int) (px : Half) : Int := roundDiv (residue * (px.toNat : Int)) 16777216

/-- R28, R29: the residues of the latest H and the held absorbed angles, converted by the active context's fields in
RUNNING; 0 in STANDBY. -/
def cropOf (s : State) : Crop :=
  if s.msu.stab = .running then
    match activeFields s with
    | none => ⟨0, 0, 0, allAxes false⟩
    | some f =>
        let x := cropPx (s.csu.offset.yaw - s.csu.absorbed.sx) f.pxX
        let y := cropPx (s.csu.offset.pitch - s.csu.absorbed.sy) f.pxY
        let z := roundDiv (s.csu.offset.roll - s.csu.absorbed.rt) 256
        let cx := clampAbs f.marginX.toNat x
        let cy := clampAbs f.marginY.toNat y
        let cz := clampAbs f.rollMargin.toNat z
        ⟨cx, cy, cz, ⟨cx != x, cy != y, cz != z⟩⟩
  else ⟨0, 0, 0, allAxes false⟩

/-- The frame record of a sample taken now for frame `n` (R32 to R34). -/
def recordOf (n : Word) (s : State) : FrameRecord :=
  let crop := cropOf s
  { frame := n
    time := s.now
    cropX := crop.x
    cropY := crop.y
    roll := crop.roll
    flags := recordFlags s.csu.carried crop.clamped (chanMap (fun ch => ch.st != .active) s.adu)
      (s.msu.stab == .standby) }

/-- The ring keeps the last 16 records, oldest first (R35). -/
def pushRing (ring : List FrameRecord) (r : FrameRecord) : List FrameRecord :=
  let full := ring ++ [r]
  full.drop (full.length - 16)

end Sys2Proof.Machine
end

