-- ==== Sys2Proof/Machine/Actuator.lean ====
section
/-! DEFINITION. The actuator drive unit (spec/04): channel states, park reasons, overcurrent, thermal shutdown, PWM
periods, and its requests. -/

namespace Sys2Proof.Machine

/-! ## Park-reason sets -/

def parkHas (p : ParkSet) : ParkReason → Bool
  | .impact => p.impact
  | .supply => p.supply
  | .guard => p.guard
  | .host => p.host

def parkPut (p : ParkSet) (r : ParkReason) (b : Bool) : ParkSet :=
  match r with
  | .impact => { p with impact := b }
  | .supply => { p with supply := b }
  | .guard => { p with guard := b }
  | .host => { p with host := b }

def parkEmpty (p : ParkSet) : Bool := !(p.impact || p.supply || p.guard || p.host)

/-! ## Channel states (R57 to R62) -/

def putChan (c : Chan) (ch : Channel) (s : State) : State := { s with adu := chanSet s.adu c ch }

/-- The channel stops driving at once: outputs low, no waiting step, applied step 0, timers stopped, qualification
time 0 (R59, R65, R68). -/
def haltChannel (st : ChanState) (ch : Channel) : Channel :=
  { ch with
    st := st
    waiting := none
    applied := 0
    duty := 0
    finalPeriod := false
    qual := 0
    retryEnd := none
    cleanStart := none }

/-- The channel becomes ACTIVE and its clean-run timer starts (R67). -/
def activateChannel (now : Word) (ch : Channel) : Channel :=
  { ch with st := .active, finalPeriod := false, cleanStart := some now }

/-- The channel leaves OFF, LATCHED, THERMAL or RETRY_WAIT for ACTIVE or, with reasons in its set, PARKED (R58, R66),
driving nothing yet. -/
def resumeChannel (now : Word) (ch : Channel) : Channel :=
  let ch := { ch with retryEnd := none, waiting := none, applied := 0, duty := 0, qual := 0 }
  if parkEmpty ch.park then activateChannel now ch else { ch with st := .parked, finalPeriod := false }

/-- The channel in another state, with the CSU's step and absorbed angle forced to 0 when it leaves ACTIVE (R57). -/
def moveChannel (c : Chan) (ch : Channel) (s : State) : State :=
  if (chanGet s.adu c).st = .active ∧ ch.st ≠ .active then zeroStep c (putChan c ch s) else putChan c ch s

/-- R61: a reason joins the set; an ACTIVE channel becomes PARKED at once, its waiting step discarded and the 0 of the
CSU waiting instead, and drives its current period to its end. -/
def addPark (r : ParkReason) (c : Chan) (s : State) : State :=
  let ch := chanGet s.adu c
  let ch' := { ch with park := parkPut ch.park r true }
  if ch.st = .active then
    moveChannel c { ch' with st := .parked, waiting := none, finalPeriod := true, cleanStart := none } s
  else putChan c ch' s

/-- R62: a reason leaves the set; when it was the last one, a PARKED channel becomes ACTIVE. -/
def removePark (r : ParkReason) (c : Chan) (s : State) : State :=
  let ch := chanGet s.adu c
  let ch' := { ch with park := parkPut ch.park r false }
  if ch.st = .parked ∧ parkHas ch.park r = true ∧ parkEmpty ch'.park = true then
    putChan c (activateChannel s.now ch') s
  else putChan c ch' s

def addParkAll (r : ParkReason) (s : State) : State := addPark r .rt (addPark r .sy (addPark r .sx s))

def removeParkAll (r : ParkReason) (s : State) : State := removePark r .rt (removePark r .sy (removePark r .sx s))

/-- `f` on each channel the mask names, in the order SX, SY, RT. -/
def forMask (m : PerChan Bool) (f : Chan → State → State) (s : State) : State :=
  let s := if m.sx then f .sx s else s
  let s := if m.sy then f .sy s else s
  if m.rt then f .rt s else s

/-! ## Thermal shutdown (R68) -/

/-- The channels an entry into CRITICAL takes to THERMAL. -/
def thermalTargets (t : PerChan Channel) : PerChan Bool := chanMap (fun ch => ch.st != .off && ch.st != .thermal) t

/-- R68: every channel that is not OFF becomes THERMAL; one event names those that were not THERMAL already. -/
def thermalShutdown (temp : Int) (s : State) : State :=
  let m := thermalTargets s.adu
  if m.sx || m.sy || m.rt then
    raise (.thermalDown s.now temp m)
      (forMask m (fun c s => moveChannel c (haltChannel .thermal (chanGet s.adu c)) s) s)
  else s

/-! ## Overcurrent (R64, R65) -/

/-- The comparator is acted upon: ACTIVE, or PARKED and still driving its final period. -/
def qualifies (ch : Channel) : Bool := ch.st == .active || (ch.st == .parked && ch.finalPeriod)

/-- A retry follows the fault: retry enable is on and the attempts counter is above 0. -/
def retries (ch : Channel) : Bool := ch.cfg.retry && decide (0 < ch.attempts)

/-- R65: a qualified fault. -/
def qualifyFault (c : Chan) (s : State) : State :=
  let ch := chanGet s.adu c
  let ch' :=
    if retries ch then
      { haltChannel .retryWait ch with
        attempts := ch.attempts - 1
        retryEnd := some (later s.now (ticksOfMs ch.cfg.retryDelay)) }
    else haltChannel .latched ch
  let s := raise (.overcurrent c s.now ch.cfg.limit ch'.attempts) (moveChannel c ch' s)
  if retries ch then s else raise (.latched c s.now) s

/-! ## PWM periods (R53, R54) -/

/-- The duty of a period: floor(|applied step| × period / 1,024). -/
def dutyOf (applied : Int) (period : Nat) : Nat := applied.natAbs * period / 1024

/-- A period start: new prescaler and period, the waiting step, the duty. The final period of a park has ended, and
with it the qualification time (R61, R64). -/
def periodStart (ch : Channel) : Channel :=
  let applied := ch.waiting.getD ch.applied
  { ch with
    prescalerInUse := ch.cfg.prescaler
    periodInUse := ch.cfg.period
    waiting := none
    applied := applied
    duty := dutyOf applied ch.cfg.period
    periodCount := 0
    prescaleCount := 0
    finalPeriod := false
    qual := if ch.st = .active then ch.qual else 0 }

/-- The bridge outputs A and B at a channel's period count: one of them high for the duty ticks of a step that is not 0,
while the channel is ACTIVE or in its final period (R54). -/
def bridge (ch : Channel) : Bool × Bool :=
  let driven := qualifies ch && decide (ch.periodCount < ch.duty)
  (driven && decide (0 < ch.applied), driven && decide (ch.applied < 0))

/-! ## Requests -/

def chanStatesBytes (t : PerChan Channel) : List Byte :=
  u8 (chanStateCode t.sx.st) ++ u8 (chanStateCode t.sy.st) ++ u8 (chanStateCode t.rt.st)

def chanParksBytes (t : PerChan Channel) : List Byte :=
  u8 (chanStateCode t.sx.st) ++ u8 (parkCode t.sx.park) ++ u8 (chanStateCode t.sy.st) ++ u8 (parkCode t.sy.park)
    ++ u8 (chanStateCode t.rt.st) ++ u8 (parkCode t.rt.park)

/-- One named channel switched on (R58). -/
def enableChannel (c : Chan) (s : State) : State :=
  let ch := chanGet s.adu c
  let ch' := { ch with attempts := ch.cfg.attempts }
  match ch.st with
  | .off | .latched | .thermal => putChan c (resumeChannel s.now ch') s
  | .active | .parked | .retryWait => putChan c ch' s

/-- One named channel switched off (R59). -/
def disableChannel (c : Chan) (s : State) : State := moveChannel c (haltChannel .off (chanGet s.adu c)) s

/-- R58's two cases of STATE: the die zone is CRITICAL (boundary B105 on its upper side), or a named channel is THERMAL
with the latest die temperature at 100.0 °C or above. -/
def enableRefused (m : PerChan Bool) (s : State) : Bool :=
  s.scn.die.b105 ||
    (decide (1000 ≤ s.scn.tDie.latest) &&
      ((m.sx && s.adu.sx.st == .thermal) || (m.sy && s.adu.sy.st == .thermal) || (m.rt && s.adu.rt.st == .thermal)))

/-- R58. -/
def actEnableOnReq (tag mask : Byte) (s : State) : State :=
  match maskOf mask with
  | none => answer 0x18 tag .range [] s
  | some m =>
      if mask = 0 then answer 0x18 tag .ok (chanStatesBytes s.adu) s
      else if enableRefused m s then answer 0x18 tag .state [] s
      else
        let s := forMask m enableChannel s
        answer 0x18 tag .ok (chanStatesBytes s.adu) s

/-- R59. -/
def actEnableOffReq (tag mask : Byte) (s : State) : State :=
  match maskOf mask with
  | none => answer 0x19 tag .range [] s
  | some m =>
      let s := forMask m disableChannel s
      answer 0x19 tag .ok (chanStatesBytes s.adu) s

/-- R63. -/
def actParkOnReq (tag mask : Byte) (s : State) : State :=
  match maskOf mask with
  | none => answer 0x1C tag .range [] s
  | some m =>
      let s := forMask m (addPark .host) s
      answer 0x1C tag .ok (chanParksBytes s.adu) s

/-- R63. -/
def actParkOffReq (tag mask : Byte) (s : State) : State :=
  match maskOf mask with
  | none => answer 0x1D tag .range [] s
  | some m =>
      let s := forMask m (removePark .host) s
      answer 0x1D tag .ok (chanParksBytes s.adu) s

/-- The seven settings brought into range (R55, Figure 4.2). -/
def clampSettings (prescaler : Byte) (period limit : Half) (delay : Byte) (retry : Bool) (attempts retryDelay : Byte) :
    ChanSettings where
  prescaler := clampNat 1 32 prescaler.toNat
  period := clampNat 16 65535 period.toNat
  limit := clampStep 50 800 50 limit.toNat
  delay := clampNat 0 63 delay.toNat
  retry := retry
  attempts := attempts.toNat
  retryDelay := clampNat 1 255 retryDelay.toNat

/-- Whether a value was changed on the way in. -/
def settingsChanged (c : ChanSettings) (prescaler : Byte) (period limit : Half) (delay retryDelay : Byte) : Bool :=
  c.prescaler != prescaler.toNat || c.period != period.toNat || c.limit != limit.toNat || c.delay != delay.toNat
    || c.retryDelay != retryDelay.toNat

def settingsBytes (c : ChanSettings) : List Byte :=
  u8 c.prescaler ++ u16 c.period ++ u16 c.limit ++ u8 c.delay ++ flag8 c.retry ++ u8 c.attempts ++ u8 c.retryDelay

/-- R55: the settings are stored; a counter above the new attempts setting is lowered to it. -/
def storeSettings (cfg : ChanSettings) (ch : Channel) : Channel :=
  { ch with cfg := cfg, attempts := min ch.attempts cfg.attempts }

/-- R55. -/
def actSetReq (tag chan prescaler : Byte) (period limit : Half) (delay retry attempts retryDelay : Byte) (s : State) :
    State :=
  match onOff retry with
  | none => answer 0x1A tag .range [] s
  | some on =>
      match chanOf chan with
      | none => answer 0x1A tag .range [] s
      | some c =>
          let cfg := clampSettings prescaler period limit delay on attempts retryDelay
          answer 0x1A tag (clampStatus (settingsChanged cfg prescaler period limit delay retryDelay))
            (settingsBytes cfg) (putChan c (storeSettings cfg (chanGet s.adu c)) s)

/-- R56: one prescaler and period into a channel. -/
def storeGroup (prescaler period : Nat) (c : Chan) (s : State) : State :=
  let ch := chanGet s.adu c
  putChan c { ch with cfg := { ch.cfg with prescaler := prescaler, period := period } } s

/-- R56. A mask of 0 changes nothing and is answered OK; what its reply carries is a free value (log 11). -/
def actGroupReq (tag mask prescaler : Byte) (period : Half) (s : State) : State :=
  match maskOf mask with
  | none => answer 0x1B tag .range [] s
  | some m =>
      if mask = 0 then
        let r := Config.groupEmptyReply prescaler period
        answer 0x1B tag .ok (u8 r.1.toNat ++ u16 r.2.toNat) s
      else
        let p := clampNat 1 32 prescaler.toNat
        let q := clampNat 16 65535 period.toNat
        answer 0x1B tag (clampStatus (p != prescaler.toNat || q != period.toNat)) (u8 p ++ u16 q)
          (forMask m (storeGroup p q) s)

/-! ## Meanings -/

/-- ACT_ENABLE with on (R58). -/
def execActEnableOn (tag mask : Byte) (s : State) : Result := takeReq s (actEnableOnReq tag mask)

/-- ACT_ENABLE with off (R59). -/
def execActEnableOff (tag mask : Byte) (s : State) : Result := takeReq s (actEnableOffReq tag mask)

/-- ACT_SET (R55). -/
def execActSet (tag chan prescaler : Byte) (period limit : Half) (delay retry attempts retryDelay : Byte) (s : State) :
    Result :=
  takeReq s (actSetReq tag chan prescaler period limit delay retry attempts retryDelay)

/-- ACT_GROUP (R56). -/
def execActGroup (tag mask prescaler : Byte) (period : Half) (s : State) : Result :=
  takeReq s (actGroupReq tag mask prescaler period)

/-- ACT_PARK with on (R63). -/
def execActParkOn (tag mask : Byte) (s : State) : Result := takeReq s (actParkOnReq tag mask)

/-- ACT_PARK with off (R63). -/
def execActParkOff (tag mask : Byte) (s : State) : Result := takeReq s (actParkOffReq tag mask)

/-- A period start (R53, R54). -/
def execPwmPeriodStart (c : Chan) (s : State) : Result :=
  whenUp s fun s => putChan c (periodStart (chanGet s.adu c)) s

/-- The comparator's input changes (R64): at or below the limit the qualification time returns to 0. The input is a pin,
so it moves in reset too. -/
def execOcComparatorChange (c : Chan) (above : Bool) (s : State) : Result :=
  let ch := chanGet s.adu c
  .next (putChan c { ch with comparator := above, qual := if above then ch.qual else 0 } s)

/-- The qualification time stands at `cycles` (R64): a fault qualifies once it reaches the overcurrent delay, n × 2,400
cycles; before that the time is what the clock has brought it to. -/
def overcurrentStep (c : Chan) (cycles : Nat) (s : State) : State :=
  let ch := chanGet s.adu c
  if qualifies ch && ch.comparator then
    if ch.cfg.delay * 2400 ≤ max ch.qual cycles then qualifyFault c s
    else putChan c { ch with qual := max ch.qual cycles } s
  else s

/-- The qualification time reaches the overcurrent delay (R65). -/
def execOvercurrentFault (c : Chan) (cycles : Nat) (s : State) : Result := whenUp s (overcurrentStep c cycles)

/-- R66: the retry delay ends. -/
def retryExpiry (c : Chan) (s : State) : State :=
  let ch := chanGet s.adu c
  if ch.st = .retryWait ∧ expired s.now ch.retryEnd = true then putChan c (resumeChannel s.now ch) s else s

/-- The retry delay expires (R66). -/
def execRetryDelayExpiry (c : Chan) (s : State) : Result := whenUp s (retryExpiry c)

/-- The clean-run time of R67, 10 s. -/
def cleanRunTicks : Nat := ticksOfSec 10

/-- R67: the attempts counter is refilled and the timer starts again. -/
def cleanExpiry (c : Chan) (s : State) : State :=
  let ch := chanGet s.adu c
  match ch.cleanStart with
  | none => s
  | some t =>
      if cleanRunTicks ≤ since s.now t then
        putChan c { ch with attempts := ch.cfg.attempts, cleanStart := some s.now } s
      else s

/-- The clean-run timer reaches 10 s (R67). -/
def execCleanRunExpiry (c : Chan) (s : State) : Result := whenUp s (cleanExpiry c)

end Sys2Proof.Machine
end

