-- ==== Sys2Proof/Machine/Measure.lean ====
section
/-! DEFINITION. Readings, averages and temperature zones of the measurement scan (spec/05), as every consumer reads
them. -/

namespace Sys2Proof.Machine

def sumInts : List Int → Int
  | [] => 0
  | z :: rest => z + sumInts rest

/-- An input's average: the sum of its history over its conversion count, rounded half away; 0 with nothing in it
(R74). -/
def inputAvg (i : Input) : Int := if i.hist.length = 0 then 0 else roundDiv (sumInts i.hist) i.hist.length

/-- A value enters a history of at most eight, the oldest leaving (R74). -/
def pushHist (hist : List Int) (z : Int) : List Int :=
  let full := hist ++ [z]
  full.drop (full.length - 8)

/-- A reading becomes the latest value and enters the history (R72). -/
def enterValue (i : Input) (z : Int) : Input := ⟨z, pushHist i.hist z⟩

/-- A boundary crossed upward at or above `up` and back below `down` (R76). -/
def crossUp (side : Bool) (up down z : Int) : Bool := if side then decide (down ≤ z) else decide (up ≤ z)

/-- A boundary crossed outward below `out` and back at or above `back` (R77). -/
def crossDown (side : Bool) (out back z : Int) : Bool := if side then decide (z < back) else decide (z < out)

/-- The die boundaries after a reading in 0.1 °C (Figure 5.4). -/
def dieCross (d : DieSides) (z : Int) : DieSides :=
  ⟨crossUp d.b70 700 670 z, crossUp d.b85 850 820 z, crossUp d.b105 1050 1020 z⟩

/-- The zone of the highest boundary on its upper side (R76). -/
def dieZone (d : DieSides) : DieZone :=
  if d.b105 then .critical else if d.b85 then .hot else if d.b70 then .warm else .normal

/-- The battery boundaries after an average in 0.1 °C (Figure 5.5). -/
def batCross (b : BatSides) (z : Int) : BatSides :=
  ⟨crossDown b.c0 0 20 z, crossDown b.c10 100 120 z, crossUp b.w45 450 430 z, crossUp b.w55 550 530 z⟩

/-- The sides that the entry values alone give (R77, on becoming PRESENT). -/
def batClassify (z : Int) : BatSides := batCross ⟨false, false, false, false⟩ z

/-- The battery zone of the sides, in the order of R77. -/
def batZoneOf (b : BatSides) : BatZone :=
  if b.c0 then .cold else if b.c10 then .cool else if b.w55 then .hot else if b.w45 then .warm else .normal

end Sys2Proof.Machine
end

