-- ==== Sys2Proof/Machine/Charger.lean ====
section
/-! DEFINITION. The charger (spec/09, sections 9.3 to 9.5): pause reasons, the round-end notice, targets and derating,
the budget and the charge command, and CHARGE_SET. -/

namespace Sys2Proof.Machine

/-! ## Pause reasons -/

def pauseEmpty (p : PauseSet) : Bool := !(p.batCold || p.batHot || p.die || p.supply)

/-- Some reason is in `b` and not in `a`. -/
def pauseAdds (a b : PauseSet) : Bool :=
  (b.batCold && !a.batCold) || (b.batHot && !a.batHot) || (b.die && !a.die) || (b.supply && !a.supply)

/-- PRECHARGE, FAST_CC or FAST_CV: the phases that deliver current (R161). -/
def charging : Phase → Bool
  | .precharge => true
  | .fastCc => true
  | .fastCv => true
  | _ => false

/-- The phases a pause reason takes to PAUSED (R150). -/
def pausable (p : Phase) : Bool := charging p || p == .done

/-! ## Targets and derating (R157, R158) -/

/-- R155, R157: the target voltage setting of the latest notice, less 100 mV while the battery zone is WARM. The charge
stage and STATUS bit 8 both show this one (log 54). -/
def effTarget (s : State) : Nat :=
  if s.scn.batZone = .warm then s.chg.targetInUse - 100 else s.chg.targetInUse

/-- R158: a tenth of the fast current, floored to 25 mA, and 25 mA when that gives less. -/
def prechargeCurrent (fast : Nat) : Nat := max 25 (floorTo 25 (fast / 10))

/-- R158: half, floored to 25 mA, and 25 mA when that gives less. -/
def halveCurrent (n : Nat) : Nat := max 25 (floorTo 25 (n / 2))

/-- R158: the target current before derating. Outside the phases it names, a free value (log 10). -/
def baseTarget (p : Phase) (fast : Nat) : Nat :=
  match p with
  | .precharge => prechargeCurrent fast
  | .fastCc => fast
  | .fastCv => fast
  | other => Config.targetOutsideCharge (phaseCode other) fast

/-- One halving while the battery zone is COOL or WARM, one while the die boundary B70 is crossed upward. -/
def derate (zone : BatZone) (b70 : Bool) (n : Nat) : Nat :=
  let n := if zone = .cool ∨ zone = .warm then halveCurrent n else n
  if b70 then halveCurrent n else n

/-- R158: the derated target current. -/
def deratedTarget (s : State) : Nat := derate s.scn.batZone s.scn.die.b70 (baseTarget s.chg.phase s.chg.fast)

/-! ## Phase changes (R159) -/

/-- A change of phase raises one CHARGE event; no change raises none. -/
def chargeEvent (before : Phase) (s : State) : State :=
  if s.chg.phase = before then s
  else
    raise (.charge before s.chg.phase s.chg.pause s.chg.cycle (if s.chg.phase = .fault then s.chg.latch else none)
      (inputAvg s.scn.vBat) (inputAvg s.scn.iBat) s.chg.preTicks s.chg.fastTicks s.now) s

/-- R150: the pause-reason set becomes `p`. When a reason is added in PRECHARGE, FAST_CC, FAST_CV or DONE the phase
becomes PAUSED at that moment. -/
def setPause (p : PauseSet) (s : State) : State :=
  let before := s.chg.phase
  if pauseAdds s.chg.pause p && pausable before then
    chargeEvent before { s with chg := { s.chg with pause := p, phase := .paused, iCmd := 0, term := 0 } }
  else { s with chg := { s.chg with pause := p } }

/-- SUPPLY joins or leaves the charger's set (R150, R166, R167). -/
def pauseSupply (b : Bool) (s : State) : State := setPause { s.chg.pause with supply := b } s

/-- R161, between notices: while charging, the command and the reported target are lowered to the derated target when it
has fallen below them (log 17). -/
def lowerCommand (s : State) : State :=
  if charging s.chg.phase then
    let d := deratedTarget s
    { s with chg := { s.chg with iCmd := min s.chg.iCmd (floorTo 25 d), derated := min s.chg.derated d } }
  else s

/-- A zone or a boundary side has changed: the charger's reasons and targets follow at that moment (R78, R150, R161). -/
def chargerZones (s : State) : State :=
  lowerCommand (setPause
    { batCold := s.scn.batZone == .cold
      batHot := s.scn.batZone == .hot
      die := s.scn.die.b85
      supply := s.chg.pause.supply } s)

/-! ## The round-end notice (R149 to R153, R160 to R162) -/

/-- 1,800,000 ms in ticks. -/
def prechargeLimit : Nat := 7372800

/-- 28,800,000 ms in ticks, the top of the fast timer's range. -/
def fastLimit : Nat := 117964800

/-- A number of minutes in ticks. -/
def ticksOfMin (n : Nat) : Nat := n * 245760

/-- R153: the first fault cause found, for a cycle phase. -/
def chargeFaultOf (k : Cycle) (vBat : Int) (s : State) : Option ChargeFault :=
  if k = .precharge ∧ prechargeLimit ≤ s.chg.preTicks then some .prechargeTimer
  else if (k = .fastCc ∨ k = .fastCv) ∧ ticksOfMin s.chg.fastTimer ≤ s.chg.fastTicks then some .fastTimer
  else if (effTarget s : Int) + 150 < vBat then some .overvoltage
  else none

def phaseOfCycle : Cycle → Phase
  | .precharge => .precharge
  | .fastCc => .fastCc
  | .fastCv => .fastCv
  | .done => .done

/-- The phase and the cycle phase together. -/
def setCycle (k : Cycle) (g : Chg) : Chg := { g with phase := phaseOfCycle k, cycle := some k }

/-- R151: a new cycle, its timers and termination count 0. -/
def newCycle (vBat : Int) (g : Chg) : Chg :=
  setCycle (if vBat < 3000 then .precharge else .fastCc) { g with preTicks := 0, fastTicks := 0, term := 0 }

/-- R152: the cycle moves on by this notice's averages. -/
def moveCycle (k : Cycle) (vBat iBat : Int) (target : Nat) (g : Chg) : Chg :=
  match k with
  | .precharge => setCycle (if 3000 ≤ vBat then .fastCc else .precharge) g
  | .fastCc => if (target : Int) - 20 ≤ vBat then setCycle .fastCv { g with term := 0 } else setCycle .fastCc g
  | .fastCv =>
      if iBat < (g.termination : Int) then
        if 8 ≤ g.term + 1 then setCycle .done { g with term := 8 } else setCycle .fastCv { g with term := g.term + 1 }
      else setCycle .fastCv { g with term := 0 }
  | .done => setCycle .done g

/-- R151 to R153: the phase from the cycle phase, when no condition of R149 holds. -/
def cyclePhase (s : State) : Chg :=
  let g := s.chg
  let vBat := inputAvg s.scn.vBat
  let iBat := inputAvg s.scn.iBat
  match g.cycle with
  | none => newCycle vBat g
  | some .done => if vBat < (effTarget s : Int) - 120 then newCycle vBat g else setCycle .done g
  | some k =>
      match chargeFaultOf k vBat s with
      | some cause => { g with latch := some cause, phase := .fault, cycle := none }
      | none => moveCycle k vBat iBat (effTarget s) g

/-- R149: the conditions in order, then R151. -/
def noticePhase (s : State) : Chg :=
  let g := s.chg
  if s.ips.sel = none then { g with phase := .noInput, latch := none, cycle := none }
  else if g.latch ≠ none then { g with phase := .fault }
  else if s.scn.battery = false then { g with phase := .noBattery, cycle := none }
  else if g.enable = false then { g with phase := .disabled, cycle := none }
  else if pauseEmpty g.pause = false then { g with phase := .paused }
  else cyclePhase s

/-- R160: P_in, floored. -/
def budgetIn (s : State) : Int := inputAvg s.scn.vIn * (s.ips.iEff : Int) / 1000

/-- R160: P_sys, floored. -/
def budgetSys (s : State) : Int := inputAvg s.scn.vSys * inputAvg s.scn.iSys / 1000

/-- R160: P_avail. -/
def budgetAvail (s : State) : Int := budgetIn s * 90 / 100 - budgetSys s

/-- R160: I_avail, floored; 0 without power left or without a battery voltage. -/
def budgetCurrent (s : State) : Nat :=
  if 0 < budgetAvail s ∧ 0 < inputAvg s.scn.vBat then (budgetAvail s * 1000 / inputAvg s.scn.vBat).toNat else 0

/-- R160 to R162: the budget, the charge command and SUPPLEMENT, after the phase has been set. -/
def chargerBudget (s : State) : State :=
  let d := deratedTarget s
  let a := budgetCurrent s
  { s with chg := { s.chg with
      pIn := budgetIn s
      pSys := budgetSys s
      pAvail := budgetAvail s
      iAvail := a
      derated := d
      iCmd := if charging s.chg.phase then floorTo 25 (min d a) else 0
      supplement := s.ips.sel.isSome && decide (budgetAvail s ≤ 0) } }

/-- R155: the target voltage setting is used from this notice on. -/
def useTarget (s : State) : State := { s with chg := { s.chg with targetInUse := s.chg.target } }

/-- R149 to R153: the notice's phase, the target voltage setting in use. -/
def enterPhase (s : State) : State := { s with chg := noticePhase s }

/-- The charger's work at a round-end notice. -/
def chargerNotice (s : State) : State :=
  chargeEvent s.chg.phase (chargerBudget (enterPhase (useTarget s)))

/-! ## The charge stage (R162) -/

/-- What the charge stage is set to: no current, a current in mA, or a voltage in mV held with at most a current. -/
inductive ChargeStage where
  | none
  | deliver (current : Nat)
  | hold (voltage atMost : Nat)
deriving DecidableEq, Repr

/-- R162: the stage delivers I_cmd in PRECHARGE and FAST_CC, holds the effective target voltage with at most I_cmd in
FAST_CV, and delivers nothing with I_cmd at 0. -/
def chargeStage (s : State) : ChargeStage :=
  if s.chg.iCmd = 0 then .none
  else
    match s.chg.phase with
    | .precharge => .deliver s.chg.iCmd
    | .fastCc => .deliver s.chg.iCmd
    | .fastCv => .hold (effTarget s) s.chg.iCmd
    | _ => .none

/-- R154: at a tick each safety timer advances in its phases and holds at the top of its range. -/
def chargerTick (g : Chg) : Chg :=
  { g with
    preTicks := if g.phase = .precharge then min prechargeLimit (g.preTicks + 1) else g.preTicks
    fastTicks := if g.phase = .fastCc ∨ g.phase = .fastCv then min fastLimit (g.fastTicks + 1) else g.fastTicks }

/-! ## CHARGE_SET (R155, R156) -/

/-- Enable off takes the phases of R156 to DISABLED. -/
def disables : Phase → Bool
  | .precharge => true
  | .fastCc => true
  | .fastCv => true
  | .done => true
  | .paused => true
  | .fault => true
  | .disabled => false
  | .noInput => false
  | .noBattery => false

/-- R156: enable off clears the latch, and ends the cycle in the phases it names. In the NO_INPUT a warm reset sets with
a kept cycle (R148) it therefore leaves the cycle, so that enable on again before the next notice continues it (log
52, a DESIGN CHOICE: the rule's last sentence, read for every phase, would end it). -/
def chargeDisable (s : State) : State :=
  let before := s.chg.phase
  let g := { s.chg with latch := none }
  if disables before then
    chargeEvent before { s with chg := { g with phase := .disabled, iCmd := 0, cycle := none } }
  else { s with chg := g }

/-- The four numeric settings brought into range (R155, Figure 9.4). -/
def clampCharge (target fast termination fastTimer : Half) (enable : Bool) (g : Chg) : Chg :=
  { g with
    enable := enable
    target := clampStep 4100 4350 10 target.toNat
    fast := clampStep 100 2000 25 fast.toNat
    termination := clampNat 25 500 termination.toNat
    fastTimer := clampNat 60 480 fastTimer.toNat }

def chargeChanged (g : Chg) (target fast termination fastTimer : Half) : Bool :=
  g.target != target.toNat || g.fast != fast.toNat || g.termination != termination.toNat
    || g.fastTimer != fastTimer.toNat

def chargeBytes (g : Chg) : List Byte :=
  flag8 g.enable ++ u16 g.target ++ u16 g.fast ++ u16 g.termination ++ u16 g.fastTimer ++ u8 (phaseCode g.phase)

/-- R155, R156: the settings are stored, the command follows a lowered target current, and enable off acts at once.
The target voltage in use stands until the next notice. -/
def applyCharge (enable : Bool) (target fast termination fastTimer : Half) (s : State) : State :=
  let s := lowerCommand { s with chg := clampCharge target fast termination fastTimer enable s.chg }
  if enable then s else chargeDisable s

/-- R155. -/
def chargeSetReq (tag enable : Byte) (target fast termination fastTimer : Half) (s : State) : State :=
  match onOff enable with
  | none => answer 0x30 tag .range [] s
  | some on =>
      let s := applyCharge on target fast termination fastTimer s
      answer 0x30 tag (clampStatus (chargeChanged s.chg target fast termination fastTimer)) (chargeBytes s.chg) s

/-- CHARGE_SET (R155). -/
def execChargeSet (tag enable : Byte) (target fast termination fastTimer : Half) (s : State) : Result :=
  takeReq s (chargeSetReq tag enable target fast termination fastTimer)

end Sys2Proof.Machine
end

