-- ==== Sys2Proof/Machine/SupplyOps.lean ====
section
/-! DEFINITION. The supply supervisor's changes of state (spec/10, section 10.2), handed to the actuator drive and the
charger. -/

namespace Sys2Proof.Machine

/-- 64 ms in ticks (R168). -/
def stableTicks : Nat := ticksOfMs 64

/-- R172: one SUPPLY event a change; the emergency kind carries whether a close started and its budget. -/
def supplyEvent (kind : SupplyKind) (before : Supply) (started : Bool) (budget : Nat) (s : State) : State :=
  raise (.supply kind before s.ssv.st s.scn.vSys.latest s.now started budget) s

/-- R166, R60, R150: SUPPLY joins every park-reason set and the pause reasons. -/
def addSupply (s : State) : State := pauseSupply true (addParkAll .supply s)

/-- R167, R168: SUPPLY leaves every park-reason set and the pause reasons. -/
def removeSupply (s : State) : State := pauseSupply false (removeParkAll .supply s)

/-- R167, R168: the state becomes NORMAL. -/
def toNormal (kind : SupplyKind) (s : State) : State :=
  let before := s.ssv.st
  supplyEvent kind before false 0
    (removeSupply { s with ssv := { s.ssv with st := .normal, timerEnd := none } })

/-- R166: the state becomes RIDE_THROUGH and the timer starts. -/
def startRide (s : State) : State :=
  let before := s.ssv.st
  supplyEvent .rideThrough before false 0
    (addSupply { s with ssv := { s.ssv with
      st := .rideThrough
      timerEnd := some (later s.now (ticksOfMs s.ssv.rideMs)) } })

/-- The stable time has reached 64 ms (R168). -/
def stableReached (s : State) : Bool :=
  match s.ssv.stable with
  | none => false
  | some t => decide (stableTicks ≤ t)

/-- R168: in EMERGENCY, with the stable time reached and no emergency close running, the state becomes NORMAL. -/
def checkStable (s : State) : State :=
  if s.ssv.st = .emergency ∧ stableReached s = true ∧ s.cwr.writer ≠ .emergencyClose then toNormal .normal s else s

end Sys2Proof.Machine
end

