-- ==== Sys2Proof/Machine/CardWriter.lean ====
section
/-! DEFINITION. The card writer's machinery (spec/08, spec/10 section 10.3): the writer state, the arbiter, transfers,
commits, faults, and the emergency close. -/

namespace Sys2Proof.Machine

/-! ## The writer state (R118) -/

/-- The writer enters a state; outside RECORDING and ROLLING the post-roll mark is none (R112, R118). -/
def setWriter (w : Writer) (s : State) : State :=
  { s with
    cwr := { s.cwr with writer := w }
    sdr := { s.sdr with mark := if w = .recording ∨ w = .rolling then s.sdr.mark else none } }

/-- The states in which the arbiter grants the port (R125). -/
def arbitrating : Writer → Bool
  | .ready => true
  | .recording => true
  | .rolling => true
  | .stopping => true
  | .unmounted => false
  | .mounting => false
  | .emergencyClose => false
  | .fault => false

/-- A directory exists for SLOT_READ and SLOT_LOCK (R105, R108). -/
def directoryUp : Writer → Bool
  | .unmounted => false
  | .mounting => false
  | .fault => false
  | .ready => true
  | .recording => true
  | .rolling => true
  | .stopping => true
  | .emergencyClose => true

/-! ## Transfers (R124, R126) -/

def setPort (t : Option Transfer) (s : State) : State := { s with cwr := { s.cwr with port := t } }

/-- A transfer takes the port with its first attempt. -/
def begin (op : Xfer) (addr blocks : Nat) (bytes : List Byte) (s : State) : State :=
  setPort (some ⟨op, addr, blocks, bytes, 1, s.now⟩) s

/-- The region, where the writer has one. -/
def withGeo (f : Geometry → State → State) (s : State) : State :=
  match s.sdr.geo with
  | none => s
  | some g => f g s

/-- A header write of slot `i` (R95). -/
def beginHeader (op : Xfer) (i : Nat) (bytes : Geometry → Entry → List Byte) (s : State) : State :=
  withGeo (fun g s =>
    match entryAt s i with
    | none => s
    | some e => begin op (headerBlock g i) 1 (bytes g e) s) s

/-- A write of the offered unit `o` (R122). -/
def beginUnit (op : Xfer) (o : Offer) (s : State) : State :=
  withGeo (fun g s => begin op (unitBlock g o.slot o.number) 128 (unitData o.real s.cbf) s) s

/-- A write of the offered block `o` (R122). -/
def beginBlock (op : Xfer) (o : Offer) (s : State) : State :=
  withGeo (fun g s => begin op (motionBlock g o.slot o.number) 1 (blockData o.real s.cbf) s) s

/-- A MOTION_READ's read of `number` records from record `k` of slot `i`: one block or two (R139). -/
def beginHostRead (i k number : Nat) (s : State) : State :=
  withGeo (fun g s => begin (.hostRead true) (motionBlock g i (k / 32)) ((k + number - 1) / 32 - k / 32 + 1) [] s) s

/-! ## What is offered (R86, R92, R125) -/

/-- Which of the unit and the block was offered first, brought up to date; of two offered at the same moment the unit
counts as first. -/
def refreshOffers (s : State) : State :=
  let u := (offeredUnit s).isSome
  let b := (offeredBlock s).isSome
  { s with cwr := { s.cwr with
      offUnit := u
      offBlock := b
      blockFirst := u && b && s.cwr.offBlock && (!s.cwr.offUnit || s.cwr.blockFirst) } }

/-- The unit's write has completed: what the ring offers next is offered anew (R87). -/
def unitTaken (s : State) : State := { s with cwr := { s.cwr with offUnit := false } }

/-- The block's write has completed. -/
def blockTaken (s : State) : State := { s with cwr := { s.cwr with offBlock := false } }

/-! ## The arbiter (R121, R124, R125, R128) -/

/-- The slot whose CLOSED header is ready: its opening header is on card and nothing of it waits. -/
def readyClosing (s : State) : Option Nat :=
  match closingSlot s with
  | none => none
  | some i =>
      if headerWritten s i && bytesOf i s.cbf.segs == 0 && pendingOf i s.cbf.pend == 0 then some i else none

/-- The slot whose opening header is ready: it is due and no other slot is CLOSING. -/
def readyOpening (s : State) : Option Nat :=
  match closingSlot s with
  | some i => if headerWritten s i then none else some i
  | none =>
      match openSlot s with
      | some i => if headerWritten s i then none else some i
      | none => none

/-- The offered unit, where its slot's opening header is on card. -/
def readyUnit (s : State) : Option Offer := (offeredUnit s).filter fun o => headerWritten s o.slot

/-- The offered block, where its slot's opening header is on card. -/
def readyBlock (s : State) : Option Offer := (offeredBlock s).filter fun o => headerWritten s o.slot

/-- The stream run count after a grant to a unit or block. -/
def countRun (s : State) : State := { s with cwr := { s.cwr with run := min 4 (s.cwr.run + 1) } }

def clearRun (s : State) : State := { s with cwr := { s.cwr with run := 0 } }

def grantUnit (o : Offer) (s : State) : State := countRun (beginUnit (.streamUnit o.slot o.real) o s)

def grantBlock (o : Offer) (s : State) : State := countRun (beginBlock (.motionBlock o.slot o.real) o s)

/-- A held MOTION_READ takes the port (R139). -/
def grantRead (s : State) : State :=
  match s.lnk.req with
  | some (.motionRead _ i k n _) => clearRun (beginHostRead i k n s)
  | _ => s

/-- A MOTION_READ is held waiting for its read. -/
def readWaits (s : State) : Bool :=
  match s.lnk.req with
  | some (.motionRead ..) => true
  | _ => false

/-- R125, 4: the unit or the block, the one offered first. -/
def grantData (s : State) : State :=
  match readyUnit s, readyBlock s with
  | some u, some b => if s.cwr.blockFirst then grantBlock b s else grantUnit u s
  | some u, none => grantUnit u s
  | none, some b => grantBlock b s
  | none, none => if readWaits s then grantRead s else s

/-- R125, 2: the CLOSED header with the reason the slot is closed with. -/
def grantClosed (i : Nat) (s : State) : State :=
  let reason := s.cwr.closeReason.getD .full
  beginHeader (.closedHeader i reason) i (fun g e => closedHeader g.regionId (reasonCode reason) e) s

def grantOpening (i : Nat) (s : State) : State := beginHeader (.openingHeader i) i (fun g e => openHeader g.regionId e) s

/-- R114, R125, 1: a header update. -/
def grantUpdate (op : Xfer) (i : Nat) (s : State) : State :=
  beginHeader op i updateHeader (dequeue i (s.sdr.queue.drop 1) s)

/-- R125: the port is granted to the first ready requester. -/
def grantPort (s : State) : State :=
  let s := skipQueue s.sdr.queue s
  match s.sdr.queue with
  | i :: _ => grantUpdate (.headerUpdate i) i s
  | [] =>
      match readyClosing s with
      | some i => grantClosed i s
      | none =>
          match readyOpening s with
          | some i => grantOpening i s
          | none => if s.cwr.run == 4 && readWaits s then grantRead s else grantData s

/-! ## Endings: stop, fault, unmount (R116, R131, R132, R135) -/

/-- RECORD(stopped) is raised and no recording is in progress. -/
def endRecording (reason : CloseReason) (budget spent : Nat) (s : State) : State :=
  match s.cwr.recId with
  | none => s
  | some r =>
      raise (.recordStopped r reason s.now s.cwr.lastSlot budget spent)
        { s with cwr := { s.cwr with recId := none, lastSlot := none } }

/-- The part's card state is given up: buffer, directory, cursor, port, stop mark and any emergency close. The arbiter's
stream run count stands, which R125 sets at resets only (DESIGN CHOICE, log 45). The whole clip buffer goes as R89 says
at a FAULT and at a removal; that it goes at the end of an UNMOUNT and of a mount that fails, which R89 does not list,
its assigned total and admitted counts with it, is the model's (DESIGN CHOICE, log 55). -/
def giveUpCard (w : Writer) (s : State) : State :=
  let s := setWriter w (discardDirectory (discardBuffer s))
  { s with
    cwr := { s.cwr with port := none, stopMark := none, closeReason := none }
    ssv := { s.ssv with close := none } }

/-- R135: a write has failed after its retries. RECORD(stopped) carries budget 0 and 0 units spent, in an emergency close
too (DESIGN CHOICE, log 46). -/
def writerFault (slot addr : Nat) (kind : WriteKind) (s : State) : State :=
  let s := giveUpCard .fault (endUnmount .state (endMotionRead .state s))
  checkStable (endRecording .cardFault 0 0 (raise (.cardFault .write (some (slot, addr, kind))) s))

/-- R131: whether a stop asked for now is taken, at once or by its mark. -/
def stopTaken (w : Writer) : Bool := w == .recording || w == .rolling

/-- R131: a stop is asked for. -/
def askStop (reason : CloseReason) (s : State) : State :=
  match s.cwr.writer with
  | .recording =>
      match openSlot s with
      | none => s
      | some i =>
          let s := setWriter .stopping (setSlotState .closing i s)
          { s with cwr := { s.cwr with closeReason := some reason } }
  | .rolling =>
      { s with cwr := { s.cwr with stopMark := some (s.cwr.stopMark.getD reason) } }
  | _ => s

/-- A header write holds the port: an UNMOUNT waits for it (log 18). -/
def headerUnderWay (s : State) : Bool :=
  match s.cwr.port with
  | none => false
  | some t =>
      match t.op with
      | .hostRead _ => false
      | _ => true

/-- R116: a held UNMOUNT ends once the queue is empty. That the clip buffer's assigned total and admitted counts go with
it is the model's (DESIGN CHOICE, log 55). -/
def finishUnmount (s : State) : State :=
  match s.lnk.req with
  | some (.unmount _) =>
      if s.cwr.writer == .ready && s.sdr.queue.isEmpty && !headerUnderWay s then
        raise .cardUnmounted (endUnmount .ok (giveUpCard .unmounted s))
      else s
  | _ => s

/-! ## The commit (R93, R104, R128) -/

/-- The slot's CLOSED header is on card: records left are dropped, the entry becomes CLOSED with its reason, and
SLOT(closed) is raised. -/
def commitSlot (i : Nat) (reason : CloseReason) (spent : Nat) (unsaved : List Nat) (s : State) : State :=
  let s := modEntry i (fun e => { e with st := .closed, reason := some reason }) (loseRecords i s)
  match entryAt s i with
  | none => s
  | some e =>
      raise (.slotClosed i reason (e.sequence.getD 0) e.streamBytes e.lostBytes e.motionRecords e.motionDropped spent
        unsaved) s

/-! ## The emergency close (R173 to R181) -/

/-- The close's record changes. -/
def modClose (f : EmergencyClose → EmergencyClose) (s : State) : State :=
  { s with ssv := { s.ssv with close := s.ssv.close.map f } }

/-- R174: 2 units for each CLOSED header still to be written. -/
def reserveOf (c : EmergencyClose) : Nat := 2 * c.todo.length

/-- The units spent. -/
def spentOf (c : EmergencyClose) : Nat := c.budget - c.left

/-- Units are charged as a write is begun. -/
def charge (n : Nat) (s : State) : State := modClose (fun c => { c with left := c.left - n }) s

def setPart (p : ClosePart) (s : State) : State := modClose (fun c => { c with part := p }) s

/-- R181: the close ends in READY. -/
def closeEnd (s : State) : State :=
  match s.ssv.close with
  | none => s
  | some c =>
      let s := setWriter .ready s
      let s := { s with
        cwr := { s.cwr with closeReason := none }
        ssv := { s.ssv with close := none } }
      checkStable (endRecording .emergency c.budget (spentOf c) s)

/-- R178: the CLOSED header of slot `k`, paid from the reserve. -/
def closeHeader (k : Nat) (s : State) : State :=
  charge 2 (beginHeader (.emClosed k) k (fun g e => closedHeader g.regionId (reasonCode .emergency) e)
    (setPart .header s))

/-- R177: the next motion block of slot `k`, or the end of the motion part. -/
def closeMotion (c : EmergencyClose) (k : Nat) (s : State) : State :=
  match readyBlock s with
  | some o =>
      if o.slot = k ∧ c.failed = false ∧ reserveOf c + 1 ≤ c.left then
        charge 1 (beginBlock (.emBlock k o.real) o (setPart .motion s))
      else closeHeader k (loseRecords k s)
  | none => closeHeader k (loseRecords k s)

/-- R176: the next unit of slot `k`, or the end of the stream part. -/
def closeStream (c : EmergencyClose) (k : Nat) (s : State) : State :=
  match readyUnit s with
  | some o =>
      if o.slot = k ∧ c.failed = false ∧ reserveOf c + 7 ≤ c.left then
        charge 6 (beginUnit (.emUnit k o.real) o (setPart .stream s))
      else closeMotion c k (loseSegment k s)
  | none => closeMotion c k (loseSegment k s)

/-- The slot to close next, or the end of the close. -/
def closeSlots (c : EmergencyClose) (s : State) : State :=
  match c.todo with
  | [] => closeEnd s
  | k :: _ => closeStream c k s

/-- R175: the next header update, or the end of the first part. -/
def closeUpdates (c : EmergencyClose) (s : State) : State :=
  if c.failed then closeSlots c s
  else
    let s := skipQueue s.sdr.queue s
    match s.sdr.queue with
    | [] => closeSlots c s
    | i :: _ =>
        if reserveOf c + 2 ≤ c.left then charge 2 (grantUpdate (.emUpdate i) i (setPart .updates s))
        else closeSlots c s

/-- The close begins its next write: its part says where it stands. -/
def closeAdvance (s : State) : State :=
  match s.ssv.close with
  | none => s
  | some c =>
      match c.part, c.todo with
      | .inherited, _ => closeUpdates c s
      | .updates, _ => closeUpdates c s
      | .motion, k :: _ => closeMotion c k s
      | _, _ => closeSlots c s

/-- The slots to close and their order (R173; log 21). -/
def closeList (s : State) : List Nat :=
  match closingSlot s, openSlot s with
  | some i, some j => [i, j]
  | some i, none => [i]
  | none, some j => [j]
  | none, none => []

/-- R173: the OPEN slot becomes CLOSING when no other slot is to be closed before it. -/
def closeFirst (s : State) : State :=
  match closingSlot s, openSlot s with
  | none, some j => setSlotState .closing j s
  | _, _ => s

/-- The states from which an emergency close starts (R169). -/
def closable (w : Writer) : Bool := w == .recording || w == .rolling || w == .stopping

/-- R134, R140, R173: the writer enters EMERGENCY_CLOSE with its budget; a transfer under way is inherited. -/
def startClose (s : State) : State :=
  let s := endMotionRead .state s
  let todo := closeList s
  let s := setWriter .emergencyClose (closeFirst s)
  let s := { s with
    cwr := { s.cwr with stopMark := none, closeReason := some .emergency }
    ssv := { s.ssv with close := some ⟨s.ssv.budget, s.ssv.budget, .inherited, todo, false⟩ } }
  s

/-- A failure ends every part of the close but the CLOSED headers (R179). -/
def closeFailed (s : State) : State := modClose (fun c => { c with failed := true }) s

/-- R173, R178: slot `i` is committed; the next slot, if any, becomes CLOSING. -/
def closeNext (i : Nat) (s : State) : State :=
  match s.ssv.close with
  | none => s
  | some c =>
      let rest := c.todo.filter fun j => j != i
      let s := modClose (fun c => { c with todo := rest }) s
      match rest with
      | [] => s
      | k :: _ => setSlotState .closing k s

/-! ## Settling the port -/

/-- After a change the port, if it is free, goes to the next requester: the emergency close, or the arbiter; and a held
UNMOUNT ends when it can. -/
def settle (s : State) : State :=
  let s := refreshOffers s
  let s := if s.cwr.port.isNone && s.cwr.writer == .emergencyClose then closeAdvance s else s
  let s := if s.cwr.port.isNone && arbitrating s.cwr.writer then grantPort s else s
  finishUnmount s

end Sys2Proof.Machine
end

