-- ==== Sys2Proof/Machine/Contexts.lean ====
section
/-! DEFINITION. The context table (spec/03): validation, commit, path loading, and the four CTX requests. -/

namespace Sys2Proof.Machine

/-! ## Validation (R45) -/

/-- A field with its code, its value widened to a number, and its valid range (Figure 3.1). -/
structure FieldCheck where
  code : Nat
  value : Nat
  lo : Nat
  hi : Nat
deriving DecidableEq, Repr

/-- The fields in ascending order of code (Figures 3.1 and 12.7). -/
def fieldChecks (f : CtxFields) : List FieldCheck :=
  [⟨1, f.mode.toNat, 1, 2⟩,
   ⟨2, f.shift.yaw.toNat, 3, 14⟩, ⟨3, f.shift.pitch.toNat, 3, 14⟩, ⟨4, f.shift.roll.toNat, 3, 14⟩,
   ⟨5, f.limit.yaw.toNat, 1, 1310720⟩, ⟨6, f.limit.pitch.toNat, 1, 1310720⟩, ⟨7, f.limit.roll.toNat, 1, 1310720⟩,
   ⟨8, f.gain.yaw.toNat, 0, 65535⟩, ⟨9, f.gain.pitch.toNat, 0, 65535⟩, ⟨10, f.gain.roll.toNat, 0, 65535⟩,
   ⟨11, f.travel.yaw.toNat, 0, 1024⟩, ⟨12, f.travel.pitch.toNat, 0, 1024⟩, ⟨13, f.travel.roll.toNat, 0, 1024⟩,
   ⟨14, f.lookahead.toNat, 0, 15⟩,
   ⟨15, f.pxX.toNat, 0, 65535⟩, ⟨16, f.pxY.toNat, 0, 65535⟩,
   ⟨17, f.marginX.toNat, 0, 1024⟩, ⟨18, f.marginY.toNat, 0, 1024⟩,
   ⟨19, f.rollMargin.toNat, 0, 1280⟩,
   ⟨20, f.readout.toNat, 0, 255⟩]

/-- The value lies outside its range. -/
def fieldBad (c : FieldCheck) : Bool := decide (c.value < c.lo) || decide (c.hi < c.value)

/-- R45: the first field outside its range. -/
def firstBad (f : CtxFields) : Option FieldCheck := (fieldChecks f).find? fieldBad

/-! ## Commit (R46 to R48) -/

/-- R46: the outgoing context takes the path, the new one its link, and the active index changes. -/
def commitPoint (i : CtxIx) (ret : Bool) (path : PerAxis Int) (c : Ctx) : Ctx :=
  let c1 :=
    match c.active with
    | none => c
    | some o => ctxSet c o { ctxGet c o with saved := some path }
  let c2 := ctxSet c1 i { ctxGet c1 i with link := c.active }
  let c3 :=
    match c.active with
    | none => c2
    | some o => if ret then ctxSet c2 o { ctxGet c2 o with link := none } else c2
  { c3 with active := some i, pendingSwitch := none }

/-- R47: a saved path taken to the turn nearest `a`. -/
def nearestTurn (a saved : Int) : Int :=
  if 11796480 < a - saved then saved + 23592960
  else if a - saved < -11796480 then saved - 23592960
  else saved

/-- R12, R47: a path clamped to within `limit` of `a`. -/
def clampPath (limit : Nat) (a p : Int) : Int :=
  if (limit : Int) < a - p then a - limit else if a - p < -(limit : Int) then a + limit else p

/-- R12, R47: the clamp changes the path. -/
def pathClamped (limit : Nat) (a p : Int) : Bool :=
  decide ((limit : Int) < a - p) || decide (a - p < -(limit : Int))

/-- R47: the path before the re-clamp: A where nothing is saved, else the saved path at the turn nearest A. -/
def loadedPath (saved : Option (PerAxis Int)) (a : PerAxis Int) : PerAxis Int :=
  match saved with
  | none => a
  | some p => axisMap2 nearestTurn a p

/-- The clamp conditions of three axes. -/
def clampsOf (limit : PerAxis Word) (a p : PerAxis Int) : PerAxis Bool :=
  ⟨pathClamped limit.yaw.toNat a.yaw p.yaw, pathClamped limit.pitch.toNat a.pitch p.pitch,
    pathClamped limit.roll.toNat a.roll p.roll⟩

/-- The clamped path of three axes. -/
def clampPaths (limit : PerAxis Word) (a p : PerAxis Int) : PerAxis Int :=
  ⟨clampPath limit.yaw.toNat a.yaw p.yaw, clampPath limit.pitch.toNat a.pitch p.pitch,
    clampPath limit.roll.toNat a.roll p.roll⟩

/-- R48: STANDBY becomes RUNNING when no sensor fault is present. -/
def runIfHealthy (s : State) : State :=
  if s.msu.stab = .standby ∧ s.msu.fault = false then { s with msu := { s.msu with stab := .running } } else s

/-- The commit of a switch to context `i` (R46 to R48). -/
def commit (i : CtxIx) (ret : Bool) (s : State) : State :=
  let out := s.ctx.active
  let x := ctxGet s.ctx i
  let p := loadedPath x.saved s.msu.angle
  let s := { s with
    ctx := commitPoint i ret s.msu.path s.ctx
    msu := { s.msu with path := clampPaths x.fields.limit s.msu.angle p } }
  let s := recommitSteps x.fields s
  let s := carry { Carried.empty with pathClamp := clampsOf x.fields.limit s.msu.angle p, ctxSwitch := true } s
  runIfHealthy (raise (.switched i out ret s.csu.frame s.now) s)

/-- R45: a switch is validated and, if valid, committed; in either case none is pending after it. -/
def attemptSwitch (i : CtxIx) (ret : Bool) (s : State) : State :=
  match firstBad (ctxGet s.ctx i).fields with
  | some c => raise (.ctxFault i c.code c.value) { s with ctx := { s.ctx with pendingSwitch := none } }
  | none => commit i ret s

/-- R44: a pending switch ends. -/
def commitPending (s : State) : State :=
  match s.ctx.pendingSwitch with
  | none => s
  | some w => attemptSwitch w.index w.ret s

/-! ## Requests (R40 to R43) -/

/-- The context is active or pending. -/
def ctxBusy (i : CtxIx) (c : Ctx) : Bool :=
  c.active == some i || (c.pendingSwitch.map fun w => w.index) == some i

/-- R40. -/
def ctxWriteReq (tag index : Byte) (fields : CtxFields) (s : State) : State :=
  match ctxOf index with
  | none => answer 0x13 tag .range [] s
  | some i =>
      if ctxBusy i s.ctx then answer 0x13 tag .busy [] s
      else
        answer 0x13 tag .ok []
          { s with ctx := ctxSet s.ctx i { ctxGet s.ctx i with fields := fields, saved := none } }

/-- 0 neither, 1 active, 2 pending (Figure 12.3). -/
def ctxRole (i : CtxIx) (c : Ctx) : Nat :=
  if c.active = some i then 1 else if (c.pendingSwitch.map fun w => w.index) = some i then 2 else 0

/-- The saved mask and the saved path, 0 when UNSET (Figure 12.3). -/
def savedBytes : Option (PerAxis Int) → List Byte
  | none => u8 0 ++ s32 0 ++ s32 0 ++ s32 0
  | some p => u8 7 ++ s32 p.yaw ++ s32 p.pitch ++ s32 p.roll

/-- R41. -/
def ctxReadReq (tag index : Byte) (s : State) : State :=
  match ctxOf index with
  | none => answer 0x14 tag .range [] s
  | some i =>
      let x := ctxGet s.ctx i
      answer 0x14 tag .ok
        (u8 (ctxCode i) ++ u8 (ctxRole i s.ctx) ++ ctxFieldsBytes x.fields ++ savedBytes x.saved
          ++ u8 (optCtxCode x.link)) s

/-- The reply data of a switch made at once: the outcome, the failing field's code and its value (Figure 12.3). -/
def switchBytes (f : CtxFields) : List Byte :=
  match firstBad f with
  | none => u8 1 ++ u8 0 ++ u32 0
  | some c => u8 2 ++ u8 c.code ++ u32 c.value

/-- R42: the cases of a CTX_SELECT of `i`, for request kind `kind`. -/
def selectCtx (kind tag : Byte) (i : CtxIx) (ret : Bool) (s : State) : State :=
  if s.ctx.active = some i then answer kind tag .same [] s
  else if s.ctx.pendingSwitch.isSome then answer kind tag .busy [] s
  else if s.msu.stab = .running then
    answer kind tag .accepted [] { s with ctx := { s.ctx with pendingSwitch := some ⟨i, ret⟩ } }
  else answer kind tag .ok (switchBytes (ctxGet s.ctx i).fields) (attemptSwitch i ret s)

/-- R42. -/
def ctxSelectReq (tag index : Byte) (s : State) : State :=
  match ctxOf index with
  | none => answer 0x15 tag .range [] s
  | some i => selectCtx 0x15 tag i false s

/-- R43. -/
def ctxReturnReq (tag : Byte) (s : State) : State :=
  match s.ctx.active with
  | none => answer 0x16 tag .noLink [] s
  | some o =>
      match (ctxGet s.ctx o).link with
      | none => answer 0x16 tag .noLink [] s
      | some i => if s.ctx.pendingSwitch.isSome then answer 0x16 tag .busy [] s else selectCtx 0x16 tag i true s

/-! ## Meanings -/

/-- CTX_WRITE (R40). -/
def execCtxWrite (tag index : Byte) (fields : CtxFields) (s : State) : Result :=
  takeReq s (ctxWriteReq tag index fields)

/-- CTX_READ (R41). -/
def execCtxRead (tag index : Byte) (s : State) : Result := takeReq s (ctxReadReq tag index)

/-- CTX_SELECT (R42). -/
def execCtxSelect (tag index : Byte) (s : State) : Result := takeReq s (ctxSelectReq tag index)

/-- CTX_RETURN (R43). -/
def execCtxReturn (tag : Byte) (s : State) : Result := takeReq s (ctxReturnReq tag)

end Sys2Proof.Machine
end

