-- ==== Sys2Proof/Machine/Frames.lean ====
section
/-! DEFINITION. Frame counting, the crop sample, frame records and FRAME_GET (spec/02, sections 2.2 to 2.4). -/

namespace Sys2Proof.Machine

/-- A held FRAME_GET for frame record `r` is answered with it (R38). -/
def serveFrame (r : FrameRecord) (s : State) : State :=
  match s.lnk.req with
  | some (.frameGet tag n taken) => if n = r.frame then endHold (.frameGet tag n taken) .ok (recordBytes r) s else s
  | _ => s

/-- R32, R33, R35, R36: a record joins the ring and empties the carried conditions; it is handed to the clip buffer,
and answers a FRAME_GET held for it. -/
def produce (r : FrameRecord) (s : State) : State :=
  let s := { s with csu := { s.csu with ring := pushRing s.csu.ring r, carried := Carried.empty, sample := none } }
  settle (serveFrame r (intake r s))

/-- R28: the sample of frame `n` is taken now. -/
def takeSample (n : Word) (s : State) : State := produce (recordOf n s) s

/-- R30: a sample still pending at an edge is taken there. -/
def forceSample (s : State) : State :=
  match s.csu.sample with
  | none => s
  | some p => takeSample p.frame s

/-- The readout offset of the active context, 0 with none (R27). -/
def readoutOffset (s : State) : Nat :=
  match activeFields s with
  | none => 0
  | some f => f.readout.toNat

/-- R27: the frame is counted, and its sample scheduled or, with an offset of 0, taken. -/
def countFrame (s : State) : State :=
  let s := { s with csu := { s.csu with frame := s.csu.frame + 1 } }
  if s.msu.stab = .off then s
  else if readoutOffset s = 0 then takeSample s.csu.frame s
  else { s with csu := { s.csu with sample := some ⟨s.csu.frame, later s.now (readoutOffset s)⟩ } }

/-- R50: the work of a rising edge on FSYNC, in its order. -/
def fsyncStep (s : State) : State := countFrame (commitPending (forceSample s))

/-- R28: the scheduled part time has been reached. -/
def cropStep (s : State) : State :=
  match s.csu.sample with
  | none => s
  | some p => if reached s.now p.due then takeSample p.frame s else s

/-! ## FRAME_GET (R37, R38) -/

/-- The record of frame `n` in the ring. -/
def ringRecord (n : Word) (s : State) : Option FrameRecord := s.csu.ring.find? fun r => r.frame == n

/-- R37: the cases in their order. -/
def frameGetReq (tag : Byte) (n : Word) (s : State) : State :=
  if s.msu.stab = .off then answer 0x17 tag .state [] s
  else
    match ringRecord n s with
    | some r => answer 0x17 tag .ok (recordBytes r) s
    | none =>
        let d := (n - s.csu.frame).toInt
        if d = 0 ∧ s.csu.sample.isSome = true then hold (.frameGet tag n s.now) s
        else if d = 1 then hold (.frameGet tag n s.now) s
        else if 2 ≤ d then answer 0x17 tag .range [] s
        else answer 0x17 tag .gone [] s

/-- R38: 100 ms have passed since the request was taken. -/
def frameTimeout (s : State) : State :=
  match s.lnk.req with
  | some (.frameGet _ _ taken) => if ticksOfMs 100 ≤ since s.now taken then endFrameGet .notReady s else s
  | _ => s

/-! ## Meanings -/

/-- A rising edge on FSYNC (R27, R30, R50). -/
def execFsyncEdge (s : State) : Result := whenUp s fsyncStep

/-- The scheduled sample time is reached (R28). -/
def execCropSample (s : State) : Result := whenUp s cropStep

/-- FRAME_GET (R37). -/
def execFrameGet (tag : Byte) (n : Word) (s : State) : Result := takeReq s (frameGetReq tag n)

/-- The 100 ms of a held FRAME_GET run out (R38). -/
def execFrameGetTimeout (s : State) : Result := whenUp s frameTimeout

end Sys2Proof.Machine
end

