-- ==== Sys2Proof/Machine/Motion.lean ====
section
/-! DEFINITION. The motion sampling unit (spec/01): the tick and its work, sensor fault and recovery, bias learning,
impact qualification, and the unit's requests. -/

namespace Sys2Proof.Machine

/-! ## The sample of a tick (R1 to R3) -/

/-- R3: the gyro value stands at an end of its range. -/
def saturated (x : Half) : Bool := x == 0x7FFF#16 || x == 0x8000#16

/-- R3: one or more gyro axes are saturated. -/
def gyroSaturated (x : Sample) : Bool := saturated x.gyro.yaw || saturated x.gyro.pitch || saturated x.gyro.roll

/-- R1: the sample of the tick that ends now; none is a missing sample. -/
def tickSample (m : Msu) : Option Sample :=
  match m.read with
  | .good x => some x
  | _ => none

/-- R2: the raw sample of the tick: the one read, or the last good values. -/
def rawSample (m : Msu) : Sample := (tickSample m).getD m.last

/-- R6, R9: the rates of the tick, by the bias of the tick. -/
def ratesOf (m : Msu) : PerAxis Int :=
  axisMap2 (fun (g : Half) (b : Int) => g.toInt - b) (rawSample m).gyro m.tickBias

/-- R4: this tick's missing sample begins a sensor fault. Inside a lasting fault a counter that a good sample has zeroed
and that reaches 16 anew begins no second one (DESIGN CHOICE, log 41: R4's last sentences against the Note after R5). -/
def lostNow (m : Msu) : Bool := !m.fault && (tickSample m).isNone && decide (16 ≤ m.missing + 1)

/-- R5: this tick's good sample ends the sensor fault. -/
def restoredNow (m : Msu) : Bool := m.fault && (tickSample m).isSome && decide (64 ≤ m.goodRun + 1)

/-- R2, R4, R5: the counters, the last good values and the fault after the tick's sample. -/
def countSample (m : Msu) : Msu :=
  match tickSample m with
  | some x =>
      { m with
        last := x
        missing := 0
        goodRun := if m.fault then if 64 ≤ m.goodRun + 1 then 0 else m.goodRun + 1 else 0
        fault := if restoredNow m then false else m.fault }
  | none => { m with missing := min 16 (m.missing + 1), goodRun := 0, fault := m.fault || lostNow m }

/-! ## Angles and paths (R9 to R13) -/

/-- Half a turn, in au. -/
def halfTurn : Int := 11796480

/-- A turn, in au. -/
def fullTurn : Int := 23592960

/-- R10: what the wrap adds to both A and P. -/
def wrapBy (a : Int) : Int := if halfTurn < a then -fullTurn else if a < -halfTurn then fullTurn else 0

/-- R9, R10: A and P of an axis after integration and wrap. -/
def integrate (a p r : Int) : Int × Int := (a + r + wrapBy (a + r), p + wrapBy (a + r))

/-- R11: the filtered path. -/
def filterPath (shift : Nat) (a p : Int) : Int := p + roundDiv (a - p) (2 ^ shift)

/-- R9, R10 on the three axes. -/
def integrateAll (r : PerAxis Int) (m : Msu) : Msu :=
  let y := integrate m.angle.yaw m.path.yaw r.yaw
  let p := integrate m.angle.pitch m.path.pitch r.pitch
  let z := integrate m.angle.roll m.path.roll r.roll
  { m with angle := ⟨y.1, p.1, z.1⟩, path := ⟨y.2, p.2, z.2⟩ }

/-- R11 on the three axes. -/
def filterPaths (shift : PerAxis Byte) (a p : PerAxis Int) : PerAxis Int :=
  ⟨filterPath shift.yaw.toNat a.yaw p.yaw, filterPath shift.pitch.toNat a.pitch p.pitch,
    filterPath shift.roll.toNat a.roll p.roll⟩

/-- R11 to R13 and R5: the path of the tick, with the axes its clamp changed. -/
def pathStep (f : Option CtxFields) (restored : Bool) (m : Msu) : Msu × PerAxis Bool :=
  match f with
  | none => ({ m with path := m.angle }, allAxes false)
  | some f =>
      if restored then ({ m with path := m.angle }, allAxes false)
      else
        let p := filterPaths f.shift m.angle m.path
        ({ m with path := clampPaths f.limit m.angle p }, clampsOf f.limit m.angle p)

/-- R14: the offset handed to the CSU. -/
def offsetOf (m : Msu) : PerAxis Int := axisMap2 (· - ·) m.angle m.path

/-! ## Bias learning (R7, R8) -/

/-- The stillness window is emptied. -/
def emptyWindow (m : Msu) : Msu := { m with winCount := 0, winSum := allAxes 0 }

/-- R7: an axis is still. -/
def stillAxis (threshold : Nat) (raw : Half) (bias : Int) : Bool := decide ((raw.toInt - bias).natAbs ≤ threshold)

/-- R7: a sample is still, by the bias of its tick. -/
def stillSample (x : Sample) (m : Msu) : Bool :=
  stillAxis m.still x.gyro.yaw m.tickBias.yaw && stillAxis m.still x.gyro.pitch m.tickBias.pitch
    && stillAxis m.still x.gyro.roll m.tickBias.roll

/-- R8: the bias a completed window gives an axis. -/
def learnedBias (sum : Int) : Int := clampInt (-512) 511 (roundDiv sum 4096)

/-- R7: a still sample joins the window. -/
def addStill (x : Sample) (m : Msu) : Msu :=
  { m with
    winCount := m.winCount + 1
    winSum := axisMap2 (fun (z : Int) (g : Half) => z + g.toInt) m.winSum x.gyro }

/-- R7: the window after the tick, of a unit `m` as it stood at the tick's start; a completed window still stands in it
(log 13). -/
def windowStep (m : Msu) : Msu :=
  if m.learn = true ∧ m.fault = false then
    match tickSample m with
    | some x => if stillSample x m then addStill x m else emptyWindow m
    | none => emptyWindow m
  else m

/-- R8: the window is complete. -/
def windowFull (m : Msu) : Bool := decide (4096 ≤ m.winCount)

/-- R8: the learned bias, event and empty window. -/
def learnBias (s : State) : State :=
  if windowFull s.msu then
    let b := axisMap learnedBias s.msu.winSum
    raise (.biasLearned b) { s with msu := emptyWindow { s.msu with bias := b } }
  else s

/-! ## Impact qualification (R18 to R20) -/

/-- R18: the sum of squares of the three accelerations. -/
def sumSquares (x : Sample) : Nat :=
  x.accX.toInt.natAbs ^ 2 + x.accY.toInt.natAbs ^ 2 + x.accZ.toInt.natAbs ^ 2

/-- R18: the sample is above threshold. -/
def aboveThreshold (thr : Nat) (x : Sample) : Bool := decide ((thr * 128) ^ 2 < sumSquares x) || gyroSaturated x

/-- R18: count and peak after the tick's sample, before an impact is taken from them. -/
def countImpact (m : Msu) : Msu :=
  match tickSample m, m.rearmEnd with
  | some x, none =>
      if aboveThreshold m.tickImp.thr x then { m with qCount := m.qCount + 1, qPeak := max m.qPeak (sumSquares x) }
      else { m with qCount := 0, qPeak := 0 }
  | _, _ => m

/-- R18: the tick's sample, counted, qualifies an impact. -/
def impactNow (m : Msu) : Bool :=
  (tickSample m).isSome && m.rearmEnd.isNone && decide (0 < (countImpact m).qCount)
    && decide (m.tickImp.count ≤ (countImpact m).qCount)

/-- R20: the impact park starts or restarts. -/
def startPark (s : State) : State :=
  if s.msu.tickImp.park = 0 then s
  else
    addParkAll .impact
      { s with msu := { s.msu with parkEnd := some (later s.now (ticksOfMs s.msu.tickImp.park)) } }

/-- The writer states in which an impact makes a lock request (R19). -/
def locksImpacts (w : Writer) : Bool := w == .recording || w == .rolling || w == .emergencyClose

/-- R19: the lock request, if one is made. -/
def requestLocks (s : State) : State × List Nat :=
  if locksImpacts s.cwr.writer then lockRequest s.now s.msu.tickImp.pre s.msu.tickImp.post s else (s, [])

/-- R18: the re-arm hold begins, count and peak 0. -/
def holdRearm (m : Msu) (now : Word) : Msu :=
  { m with qCount := 0, qPeak := 0, rearmEnd := some (later now (ticksOfMs m.tickImp.rearm)) }

/-- R19: an impact is handed to the link, the frame records, the actuator drive and the slot directory. -/
def impact (s : State) : State :=
  let peak := s.msu.qPeak
  let s := startPark { s with msu := holdRearm s.msu s.now }
  let r := requestLocks s
  let s := carry { Carried.empty with impact := true } (raise (.impact s.now peak r.2) r.1)
  settle s

/-! ## Sensor fault and recovery (R4, R5) -/

/-- R22, R44: the stabilization state leaves RUNNING for STANDBY; a pending switch is committed there. -/
def leaveRunning (s : State) : State :=
  if s.msu.stab = .running then
    commitPending (zeroSteps { s with msu := { s.msu with stab := .standby } })
  else s

/-- R4: a sensor fault begins. -/
def sensorLost (s : State) : State :=
  leaveRunning (raise (.sensorLost s.now) { s with msu := emptyWindow s.msu })

/-- R5: the sensor fault ends. -/
def sensorRestored (s : State) : State :=
  let s := raise (.sensorRestored s.now) s
  if s.ctx.active.isSome then runIfHealthy s else s

/-! ## The tick (R1, R14, R21) -/

/-- The conditions of the tick that depend on its sample alone (R2, R3). -/
def sampleConditions (m : Msu) : Carried :=
  { Carried.empty with
    gyroSat := match tickSample m with
      | some x => gyroSaturated x
      | none => false
    sensorHold := (tickSample m).isNone }

/-- The unit at the end of the tick's arithmetic (R2 to R13, R18), with the axes its path clamp changed. -/
def tickMsu (f : Option CtxFields) (m : Msu) : Msu × PerAxis Bool :=
  let r := ratesOf m
  let restored := restoredNow m
  pathStep f restored (integrateAll r (countSample (windowStep (countImpact m))))

/-- The work of the tick that ends now, whose part time `s.now` still stands. -/
def tickWork (s : State) : State :=
  let m := s.msu
  let r := tickMsu (activeFields s) m
  let s := { s with msu := r.1, csu := { s.csu with offset := offsetOf r.1 } }
  let s := carry { sampleConditions m with pathClamp := r.2 } s
  let s := learnBias s
  let s := if impactNow m then impact s else s
  let s := splitTick (ratesOf m) s
  let s := if lostNow m then sensorLost s else s
  if restoredNow m then sensorRestored s else s

/-- R154, R165: what part time alone moves: the charger's timers and the stable time. The new tick's read starts (R1),
with the bias and the impact settings stored by now (R6, R8, R17; log 48). -/
def passTick (s : State) : State :=
  { s with
    now := s.now + 1
    chg := chargerTick s.chg
    ssv := { s.ssv with stable := s.ssv.stable.map fun t => t + 1 }
    msu := { s.msu with read := .waiting, tickBias := s.msu.bias, tickImp := s.msu.imp } }

/-- A tick begins: the tick before it ends with its work, part time moves on, and the next read starts (R1; log 1). -/
def tickStep (s : State) : State := passTick (if s.msu.read = .idle then s else tickWork s)

/-! ## What a tick can bring about (log 2) -/

def faultCame (s t : State) : Bool := !s.msu.fault && t.msu.fault

def faultWent (s t : State) : Bool := s.msu.fault && !t.msu.fault

/-- The tick's sample completes the stillness window. -/
def biasDue (s : State) : Bool := (s.msu.read != .idle) && windowFull (windowStep s.msu)

/-- The tick's sample qualifies an impact. -/
def impactDue (s : State) : Bool := (s.msu.read != .idle) && impactNow s.msu

/-! ## Requests (R6, R16, R17) -/

/-- R31, R33, R38: the stabilization state has become OFF. -/
def enterOff (s : State) : State :=
  let s := { s with
    msu := { s.msu with stab := .off }
    csu := { s.csu with sample := none, carried := Carried.empty } }
  endFrameGet .state s

/-- R16: run off. A switch pending is committed at once, in OFF. -/
def runOff (s : State) : State :=
  match s.msu.stab with
  | .off => s
  | .standby => enterOff s
  | .running => commitPending (zeroSteps (enterOff s))

/-- R16: run on. -/
def runOn (s : State) : State :=
  match s.msu.stab with
  | .off =>
      { s with msu := { s.msu with
          stab := if s.ctx.active.isSome && !s.msu.fault then .running else .standby } }
  | _ => s

/-- R7, R16: the learn field and the threshold take effect. -/
def setLearning (learn : Bool) (still : Nat) (m : Msu) : Msu :=
  let m' := { m with learn := learn, still := still }
  if (m.learn && !learn) || m.still != still then emptyWindow m' else m'

/-- R16. -/
def stabSetReq (tag run learn still : Byte) (s : State) : State :=
  match onOff run, onOff learn with
  | some go, some on =>
      let n := clampNat 1 255 still.toNat
      let s := { s with msu := setLearning on n s.msu }
      let s := if go then runOn s else runOff s
      answer 0x10 tag (clampStatus (n != still.toNat)) (u8 (stabCode s.msu.stab) ++ u8 n) s
  | _, _ => answer 0x10 tag .range [] s

/-- R6: a sent value brought into range. -/
def clampBias (x : Half) : Int := clampInt (-512) 511 x.toInt

/-- R6. -/
def biasSetReq (tag : Byte) (yaw pitch roll : Half) (s : State) : State :=
  let b : PerAxis Int := ⟨clampBias yaw, clampBias pitch, clampBias roll⟩
  answer 0x11 tag (clampStatus (b.yaw != yaw.toInt || b.pitch != pitch.toInt || b.roll != roll.toInt))
    (s16 b.yaw ++ s16 b.pitch ++ s16 b.roll) { s with msu := emptyWindow { s.msu with bias := b } }

/-- R17: the six settings brought into range. -/
def clampImpact (thr count : Byte) (rearm park : Half) (pre post : Byte) : ImpactSettings where
  thr := clampNat 16 255 thr.toNat
  count := clampNat 1 64 count.toNat
  rearm := clampNat 250 8000 rearm.toNat
  park := clampNat 0 5000 park.toNat
  pre := clampNat 0 60 pre.toNat
  post := clampNat 0 60 post.toNat

def impactChanged (i : ImpactSettings) (thr count : Byte) (rearm park : Half) (pre post : Byte) : Bool :=
  i.thr != thr.toNat || i.count != count.toNat || i.rearm != rearm.toNat || i.park != park.toNat
    || i.pre != pre.toNat || i.post != post.toNat

/-- R17. -/
def impactSetReq (tag thr count : Byte) (rearm park : Half) (pre post : Byte) (s : State) : State :=
  let i := clampImpact thr count rearm park pre post
  answer 0x12 tag (clampStatus (impactChanged i thr count rearm park pre post))
    (u8 i.thr ++ u8 i.count ++ u16 i.rearm ++ u16 i.park ++ u8 i.pre ++ u8 i.post)
    { s with msu := { s.msu with imp := i } }

/-! ## Meanings -/

/-- STAB_SET (R16). -/
def execStabSet (tag run learn still : Byte) (s : State) : Result := takeReq s (stabSetReq tag run learn still)

/-- BIAS_SET (R6). -/
def execBiasSet (tag : Byte) (yaw pitch roll : Half) (s : State) : Result := takeReq s (biasSetReq tag yaw pitch roll)

/-- IMPACT_SET (R17). -/
def execImpactSet (tag thr count : Byte) (rearm park : Half) (pre post : Byte) (s : State) : Result :=
  takeReq s (impactSetReq tag thr count rearm park pre post)

/-- A tick begins (R1). -/
def execTick (s : State) : Result := whenUp s tickStep

/-- The sensor line answers (R1): a read that has been answered or not yet started is not answered again. -/
def readAnswered (sample : Option Sample) (s : State) : State :=
  if s.msu.read = .waiting then
    { s with msu := { s.msu with read := match sample with
        | some x => .good x
        | none => .failed } }
  else s

/-- The read of the tick under way ends (R1). -/
def execSensorReadDone (sample : Option Sample) (s : State) : Result := whenUp s (readAnswered sample)

/-- The tick at which the missing-sample counter reaches 16 (R4). -/
def execSensorLost (s : State) : Result := whenUp s (stepThat faultCame tickStep)

/-- The tick at which the recovery count reaches 64 (R5). -/
def execSensorRestored (s : State) : Result := whenUp s (stepThat faultWent tickStep)

/-- The tick at which the stillness window completes (R8). -/
def execBiasLearned (s : State) : Result := whenUp s (stepThat (fun s _ => biasDue s) tickStep)

/-- The tick at which an impact qualifies (R18, R19). -/
def execImpactQualify (s : State) : Result := whenUp s (stepThat (fun s _ => impactDue s) tickStep)

/-- R18: the re-arm hold ends. -/
def rearmExpiry (s : State) : State :=
  if expired s.now s.msu.rearmEnd then { s with msu := { s.msu with rearmEnd := none } } else s

/-- The re-arm hold expires (R18). -/
def execRearmHoldExpiry (s : State) : Result := whenUp s rearmExpiry

/-- R20: the impact park ends. -/
def parkExpiry (s : State) : State :=
  if expired s.now s.msu.parkEnd then
    removeParkAll .impact { s with msu := { s.msu with parkEnd := none } }
  else s

/-- The impact park timer expires (R20). -/
def execImpactParkExpiry (s : State) : Result := whenUp s parkExpiry

end Sys2Proof.Machine
end

