-- ==== Sys2Proof/Machine/Recording.lean ====
section
/-! DEFINITION. The host's card requests (spec/06, spec/07, spec/08): MOUNT, UNMOUNT, REC_START, REC_STOP, DATA,
SLOT_READ, SLOT_LOCK, MOTION_READ and its time limit. -/

namespace Sys2Proof.Machine

/-! ## MOUNT and UNMOUNT (R96, R97, R116) -/

/-- R96: the reply of a MOUNT that is not accepted, by the cases in order; none when it is accepted. -/
def mountRefusal (base len : Word) (units motion : Half) (g : Geometry) (s : State) : Option Status :=
  if s.cwr.writer ≠ .unmounted ∧ s.cwr.writer ≠ .fault then some .state
  else if s.cwr.present = false then some .noCard
  else if units = 0 ∨ motion = 0 ∨ 4096 < motion.toNat then some .range
  else if 4294967296 < base.toNat + len.toNat then some .range
  else if g.slotCount < 2 then some .range
  else none

/-- R96: the geometry is stored, the writer enters MOUNTING, and bring-up begins (R97, R127). The arbiter's stream run
count is left as it stands (DESIGN CHOICE, log 45). -/
def startMount (g : Geometry) (s : State) : State :=
  begin .identify 0 0 [] (setWriter .mounting { s with sdr := { Sdr.reset with geo := some g } })

/-- R96. -/
def mountReq (tag : Byte) (base len regionId : Word) (units motion : Half) (quota format : Byte) (s : State) : State :=
  match onOff format with
  | none => answer 0x20 tag .range [] s
  | some on =>
      let g := geometryOf base len regionId units motion quota on
      match mountRefusal base len units motion g s with
      | some status => answer 0x20 tag status [] s
      | none => answer 0x20 tag .accepted (u16 g.slotCount ++ u32 g.slotSize ++ u8 g.quota) (startMount g s)

/-- R116. -/
def unmountReq (tag : Byte) (s : State) : State :=
  if s.cwr.writer = .ready then settle (hold (.unmount tag) s) else answer 0x21 tag .state [] s

/-! ## REC_START and REC_STOP (R120, R132) -/

/-- R84, R90, R107, R123: slot `i` is opened with sequence `q`. -/
def openTheSlot (i q recId : Nat) (s : State) : State :=
  let s := resetEntry i q recId s
  { s with
    cbf := { s.cbf with assigned := 0, admitted := setAdmitted i 0 s.cbf.admitted }
    cwr := { s.cwr with units := 0, lastSlot := some i } }

/-- R120: the recording begins in slot `i`. The admitted counts of the recording before are forgotten here (Figure 6.1),
if nothing has forgotten them since (DESIGN CHOICE, log 55). -/
def startRecording (i q : Nat) (s : State) : State :=
  let r := s.sdr.nextRec
  let s := openTheSlot i q r { s with cbf := { s.cbf with admitted := [] } }
  setWriter .recording { s with
    sdr := { s.sdr with nextRec := recAfter r }
    cwr := { s.cwr with recId := some r, stopMark := none, closeReason := none } }

/-- R120, R169: the request in READY, with the slot and the sequence the choice gives. In EMERGENCY the recording just
begun is closed at once. -/
def recStartWith (tag : Byte) (i q : Nat) (s : State) : State :=
  let r := s.sdr.nextRec
  let s := answer 0x22 tag .accepted (u16 i ++ u32 q ++ u16 r) (startRecording i q s)
  settle (if s.ssv.st = .emergency then startClose s else s)

/-- R120. -/
def recStartReq (tag : Byte) (s : State) : State :=
  if s.cwr.writer = .ready then
    match chooseSlot s, s.sdr.nextSeq with
    | some i, some q => recStartWith tag i q s
    | _, _ => answer 0x22 tag .noSlot [] s
  else answer 0x22 tag .state [] s

/-- R132. -/
def recStopReq (tag : Byte) (s : State) : State :=
  if stopTaken s.cwr.writer then
    let last := optSlotCode (openSlot s)
    settle (answer 0x23 tag .accepted (u16 last) (askStop .stop s))
  else answer 0x23 tag .state [] s

/-! ## DATA (R82 to R85) -/

/-- The three values of a DATA reply (R82). -/
def dataReply (tag : Byte) (status : Status) (taken : Nat) (s : State) : State :=
  answer 0x24 tag status (u16 taken ++ u32 (freeSpace s.cbf) ++ u16 (optSlotCode (openSlot s))) s

/-- R84: bytes assigned to the OPEN slot `i`. -/
def assign (i : Nat) (bytes : List Byte) (s : State) : State :=
  { s with cbf := { s.cbf with
      segs := appendSeg i bytes s.cbf.segs
      assigned := s.cbf.assigned + bytes.length } }

/-- R85, 2 and 3: a next slot opens, takes the remainder, and the writer is ROLLING. -/
def crossTo (j q : Nat) (rest : List Byte) (s : State) : State :=
  let s := openTheSlot j q (s.cwr.recId.getD 0) s
  let s := setWriter .rolling { s with cwr := { s.cwr with closeReason := some .full } }
  assign j rest (postRoll j s)

/-- R85, 4, R133: no slot can be chosen; the remainder counts as lost for the slot `i` just closed. -/
def crossNowhere (i : Nat) (rest : List Byte) (s : State) : State :=
  let s := setWriter .stopping (addLost i rest.length s)
  { s with cwr := { s.cwr with closeReason := some .noSlot, stopMark := none } }

/-- R85: the crossing of slot `i`, with the payload's remainder; the bytes of it taken. -/
def crossing (i : Nat) (rest : List Byte) (s : State) : State × Nat :=
  let s := setSlotState .closing i s
  match chooseSlot s, s.sdr.nextSeq with
  | some j, some q => (crossTo j q rest s, rest.length)
  | _, _ => (crossNowhere i rest s, 0)

/-- R83: the payload fits. -/
def dataFits (n : Nat) (s : State) : Bool :=
  decide (n ≤ freeSpace s.cbf) && ((closingSlot s).isNone || decide (s.cbf.assigned + n < slotCapacity s))

/-- R84, R85: an accepted payload for the OPEN slot `i`; the bytes taken. -/
def acceptData (i : Nat) (bytes : List Byte) (s : State) : State × Nat :=
  let room := slotCapacity s - s.cbf.assigned
  let head := bytes.take room
  let s := assign i head s
  if slotCapacity s ≤ s.cbf.assigned then
    let r := crossing i (bytes.drop room) s
    (r.1, head.length + r.2)
  else (s, head.length)

/-- R82 to R85. A length outside 1..16,384 does not reach the clip buffer. -/
def dataReq (tag : Byte) (bytes : List Byte) (s : State) : State :=
  if bytes.length < 1 ∨ 16384 < bytes.length then answer 0x24 tag .badLength [] s
  else if stopTaken s.cwr.writer then
    match openSlot s with
    | none => dataReply tag .state 0 s
    | some i =>
        if dataFits bytes.length s then
          let r := acceptData i bytes s
          settle (dataReply tag .ok r.2 r.1)
        else dataReply tag .full 0 (addLost i bytes.length s)
  else dataReply tag .state 0 s

/-! ## SLOT_READ and SLOT_LOCK (R105, R108) -/

/-- R105. -/
def slotReadReq (tag : Byte) (first : Half) (count : Byte) (s : State) : State :=
  if directoryUp s.cwr.writer = false then answer 0x25 tag .state [] s
  else if count = 0 ∨ 16 < count.toNat ∨ s.sdr.entries.length ≤ first.toNat then answer 0x25 tag .range [] s
  else
    let es := (s.sdr.entries.drop first.toNat).take count.toNat
    answer 0x25 tag .ok
      (u16 s.sdr.entries.length ++ u8 (quotaOf s) ++ u16 (impactLocks s.sdr.entries) ++ nextSeqField s.sdr.nextSeq
        ++ flag8 s.sdr.nextSeq.isNone ++ u8 es.length ++ entriesBytes first.toNat es) s

/-- R108: a lock set changed by the host; a change enqueues a header update. -/
def setLocks (i : Nat) (l : LockSet) (s : State) : State :=
  match entryAt s i with
  | none => s
  | some e => if e.locks = l then s else enqueue i (modEntry i (fun e => { e with locks := l }) s)

/-- R108: the lock set after a request. -/
def locksAfter (kind : LockKind) (on : Bool) (l : LockSet) : LockSet :=
  match kind with
  | .impact => { l with impact := on }
  | .keep => { l with keep := on }

/-- R108. -/
def slotLockReq (code tag : Byte) (on : Bool) (slot : Half) (kind : Byte) (s : State) : State :=
  match lockOf kind with
  | none => answer code tag .range [] s
  | some k =>
      if directoryUp s.cwr.writer = false then answer code tag .state [] s
      else
        match entryAt s slot.toNat with
        | none => answer code tag .range [] s
        | some e =>
            if k = .impact ∧ on = true then answer code tag .range [] s
            else if e.st = .free ∨ e.st = .bad then answer code tag .state [] s
            else
              let l := locksAfter k on e.locks
              settle (answer code tag .ok (u8 (lockCode l)) (setLocks slot.toNat l s))

/-! ## MOTION_READ (R138 to R140) -/

/-- The writer states that answer MOTION_READ with STATE (R138). -/
def readBarred : Writer → Bool
  | .unmounted => true
  | .mounting => true
  | .emergencyClose => true
  | .fault => true
  | .ready => false
  | .recording => false
  | .rolling => false
  | .stopping => false

def setCursor (c : Option Cursor) (s : State) : State := { s with cwr := { s.cwr with cursor := c } }

/-- R139: the request is held for `number` records from record `k`. -/
def beginRead (tag : Byte) (i k number : Nat) (s : State) : State :=
  settle (hold (.motionRead tag i k number s.now) s)

/-- R138, start, on entry `e`. -/
def readStart (tag : Byte) (i count : Nat) (e : Entry) (s : State) : State :=
  if recorded e = false then answer 0x28 tag .state [] s
  else if e.motionRecords = 0 then answer 0x28 tag .gone [] (setCursor none s)
  else beginRead tag i 0 (min count e.motionRecords) (setCursor (some ⟨i, 0, false⟩) s)

/-- R138, continue, on entry `e`. -/
def readContinue (tag : Byte) (i count : Nat) (e : Entry) (s : State) : State :=
  match s.cwr.cursor with
  | none => answer 0x28 tag .state [] s
  | some c =>
      if c.slot ≠ i then answer 0x28 tag .state [] s
      else if c.stale then answer 0x28 tag .stale [] (setCursor none s)
      else beginRead tag i c.index (min count (e.motionRecords - c.index)) s

/-- R138. -/
def motionReadReq (tag : Byte) (slot : Half) (mode count : Byte) (s : State) : State :=
  match modeOf mode with
  | none => answer 0x28 tag .range [] s
  | some cont =>
      if readBarred s.cwr.writer then answer 0x28 tag .state [] s
      else if count = 0 ∨ 32 < count.toNat then answer 0x28 tag .range [] s
      else
        match entryAt s slot.toNat with
        | none => answer 0x28 tag .range [] s
        | some e =>
            if cont then readContinue tag slot.toNat count.toNat e s
            else readStart tag slot.toNat count.toNat e s

/-- R140: 1 s has passed since the request was taken. -/
def motionTimeout (s : State) : State :=
  match s.lnk.req with
  | some (.motionRead _ _ _ _ taken) =>
      if ticksOfSec 1 ≤ since s.now taken then endMotionRead .busy s else s
  | _ => s

/-! ## Meanings -/

/-- MOUNT (R96). -/
def execMount (tag : Byte) (base len regionId : Word) (units motion : Half) (quota format : Byte) (s : State) : Result :=
  takeReq s (mountReq tag base len regionId units motion quota format)

/-- UNMOUNT (R116). -/
def execUnmount (tag : Byte) (s : State) : Result := takeReq s (unmountReq tag)

/-- REC_START (R120). -/
def execRecStart (tag : Byte) (s : State) : Result := takeReq s (recStartReq tag)

/-- REC_STOP (R132). -/
def execRecStop (tag : Byte) (s : State) : Result := takeReq s (recStopReq tag)

/-- DATA (R82). -/
def execData (tag : Byte) (bytes : List Byte) (s : State) : Result := takeReq s (dataReq tag bytes)

/-- SLOT_READ (R105). -/
def execSlotRead (tag : Byte) (first : Half) (count : Byte) (s : State) : Result :=
  takeReq s (slotReadReq tag first count)

/-- SLOT_LOCK with on (R108). -/
def execSlotLockOn (tag : Byte) (slot : Half) (kind : Byte) (s : State) : Result :=
  takeReq s (slotLockReq 0x26 tag true slot kind)

/-- SLOT_LOCK with off (R108). -/
def execSlotLockOff (tag : Byte) (slot : Half) (kind : Byte) (s : State) : Result :=
  takeReq s (slotLockReq 0x27 tag false slot kind)

/-- MOTION_READ (R138). -/
def execMotionRead (tag : Byte) (slot : Half) (mode count : Byte) (s : State) : Result :=
  takeReq s (motionReadReq tag slot mode count)

/-- The 1 s of a held MOTION_READ runs out (R140). -/
def execMotionReadTimeout (s : State) : Result := whenUp s motionTimeout

end Sys2Proof.Machine
end

