-- ==== Sys2Proof/Machine/Guard.lean ====
section
/-! DEFINITION. The check-in guard (spec/11, section 11.6). -/

namespace Sys2Proof.Machine

/-- A number of 10 ms steps in ticks. -/
def ticksOfTens (n : Nat) : Nat := ticksOfMs (10 * n)

/-- The guard enters a state with its timer. -/
def setGuard (g : Guard) (trip : Option Trip) (guardEnd : Option Word) (s : State) : State :=
  { s with lnk := { s.lnk with guard := g, trip := trip, guardEnd := guardEnd } }

/-- The quiet timer starts (R194, R195). -/
def enterQuiet (s : State) : State := setGuard .quiet none (some (later s.now (ticksOfTens s.lnk.quiet))) s

/-- R196: the guard trips; the channels are parked and, in RECORDING and ROLLING, a stop is asked for. -/
def tripGuard (cause : Trip) (s : State) : State :=
  let w := s.cwr.writer
  let s := askStop .guard (addParkAll .guard (setGuard .tripped (some cause) none s))
  settle (raise (.guardTripped cause w (stopTaken w) s.now) s)

/-- R196: the guard leaves TRIPPED by the request `kind`. -/
def restoreGuard (kind : Byte) (s : State) : State :=
  if s.lnk.guard = .tripped then raise (.guardRestored kind s.now) (removeParkAll .guard s) else s

/-- R195: what a CHECKIN does. -/
def checkIn (s : State) : State :=
  match s.lnk.guard with
  | .disarmed => s
  | .quiet => tripGuard .early s
  | .window => enterQuiet s
  | .tripped => enterQuiet (restoreGuard 0x06#8 s)

/-- A timer's time left in ms as a u32 field; all ones when it does not run (Figures 12.3 and 12.5). -/
def timeLeft32 (now : Word) (endTime : Option Word) : List Byte :=
  match endTime with
  | none => u32 0xFFFFFFFF
  | some t => u32 (msOfTicks (ticksLeft now t))

/-- The time left on the quiet timer: none outside QUIET. -/
def quietLeft (l : Lnk) : Option Word := if l.guard = .quiet then l.guardEnd else none

/-- R195. -/
def checkinReq (tag : Byte) (s : State) : State :=
  let s := checkIn s
  answer 0x06 tag .ok (u8 (guardCode s.lnk.guard) ++ u8 (tripCode s.lnk.trip) ++ timeLeft32 s.now (quietLeft s.lnk)) s

/-- R194. -/
def guardSetReq (tag : Byte) (quiet window : Half) (s : State) : State :=
  let s := restoreGuard 0x07#8 s
  let s := { s with lnk := { s.lnk with quiet := quiet.toNat, window := window.toNat } }
  let s := if 0 < quiet.toNat ∧ 0 < window.toNat then enterQuiet s else setGuard .disarmed none none s
  answer 0x07 tag .ok (u16 quiet.toNat ++ u16 window.toNat ++ u8 (guardCode s.lnk.guard)) s

/-- R195: the quiet timer expires. -/
def quietExpiry (s : State) : State :=
  if s.lnk.guard = .quiet ∧ expired s.now s.lnk.guardEnd = true then
    setGuard .window none (some (later s.now (ticksOfTens s.lnk.window))) s
  else s

/-- R195: the window timer expires. -/
def windowExpiry (s : State) : State :=
  if s.lnk.guard = .window ∧ expired s.now s.lnk.guardEnd = true then tripGuard .missed s else s

/-! ## Meanings -/

/-- CHECKIN (R195). -/
def execCheckin (tag : Byte) (s : State) : Result := takeReq s (checkinReq tag)

/-- GUARD_SET (R194). -/
def execGuardSet (tag : Byte) (quiet window : Half) (s : State) : Result := takeReq s (guardSetReq tag quiet window)

/-- The quiet timer expires (R195). -/
def execQuietTimerExpiry (s : State) : Result := whenUp s quietExpiry

/-- The window timer expires (R195). -/
def execWindowTimerExpiry (s : State) : Result := whenUp s windowExpiry

end Sys2Proof.Machine
end

