-- ==== Sys2Proof/Machine/Power.lean ====
section
/-! DEFINITION. The input power selector (spec/09, sections 9.1 and 9.2): presence, selection, the effective input
limit, and INPUT_SET. -/

namespace Sys2Proof.Machine

/-! ## Presence and selection (R142, R143) -/

/-- The presence threshold of a source, in mV (R142). -/
def presenceThreshold : Src → Int
  | .usb => 4300
  | .aux => 5000

/-- R142: a source's presence and counts after a notice with its latest voltage `v`. -/
def presenceNotice (threshold v : Int) (p : Presence) : Presence :=
  if p.present then
    if threshold < v then { p with loss := 0 }
    else if 2 ≤ p.loss + 1 then ⟨false, 0, 0⟩
    else { p with loss := p.loss + 1 }
  else
    if threshold < v then
      if 32 ≤ p.count + 1 then ⟨true, 0, 0⟩ else { p with count := p.count + 1 }
    else { p with count := 0 }

/-- R143: the selection from the presences and the preference. -/
def selectSource (usb aux : Bool) (pref : Src) : Option Src :=
  if usb && aux then some pref
  else if usb then some .usb
  else if aux then some .aux
  else none

/-- The configured limit of a selection, 0 for NONE. -/
def limitOf (p : Ips) : Option Src → Nat
  | none => 0
  | some .usb => p.usbLimit
  | some .aux => p.auxLimit

/-- The floor of a selection, 0 for NONE. -/
def floorOf (p : Ips) : Option Src → Nat
  | none => 0
  | some .usb => p.usbFloor
  | some .aux => p.auxFloor

/-! ## The effective input limit (R143, R146) -/

/-- R146: one notice with a source selected and the selection unchanged, by the latest V_IN. -/
def walkLimit (vIn : Int) (p : Ips) : Ips :=
  let floor := (floorOf p p.sel : Int)
  if vIn < floor then { p with iEff := max 100 (p.iEff - 100), sag := 0 }
  else if vIn < floor + 200 then { p with sag := 0 }
  else if 32 ≤ p.sag + 1 then { p with iEff := min (limitOf p p.sel) (p.iEff + 50), sag := 0 }
  else { p with sag := p.sag + 1 }

/-- R142, R143 and R146 at one notice, from the latest voltages. -/
def ipsNotice (usbV auxV vIn : Int) (p : Ips) : Ips :=
  let q := { p with
    usb := presenceNotice (presenceThreshold .usb) usbV p.usb
    aux := presenceNotice (presenceThreshold .aux) auxV p.aux }
  let sel := selectSource q.usb.present q.aux.present q.pref
  if sel = q.sel then
    match sel with
    | none => { q with iEff := 0 }
    | some _ => walkLimit vIn q
  else { q with sel := sel, iEff := min 500 (limitOf q sel), sag := 0 }

/-- R144: one INPUT event when a presence or the selection changed. -/
def inputEvent (before : Ips) (s : State) : State :=
  if before.usb.present = s.ips.usb.present ∧ before.aux.present = s.ips.aux.present ∧ before.sel = s.ips.sel then s
  else raise (.input s.ips.usb.present s.ips.aux.present before.sel s.ips.sel s.ips.iEff s.now) s

/-- The selector's work at a round-end notice (R142 to R146). -/
def powerNotice (s : State) : State :=
  inputEvent s.ips { s with ips := ipsNotice s.scn.usb s.scn.aux s.scn.vIn.latest s.ips }

/-! ## The input stage (R147) -/

/-- What the input stage may draw: the source it draws from, and at most how much, in mA. -/
structure InputDraw where
  source : Src
  limit : Nat
deriving DecidableEq, Repr

/-- R147: the start-up current with NONE selected, in mA. -/
def startupCurrent : Nat := 100

/-- The input with the higher latest voltage; of two equal ones whichever the free value says (log 50). -/
def higherInput (c : Scn) : Src :=
  if c.usb < c.aux then .aux else if c.aux < c.usb then .usb else if Config.startupFromAux then .aux else .usb

/-- R147: at most I_eff from the selected source; with NONE selected, at most the start-up current from the higher of the
two inputs, which is not counted in I_eff. -/
def inputStage (s : State) : InputDraw :=
  match s.ips.sel with
  | some src => ⟨src, s.ips.iEff⟩
  | none => ⟨higherInput s.scn, startupCurrent⟩

/-! ## INPUT_SET (R145, R147) -/

/-- The five values brought into range (R145, Figure 9.1), and I_eff lowered to the new limit of the selected source
(R147). -/
def storeInput (pref : Src) (usbLimit usbFloor auxLimit auxFloor : Half) (p : Ips) : Ips :=
  let q := { p with
    pref := pref
    usbLimit := clampNat 100 3000 usbLimit.toNat
    usbFloor := clampNat 4000 5000 usbFloor.toNat
    auxLimit := clampNat 100 3000 auxLimit.toNat
    auxFloor := clampNat 5000 12000 auxFloor.toNat }
  match q.sel with
  | none => q
  | some _ => { q with iEff := min q.iEff (limitOf q q.sel) }

def inputChanged (p : Ips) (usbLimit usbFloor auxLimit auxFloor : Half) : Bool :=
  p.usbLimit != usbLimit.toNat || p.usbFloor != usbFloor.toNat || p.auxLimit != auxLimit.toNat
    || p.auxFloor != auxFloor.toNat

def inputBytes (p : Ips) : List Byte :=
  u8 (srcCode p.pref) ++ u16 p.usbLimit ++ u16 p.usbFloor ++ u16 p.auxLimit ++ u16 p.auxFloor

/-- R145. -/
def inputSetReq (tag preference : Byte) (usbLimit usbFloor auxLimit auxFloor : Half) (s : State) : State :=
  match preferenceOf preference with
  | none => answer 0x31 tag .range [] s
  | some pref =>
      let s := { s with ips := storeInput pref usbLimit usbFloor auxLimit auxFloor s.ips }
      answer 0x31 tag (clampStatus (inputChanged s.ips usbLimit usbFloor auxLimit auxFloor)) (inputBytes s.ips) s

/-- INPUT_SET (R145). -/
def execInputSet (tag preference : Byte) (usbLimit usbFloor auxLimit auxFloor : Half) (s : State) : Result :=
  takeReq s (inputSetReq tag preference usbLimit usbFloor auxLimit auxFloor)

end Sys2Proof.Machine
end

