-- ==== Sys2Proof/Machine/Report.lean ====
section
/-! DEFINITION. IDENT, STATUS, EVENTS, ALERT_SET and the blocks of Figure 12.5 (spec/11 sections 11.4 and 11.5,
spec/12). -/

namespace Sys2Proof.Machine

/-! ## IDENT (R188) -/

/-- The part's fixed description (Figure 12.3). -/
def identBytes : List Byte :=
  u16 0x4C57 ++ u16 0x3410 ++ u8 1 ++ u16 16388 ++ u8 4 ++ u16 256 ++ u32 4194304 ++ u8 128 ++ u8 12 ++ u16 4096

/-- R188. -/
def identReq (tag : Byte) (s : State) : State := answer 0x01 tag .ok identBytes s

/-! ## STATUS (R189, Figure 12.5) -/

/-- R15: the STANDBY reason: SENSOR while a sensor fault is present, NO_CONTEXT otherwise, none outside STANDBY
(log 26). -/
def standbyReason (m : Msu) : Nat := if m.stab = .standby then if m.fault then 2 else 1 else 0

def statusCtx (s : State) : List Byte :=
  u8 (stabCode s.msu.stab) ++ u8 (standbyReason s.msu) ++ u8 (optCtxCode s.ctx.active)
    ++ u8 (optCtxCode (s.ctx.pendingSwitch.map fun w => w.index))
    ++ flag8 (match s.ctx.pendingSwitch with
      | none => false
      | some w => w.ret)

def statusChan (ch : Channel) : List Byte := u8 (chanStateCode ch.st) ++ u8 (parkCode ch.park) ++ u8 ch.attempts

def statusAdu (s : State) : List Byte := statusChan s.adu.sx ++ statusChan s.adu.sy ++ statusChan s.adu.rt

def statusSteps (s : State) : List Byte := s16 s.csu.step.sx ++ s16 s.csu.step.sy ++ s16 s.csu.step.rt

def statusCwr (s : State) : List Byte :=
  u8 (writerCode s.cwr.writer) ++ u16 (optSlotCode (openSlot s)) ++ u16 (optSlotCode (closingSlot s))
    ++ u16 (s.cwr.recId.getD 0) ++ u8 (optReasonCode s.cwr.stopMark) ++ u16 s.sdr.queue.length
    ++ flag8 s.cwr.present

def statusCbf (s : State) : List Byte :=
  u32 (fillOf s.cbf.segs) ++ u32 (freeSpace s.cbf) ++ u8 s.cbf.pend.length

/-- R94: the OPEN slot's counts; NONE and zeros when no slot is OPEN. -/
def statusOpen (s : State) : List Byte :=
  match openSlot s with
  | none => u16 0xFFFF ++ u32 0 ++ u32 0 ++ u32 0 ++ u32 0
  | some i =>
      match entryAt s i with
      | none => u16 0xFFFF ++ u32 0 ++ u32 0 ++ u32 0 ++ u32 0
      | some e => u16 i ++ u32 s.cbf.assigned ++ u32 e.streamBytes ++ u32 e.lostBytes ++ u32 e.motionDropped

def statusChg (s : State) : List Byte :=
  u8 (phaseCode s.chg.phase) ++ u8 (pauseCode s.chg.pause) ++ u8 (cycleCode s.chg.cycle)
    ++ u8 (chargeFaultCode s.chg.latch) ++ u32 (msOfTicks s.chg.preTicks) ++ u32 (msOfTicks s.chg.fastTicks)
    ++ u8 s.chg.term ++ u16 (effTarget s)

/-- R163: the 16-bit field of I_avail, which has no upper bound: above 65,535 mA a free value (log 47). -/
def iAvailField (n : Nat) : Nat := if n < 65536 then n else (Config.iAvailField n).toNat

def statusBudget (s : State) : List Byte :=
  u16 s.chg.iCmd ++ flag8 s.chg.supplement ++ u16 s.chg.derated ++ s32 s.chg.pIn ++ s32 s.chg.pSys
    ++ s32 s.chg.pAvail ++ u16 (iAvailField s.chg.iAvail)

def statusIps (s : State) : List Byte :=
  u8 (optSrcCode s.ips.sel) ++ u16 s.ips.iEff ++ u8 (srcCode s.ips.pref) ++ flag8 s.ips.usb.present
    ++ flag8 s.ips.aux.present ++ s16 s.scn.usb ++ s16 s.scn.aux ++ u16 (limitOf s.ips s.ips.sel)
    ++ u16 (floorOf s.ips s.ips.sel)

/-- The ride-through timer's time left in ms; all ones when it is stopped. -/
def rideLeft (s : State) : List Byte :=
  match s.ssv.timerEnd with
  | none => u16 0xFFFF
  | some t => u16 (msOfTicks (ticksLeft s.now t))

/-- The stable time in ms, held at 0xFFFE; all ones when there is none. -/
def stableField (s : State) : List Byte :=
  match s.ssv.stable with
  | none => u16 0xFFFF
  | some t => u16 (min 0xFFFE (msOfTicks t))

/-- The emergency close; without one its units remaining are a free value (log 11). While it runs, the slot reported is
the first one still to be closed, in the inherited transfer and the header updates too (DESIGN CHOICE, log 49). -/
def closeField (s : State) : List Byte :=
  match s.ssv.close with
  | none => u8 0 ++ u8 0 ++ u8 Config.unitsWithoutClose.toNat ++ u8 0 ++ u16 0xFFFF
  | some c => u8 1 ++ u8 c.budget ++ u8 c.left ++ u8 (closePartCode c.part) ++ u16 (optSlotCode c.todo.head?)

def statusSsv (s : State) : List Byte :=
  u8 (supplyCode s.ssv.st) ++ u8 s.ssv.rideMs ++ u8 s.ssv.budget ++ rideLeft s ++ stableField s ++ closeField s

def statusBattery (s : State) : List Byte := s16 (inputAvg s.scn.vBat) ++ s16 (inputAvg s.scn.iBat)

def statusHeat (s : State) : List Byte :=
  s16 s.scn.tDie.latest ++ s16 (inputAvg s.scn.tDie) ++ u8 (dieZoneCode (dieZone s.scn.die))
    ++ s16 s.scn.tBat.latest ++ s16 (inputAvg s.scn.tBat) ++ flag8 s.scn.battery ++ u8 (batZoneCode s.scn.batZone)

def statusGuard (s : State) : List Byte :=
  u8 (guardCode s.lnk.guard) ++ u8 (tripCode s.lnk.trip) ++ u16 s.lnk.quiet ++ u16 s.lnk.window
    ++ timeLeft32 s.now s.lnk.guardEnd

/-- The sixteen blocks in the order of their bits (Figure 12.5). -/
def statusBlocks (s : State) : List (List Byte) :=
  [u32 s.now.toNat, statusCtx s, u32 s.csu.frame.toNat, statusAdu s, statusSteps s, statusCwr s, statusCbf s,
    statusOpen s, statusChg s, statusBudget s, statusIps s, statusSsv s, statusBattery s, statusHeat s, statusGuard s,
    u8 (causeCode s.rst.cause)]

/-- The blocks whose mask bits are set, ascending from bit `k`. -/
def selectBlocks (mask : Half) : Nat → List (List Byte) → List Byte
  | _, [] => []
  | k, b :: rest => (if mask.getLsbD k then b else []) ++ selectBlocks mask (k + 1) rest

/-- R189. -/
def statusReq (tag : Byte) (mask : Half) (s : State) : State :=
  answer 0x02 tag .ok (u16 mask.toNat ++ selectBlocks mask 0 (statusBlocks s)) s

/-! ## EVENTS (R192) -/

/-- The classes whose count is above 0, in class order. -/
def countedClasses (e : EventSet) : List EvClass := allClasses.filter fun c => decide (0 < (eventGet e c).count)

/-- A class's number, count, detail length and detail (Figure 12.3). -/
def eventBytes (e : EventSet) (c : EvClass) : List Byte :=
  let d := match (eventGet e c).detail with
    | none => []
    | some x => detailBytes x
  u8 (classBit c + 1) ++ u8 (eventGet e c).count ++ u8 d.length ++ d

def eventsBytes (e : EventSet) : List EvClass → List Byte
  | [] => []
  | c :: rest => eventBytes e c ++ eventsBytes e rest

/-- The classes of a list with their counts 0 and their details removed. -/
def clearClasses : List EvClass → EventSet → EventSet
  | [], e => e
  | c :: rest, e => clearClasses rest (eventSet e c EvEntry.empty)

/-- R192. -/
def eventsReq (tag : Byte) (s : State) : State :=
  let cs := countedClasses s.lnk.events
  answer 0x03 tag .ok (u8 cs.length ++ eventsBytes s.lnk.events cs)
    { s with lnk := { s.lnk with events := clearClasses cs s.lnk.events } }

/-! ## ALERT_SET (R193) -/

/-- The classes whose record bit is clear. -/
def unrecorded (mask : BitVec 12) : List EvClass := allClasses.filter fun c => !mask.getLsbD (classBit c)

/-- R193: both masks are stored and the classes no longer recorded are cleared. -/
def storeMasks (record alert : BitVec 12) (l : Lnk) : Lnk :=
  { l with recordMask := record, alertMask := alert, events := clearClasses (unrecorded record) l.events }

/-- R193. -/
def alertSetReq (tag : Byte) (record alert : Half) (s : State) : State :=
  match classMaskOf record, classMaskOf alert with
  | some r, some a =>
      let s := { s with lnk := storeMasks r a s.lnk }
      answer 0x04 tag .ok (u16 r.toNat ++ u16 a.toNat ++ flag8 (attn s.lnk)) s
  | _, _ => answer 0x04 tag .range [] s

/-! ## Meanings -/

/-- IDENT (R188). -/
def execIdent (tag : Byte) (s : State) : Result := takeReq s (identReq tag)

/-- STATUS (R189). -/
def execStatus (tag : Byte) (mask : Half) (s : State) : Result := takeReq s (statusReq tag mask)

/-- EVENTS (R192). -/
def execEvents (tag : Byte) (s : State) : Result := takeReq s (eventsReq tag)

/-- ALERT_SET (R193). -/
def execAlertSet (tag : Byte) (record alert : Half) (s : State) : Result := takeReq s (alertSetReq tag record alert)

end Sys2Proof.Machine
end

