-- ==== Sys2Proof/Machine/Scan.lean ====
section
/-! DEFINITION. The measurement scan (spec/05): one conversion of the next input, the round end, and the rows that name
what a conversion can bring about (R75, R142, R146, R152). -/

namespace Sys2Proof.Machine

/-! ## Readings (R72) -/

/-- A reading clamped into its input's range; an open reading on an input with no open mark stands beyond the top of
its range (log 15). -/
def readingIn (lo hi : Int) : Reading → Int
  | .value z => clampInt lo hi z
  | .openCircuit => hi

/-- The source slot 1 measures for a selection: USB when none is selected (R73). -/
def slot1Source : Option Src → Src
  | none => .usb
  | some x => x

/-- The source slot 2 measures. -/
def otherSource : Src → Src
  | .usb => .aux
  | .aux => .usb

/-- The latest voltage kept under the source's name (R73). -/
def noteSource (src : Src) (z : Int) (c : Scn) : Scn :=
  match src with
  | .usb => { c with usb := z }
  | .aux => { c with aux := z }

/-- R73: when the source slot 1 measures has changed, V_IN and V_ALT are exchanged. -/
def exchange (sel : Option Src) (c : Scn) : Scn :=
  if slot1Source sel = c.slot1 then c else { c with slot1 := slot1Source sel, vIn := c.vAlt, vAlt := c.vIn }

/-! ## Battery presence and zone (R75, R77) -/

/-- The battery becomes ABSENT: history, counts, latest value and zone are cleared (R75). -/
def batteryGone (c : Scn) : Scn :=
  { c with battery := false, openCount := 0, validCount := 0, tBat := Input.empty, batZone := .absent }

/-- The battery becomes PRESENT with the average of its eight readings; the valid count stands at 8 (R75, R77,
Figure 5.3). -/
def batteryCome (c : Scn) : Scn :=
  let sides := batClassify (inputAvg c.tBat)
  { c with battery := true, openCount := 0, batSides := sides, batZone := batZoneOf sides }

/-- R75, R77: a T_BAT conversion. -/
def batteryReading (r : Reading) (c : Scn) : Scn :=
  match c.battery, r with
  | true, .value z =>
      let c := { c with openCount := 0, tBat := enterValue c.tBat (clampInt (-400) 1250 z) }
      let sides := batCross c.batSides (inputAvg c.tBat)
      { c with batSides := sides, batZone := batZoneOf sides }
  | true, .openCircuit => if 2 ≤ c.openCount + 1 then batteryGone c else { c with openCount := c.openCount + 1 }
  | false, .value z =>
      let c := { c with tBat := enterValue c.tBat (clampInt (-400) 1250 z), validCount := c.validCount + 1 }
      if 8 ≤ c.validCount then batteryCome c else c
  | false, .openCircuit => { c with tBat := Input.empty, validCount := 0 }

/-- R78: a battery zone that has changed raises one THERMAL event and is handed to the charger. -/
def batteryChanged (before : BatZone) (s : State) : State :=
  if s.scn.batZone = before then s
  else chargerZones (raise (.batZone before s.scn.batZone (inputAvg s.scn.tBat) s.now) s)

/-! ## Die zone (R76) -/

/-- R76: a T_DIE conversion. -/
def dieReading (z : Int) (c : Scn) : Scn :=
  { c with tDie := enterValue c.tDie z, die := dieCross c.die z }

/-- R78, R68: a die zone that has changed raises one THERMAL event and is handed to the charger; on entry into CRITICAL
the actuator drive shuts down. -/
def dieChanged (before : DieZone) (s : State) : State :=
  let after := dieZone s.scn.die
  if after = before then s
  else
    let s := chargerZones (raise (.dieZone before after s.scn.tDie.latest s.now) s)
    if after = .critical then thermalShutdown s.scn.tDie.latest s else s

/-! ## The round (R71, R74) -/

/-- The round-end notice: the selector, then the charger; the scan then follows the selection (R73; log 14). -/
def roundEnd (s : State) : State :=
  let s := chargerNotice (powerNotice s)
  { s with scn := exchange s.ips.sel s.scn }

/-- The slot after the one converted. -/
def nextSlot (c : Scn) : Scn := { c with slot := if 8 ≤ c.slot then 1 else c.slot + 1 }

/-- Slot 1: V_IN, the source slot 1 measures. -/
def convertVIn (r : Reading) (c : Scn) : Scn :=
  let z := readingIn 0 20000 r
  noteSource c.slot1 z { c with vIn := enterValue c.vIn z }

/-- Slot 2: V_ALT, the other source. -/
def convertVAlt (r : Reading) (c : Scn) : Scn :=
  let z := readingIn 0 20000 r
  noteSource (otherSource c.slot1) z { c with vAlt := enterValue c.vAlt z }

/-- Slot 7: T_BAT and what follows from it. -/
def convertTBat (r : Reading) (s : State) : State :=
  batteryChanged s.scn.batZone { s with scn := batteryReading r s.scn }

/-- Slot 8: T_DIE, what follows from it, and the round end. The die zone change comes before the round-end notice of the
same conversion (DESIGN CHOICE, log 42). -/
def convertTDie (r : Reading) (s : State) : State :=
  roundEnd (dieChanged (dieZone s.scn.die) { s with scn := dieReading (readingIn (-400) 1500 r) s.scn })

/-- The conversion of the input whose slot is next (Figure 5.1). -/
def convert (r : Reading) (s : State) : State :=
  match s.scn.slot with
  | 1 => { s with scn := convertVIn r s.scn }
  | 2 => { s with scn := convertVAlt r s.scn }
  | 3 => { s with scn := { s.scn with vBat := enterValue s.scn.vBat (readingIn 0 5000 r) } }
  | 4 => { s with scn := { s.scn with iBat := enterValue s.scn.iBat (readingIn (-4000) 4000 r) } }
  | 5 => { s with scn := { s.scn with vSys := enterValue s.scn.vSys (readingIn 0 5000 r) } }
  | 6 => { s with scn := { s.scn with iSys := enterValue s.scn.iSys (readingIn 0 4000 r) } }
  | 7 => convertTBat r s
  | _ => convertTDie r s

/-- One conversion completes (R71). -/
def scanStep (r : Reading) (s : State) : State :=
  let s := convert r s
  { s with scn := nextSlot s.scn }

/-! ## What a conversion can bring about (log 2) -/

/-- The battery has become ABSENT. -/
def batteryWent (s t : State) : Bool := s.scn.battery && !t.scn.battery

/-- The battery has become PRESENT. -/
def batteryCame (s t : State) : Bool := !s.scn.battery && t.scn.battery

def presenceOf (src : Src) (p : Ips) : Bool :=
  match src with
  | .usb => p.usb.present
  | .aux => p.aux.present

/-- The source has become PRESENT. -/
def sourceCame (src : Src) (s t : State) : Bool := !presenceOf src s.ips && presenceOf src t.ips

/-- The source has become ABSENT. -/
def sourceWent (src : Src) (s t : State) : Bool := presenceOf src s.ips && !presenceOf src t.ips

/-- The sag count reached 32 and starts again (R146). -/
def sagDone (s t : State) : Bool :=
  s.ips.sag == 31 && t.ips.sag == 0 && s.ips.sel == t.ips.sel && s.ips.sel.isSome
    && decide ((floorOf s.ips s.ips.sel : Int) + 200 ≤ s.scn.vIn.latest)

/-- The charger has come to DONE. -/
def cameDone (s t : State) : Bool := s.chg.phase != .done && t.chg.phase == .done

/-- Slot 8 is next, and its conversion brings it about. -/
def atRoundEnd (happens : State → State → Bool) (s t : State) : Bool := s.scn.slot == 8 && happens s t

/-! ## Meanings -/

/-- One conversion of the next scan input (R71 to R78). -/
def execScanConversion (r : Reading) (s : State) : Result := whenUp s (scanStep r)

/-- The open reading that makes the battery ABSENT (R75). -/
def execBatteryAbsent (s : State) : Result := whenUp s (stepThat batteryWent (scanStep .openCircuit))

/-- The temperature reading that makes the battery PRESENT (R75). -/
def execBatteryPresent (tBat : Int) (s : State) : Result := whenUp s (stepThat batteryCame (scanStep (.value tBat)))

/-- The round end at which a source becomes PRESENT (R142). -/
def execSourcePresent (src : Src) (tDie : Int) (s : State) : Result :=
  whenUp s (stepThat (atRoundEnd (sourceCame src)) (scanStep (.value tDie)))

/-- The round end at which a source becomes ABSENT (R142). -/
def execSourceLost (src : Src) (tDie : Int) (s : State) : Result :=
  whenUp s (stepThat (atRoundEnd (sourceWent src)) (scanStep (.value tDie)))

/-- The round end at which the sag count reaches 32 (R146). -/
def execIEffRaise (tDie : Int) (s : State) : Result :=
  whenUp s (stepThat (atRoundEnd sagDone) (scanStep (.value tDie)))

/-- The round end at which the cycle moves to DONE (R152). -/
def execChargeDone (tDie : Int) (s : State) : Result :=
  whenUp s (stepThat (atRoundEnd cameDone) (scanStep (.value tDie)))

end Sys2Proof.Machine
end

