-- ==== Sys2Proof/Machine/Resets.lean ====
section
/-! DEFINITION. Resets (spec/11 section 11.7): what a cause does at its moment, and the values each kind of reset leaves
(R9, R39, R52, R60, R79, R89, R103, R118, R136, R141, R148, R165, R201). -/

namespace Sys2Proof.Machine

/-! ## The beginning (R197) -/

/-- Both outputs of the channel are low from the reset onward (R52). -/
def quietChannel (ch : Channel) : Channel := { ch with waiting := none, applied := 0, duty := 0, finalPeriod := false }

/-- R197: the link is emptied, and work that takes time is cut off. -/
def cutOff (s : State) : State :=
  { s with
    ctx := { s.ctx with pendingSwitch := none }
    adu := chanMap quietChannel s.adu
    cwr := { s.cwr with port := none, recId := none, lastSlot := none, stopMark := none }
    ssv := { s.ssv with close := none }
    lnk := Lnk.reset }

/-- A cause is recorded: of those in one reset the most severe, POWER_ON over BROWNOUT over the warm ones (R198). -/
def severer (held new : ResetCause) : ResetCause :=
  match held, new with
  | .powerOn, _ => .powerOn
  | .brownout, .powerOn => .powerOn
  | .brownout, _ => .brownout
  | _, c => c

/-- A reset begins, or a further cause joins the one under way. -/
def beginReset (cause : ResetCause) (s : State) : State :=
  if s.rst.active then { s with rst := { s.rst with cause := severer s.rst.cause cause } }
  else cutOff { s with rst := { s.rst with active := true, cause := cause } }

/-! ## The values a reset leaves -/

/-- A channel after a reset: its comparator's input is a pin, and its SUPPLY reason is the one the supply state gives
(R52, R60). -/
def channelAfter (supply : Bool) (ch : Channel) : Channel :=
  { Channel.reset with comparator := ch.comparator, park := { ParkSet.empty with supply := supply } }

/-- The part after a power-on reset: the pins and the queue stand as they are. -/
def powerOnState (s : State) : State :=
  { State.reset with
    adu := chanMap (channelAfter false) s.adu
    cwr := Cwr.reset s.cwr.cdet
    ssv := Ssv.reset s.ssv.rail
    rst := { s.rst with active := false }
    pending := s.pending }

/-- R79: the scan after a warm reset. -/
def scanAfter (s : State) : Scn :=
  { Scn.reset with
    slot1 := slot1Source s.ips.sel
    battery := s.scn.battery
    batSides := s.scn.batSides
    batZone := s.scn.batZone }

/-- R141: a source after a warm reset. -/
def presenceAfter (p : Presence) : Presence := ⟨p.present, 0, 0⟩

/-- R141: the selector after a warm reset. -/
def ipsAfter (p : Ips) : Ips :=
  { Ips.reset with
    usb := presenceAfter p.usb
    aux := presenceAfter p.aux
    sel := p.sel
    iEff := match p.sel with
      | none => p.iEff
      | some _ => min p.iEff (limitOf Ips.reset p.sel) }

/-- R148: the charger after a warm reset. -/
def chgAfter (s : State) : Chg :=
  { Chg.reset with
    phase := if s.chg.latch.isSome then .fault else .noInput
    pause :=
      { batCold := s.scn.batZone == .cold
        batHot := s.scn.batZone == .hot
        die := false
        supply := s.ssv.st != .normal }
    cycle := s.chg.cycle
    latch := s.chg.latch
    preTicks := s.chg.preTicks
    fastTicks := s.chg.fastTicks }

/-- R165: the stable time kept, brought into line with the comparator as it stands (log 23). -/
def stableAfter (rail : Rail) (stable : Option Nat) : Option Nat :=
  if rail = .atRecover then some (stable.getD 0) else none

/-- R165: the supervisor after a warm reset; a running timer gets the time it had left. -/
def ssvAfter (s : State) : Ssv :=
  { Ssv.reset s.ssv.rail with
    st := s.ssv.st
    timerEnd := s.ssv.timerEnd.map fun t => BitVec.ofNat 32 (ticksLeft s.now t)
    stable := stableAfter s.ssv.rail s.ssv.stable }

/-- The part after a warm reset. -/
def warmState (s : State) : State :=
  { State.reset with
    adu := chanMap (channelAfter (s.ssv.st != .normal)) s.adu
    scn := scanAfter s
    cwr := Cwr.reset s.cwr.cdet
    ips := ipsAfter s.ips
    chg := chgAfter s
    ssv := ssvAfter s
    rst := { s.rst with active := false }
    pending := s.pending }

/-- The rail stands below warn. -/
def railBelowWarn : Rail → Bool
  | .belowPowerOn => true
  | .belowBrownout => true
  | .belowWarn => true
  | .belowRecover => false
  | .atRecover => false

/-- R165: after a power-on reset a rail already below warn starts a ride-through at once (log 28). -/
def rideAtStart (s : State) : State := if railBelowWarn s.ssv.rail then startRide s else s

/-- A power-on reset, or a warm one, by the cause recorded (R198). -/
def powerOnCause : ResetCause → Bool
  | .powerOn => true
  | .brownout => true
  | .line => false
  | .request => false

/-- The reset ends when no cause is held (R197, R198). -/
def finishReset (s : State) : State :=
  if s.rst.active && !s.rst.supplyLow && !s.rst.lineLow then
    if powerOnCause s.rst.cause then rideAtStart (powerOnState s) else warmState s
  else s

/-- R200: the warm reset a RESET asked for: it ends as soon as it has begun. -/
def requestReset (s : State) : State := finishReset (beginReset .request s)

/-! ## The causes -/

/-- R170, R198: the rail falls below the brownout level. -/
def brownout (s : State) : State :=
  if s.rst.supplyLow then s
  else
    let s := beginReset .brownout s
    { s with rst := { s.rst with supplyLow := true }, ssv := { s.ssv with rail := .belowBrownout } }

/-- R198: the rail falls below 1,000 mV before it recovers. -/
def belowPowerOnLevel (s : State) : State :=
  if s.rst.supplyLow then
    let s := beginReset .powerOn s
    { s with ssv := { s.ssv with rail := .belowPowerOn } }
  else s

/-- The rail stands at or above the brownout level. -/
def aboveBrownout : Rail → Bool
  | .belowPowerOn => false
  | .belowBrownout => false
  | .belowWarn => true
  | .belowRecover => true
  | .atRecover => true

/-- R164: the comparator reports that the rail has risen to or above warn, and stays below recover. No state changes by it
(R167), and the end of a power-on reset finds it so (R165). -/
def riseToWarn (s : State) : State :=
  if s.ssv.rail = .belowWarn then { s with ssv := { s.ssv with rail := .belowRecover } } else s

/-- R164, R198: the rail has risen, and stands as given: to or above the brownout level, which ends that cause of a reset,
or, with that cause not held, to or above warn (log 37). -/
def supplyBack (rail : Rail) (s : State) : State :=
  if s.rst.supplyLow then
    if aboveBrownout rail then
      finishReset { s with rst := { s.rst with supplyLow := false }, ssv := { s.ssv with rail := rail } }
    else s
  else if rail = .belowRecover then riseToWarn s
  else s

/-- R199: RSTN goes low. -/
def lineFalls (s : State) : State :=
  if s.rst.lineLow then s
  else
    let s := beginReset .line s
    { s with rst := { s.rst with lineLow := true } }

/-- R199: RSTN goes high. -/
def lineRises (s : State) : State :=
  if s.rst.lineLow then finishReset { s with rst := { s.rst with lineLow := false } } else s

/-- R200: a RESET waits 100 ms for its reply to be read. -/
def resetWaitTicks : Nat := ticksOfMs 100

/-- R200: the wait of a RESET is over. -/
def waitExpiry (s : State) : State :=
  match s.lnk.resetTaken with
  | none => s
  | some t => if resetWaitTicks ≤ since s.now t then requestReset s else s

/-- R200: RESET is answered OK, and its warm reset waits. -/
def resetReq (tag : Byte) (s : State) : State :=
  answer 0x05 tag .ok [] { s with lnk := { s.lnk with resetTaken := some s.now } }

/-! ## Meanings -/

/-- RESET (R200). -/
def execReset (tag : Byte) (s : State) : Result := takeReq s (resetReq tag)

/-- The rail falls below 2,900 mV (R170). -/
def execBrownout (s : State) : Result := .next (brownout s)

/-- The rail has risen to or above the brownout level, or to or above warn, and stands as given (R164, R198; log 37). -/
def execPowerOnResetEnd (rail : Rail) (s : State) : Result := .next (supplyBack rail s)

/-- RSTN goes low (R199). -/
def execRstnLow (s : State) : Result := .next (lineFalls s)

/-- RSTN goes high (R199). -/
def execRstnHigh (s : State) : Result := .next (lineRises s)

/-- 100 ms have passed since a RESET (R200). -/
def execResetWaitExpiry (s : State) : Result := whenUp s waitExpiry

/-- The rail of a brownout falls below 1,000 mV (R198). -/
def execRailBelowPowerOnLevel (s : State) : Result := .next (belowPowerOnLevel s)

end Sys2Proof.Machine
end

