-- ==== Sys2Proof/Machine/Supply.lean ====
section
/-! DEFINITION. The rail comparator, ride-through, emergency and return, and SUPPLY_SET (spec/10). -/

namespace Sys2Proof.Machine

/-! ## The rail (R164 to R168) -/

/-- The comparator's input and the stable time change together (R165, R168). -/
def setRail (rail : Rail) (stable : Option Nat) (s : State) : State :=
  { s with ssv := { s.ssv with rail := rail, stable := stable } }

/-- In reset the input moves and nothing acts on it; while the rail holds the reset, POWER_ON_RESET_END says where it
stands (log 12). -/
def railInReset (rail : Rail) (s : State) : State :=
  if s.rst.supplyLow then s else { s with ssv := { s.ssv with rail := rail } }

/-- A change of the rail, as the part takes it running or in reset. -/
def railStep (rail : Rail) (f : State → State) (s : State) : Result :=
  .next (if s.rst.active then railInReset rail s else f s)

/-- R166, R168: a fall below warn. -/
def fallBelowWarn (s : State) : State :=
  let s := setRail .belowWarn none s
  if s.ssv.st = .normal then startRide s else s

/-- R167, R168: a rise to or above recover, of a rail that stood below it. -/
def riseToRecover (s : State) : State :=
  if s.ssv.rail = .atRecover then s
  else
    let s := setRail .atRecover (some 0) s
    if s.ssv.st = .rideThrough then toNormal .recovered s else s

/-- R168: a fall below recover. -/
def fallBelowRecover (s : State) : State :=
  if s.ssv.rail = .atRecover then setRail .belowRecover none s else s

/-- R167, R169: the ride-through timer expires. -/
def rideExpiry (s : State) : State :=
  if s.ssv.st = .rideThrough ∧ expired s.now s.ssv.timerEnd = true then
    let started := closable s.cwr.writer
    let before := s.ssv.st
    let s := { s with ssv := { s.ssv with st := .emergency, timerEnd := none } }
    let s := supplyEvent .emergency before started (if started then s.ssv.budget else 0) s
    if started then settle (startClose s) else s
  else s

/-! ## SUPPLY_SET (R171) -/

/-- R171. -/
def supplySetReq (tag ride budget : Byte) (s : State) : State :=
  let r := clampNat 1 32 ride.toNat
  let b := clampNat 8 255 budget.toNat
  answer 0x32 tag (clampStatus (r != ride.toNat || b != budget.toNat)) (u8 r ++ u8 b)
    { s with ssv := { s.ssv with rideMs := r, budget := b } }

/-! ## Meanings -/

/-- SUPPLY_SET (R171). -/
def execSupplySet (tag ride budget : Byte) (s : State) : Result := takeReq s (supplySetReq tag ride budget)

/-- The rail falls below warn (R166). -/
def execRailBelowWarn (s : State) : Result := railStep .belowWarn fallBelowWarn s

/-- The rail rises to or above recover (R167, R168). -/
def execRailRecover (s : State) : Result := railStep .atRecover riseToRecover s

/-- The rail falls below recover (R168). -/
def execRailBelowRecover (s : State) : Result := railStep .belowRecover fallBelowRecover s

/-- The ride-through timer expires (R167). -/
def execRideThroughExpiry (s : State) : Result := whenUp s rideExpiry

/-- The stable time reaches 64 ms with no close running (R168). -/
def execStableTimeReached (s : State) : Result := whenUp s checkStable

end Sys2Proof.Machine
end

