-- ==== Sys2Proof/Machine/Link.lean ====
section
/-! DEFINITION. Link transactions (spec/11, sections 11.1 and 11.2): the frame of a write transaction and the request it
carries, and what a read transaction sends. -/

namespace Sys2Proof.Machine

/-! ## Requests by kind (Figure 12.3) -/

/-- The byte at offset `i` of a payload. -/
def byteAt (p : List Byte) (i : Nat) : Byte := p.getD i 0

/-- The u16 at offset `i` of a payload, least significant byte first. -/
def halfAt (p : List Byte) (i : Nat) : Half := BitVec.ofNat 16 (fieldAt p i 2)

/-- The u32 at offset `i` of a payload, least significant byte first. -/
def wordAt (p : List Byte) (i : Nat) : Word := BitVec.ofNat 32 (fieldAt p i 4)

/-- The forty bytes of the static fields from offset `i` on (Figure 12.7). -/
def ctxFieldsAt (p : List Byte) (i : Nat) : CtxFields where
  mode := byteAt p i
  shift := ⟨byteAt p (i + 1), byteAt p (i + 2), byteAt p (i + 3)⟩
  limit := ⟨wordAt p (i + 4), wordAt p (i + 8), wordAt p (i + 12)⟩
  gain := ⟨halfAt p (i + 16), halfAt p (i + 18), halfAt p (i + 20)⟩
  travel := ⟨halfAt p (i + 22), halfAt p (i + 24), halfAt p (i + 26)⟩
  lookahead := byteAt p (i + 28)
  pxX := halfAt p (i + 29)
  pxY := halfAt p (i + 31)
  marginX := halfAt p (i + 33)
  marginY := halfAt p (i + 35)
  rollMargin := halfAt p (i + 37)
  readout := byteAt p (i + 39)

/-- What the checks of R183 make of a frame. -/
inductive Parsed where
  | request (i : Instr)
  | badFrame
  | badKind
  | badLength
deriving DecidableEq, Repr

/-- A request of a kind with a payload of fixed length. -/
def fixedLength (n : Nat) (p : List Byte) (i : Instr) : Parsed := if p.length = n then .request i else .badLength

/-- R183, R202: the request of a kind, a tag and a payload. -/
def parseKind (kind tag : Byte) (p : List Byte) : Parsed :=
  match kind.toNat with
  | 0x01 => fixedLength 0 p (.ident tag)
  | 0x02 => fixedLength 2 p (.status tag (halfAt p 0))
  | 0x03 => fixedLength 0 p (.events tag)
  | 0x04 => fixedLength 4 p (.alertSet tag (halfAt p 0) (halfAt p 2))
  | 0x05 => fixedLength 0 p (.reset tag)
  | 0x06 => fixedLength 0 p (.checkin tag)
  | 0x07 => fixedLength 4 p (.guardSet tag (halfAt p 0) (halfAt p 2))
  | 0x10 => fixedLength 3 p (.stabSet tag (byteAt p 0) (byteAt p 1) (byteAt p 2))
  | 0x11 => fixedLength 6 p (.biasSet tag (halfAt p 0) (halfAt p 2) (halfAt p 4))
  | 0x12 =>
      fixedLength 8 p
        (.impactSet tag (byteAt p 0) (byteAt p 1) (halfAt p 2) (halfAt p 4) (byteAt p 6) (byteAt p 7))
  | 0x13 => fixedLength 41 p (.ctxWrite tag (byteAt p 0) (ctxFieldsAt p 1))
  | 0x14 => fixedLength 1 p (.ctxRead tag (byteAt p 0))
  | 0x15 => fixedLength 1 p (.ctxSelect tag (byteAt p 0))
  | 0x16 => fixedLength 0 p (.ctxReturn tag)
  | 0x17 => fixedLength 4 p (.frameGet tag (wordAt p 0))
  | 0x18 => fixedLength 1 p (.actEnableOn tag (byteAt p 0))
  | 0x19 => fixedLength 1 p (.actEnableOff tag (byteAt p 0))
  | 0x1A =>
      fixedLength 10 p
        (.actSet tag (byteAt p 0) (byteAt p 1) (halfAt p 2) (halfAt p 4) (byteAt p 6) (byteAt p 7) (byteAt p 8)
          (byteAt p 9))
  | 0x1B => fixedLength 4 p (.actGroup tag (byteAt p 0) (byteAt p 1) (halfAt p 2))
  | 0x1C => fixedLength 1 p (.actParkOn tag (byteAt p 0))
  | 0x1D => fixedLength 1 p (.actParkOff tag (byteAt p 0))
  | 0x20 =>
      fixedLength 18 p
        (.mount tag (wordAt p 0) (wordAt p 4) (wordAt p 8) (halfAt p 12) (halfAt p 14) (byteAt p 16) (byteAt p 17))
  | 0x21 => fixedLength 0 p (.unmount tag)
  | 0x22 => fixedLength 0 p (.recStart tag)
  | 0x23 => fixedLength 0 p (.recStop tag)
  | 0x24 => if 1 ≤ p.length ∧ p.length ≤ 16384 then .request (.data tag p) else .badLength
  | 0x25 => fixedLength 3 p (.slotRead tag (halfAt p 0) (byteAt p 2))
  | 0x26 => fixedLength 3 p (.slotLockOn tag (halfAt p 0) (byteAt p 2))
  | 0x27 => fixedLength 3 p (.slotLockOff tag (halfAt p 0) (byteAt p 2))
  | 0x28 => fixedLength 4 p (.motionRead tag (halfAt p 0) (byteAt p 2) (byteAt p 3))
  | 0x30 => fixedLength 9 p (.chargeSet tag (byteAt p 0) (halfAt p 1) (halfAt p 3) (halfAt p 5) (halfAt p 7))
  | 0x31 => fixedLength 9 p (.inputSet tag (byteAt p 0) (halfAt p 1) (halfAt p 3) (halfAt p 5) (halfAt p 7))
  | 0x32 => fixedLength 2 p (.supplySet tag (byteAt p 0) (byteAt p 1))
  | _ => .badKind

/-- The payload length a frame's third field gives, at offset 3 (Figure 12.1). -/
def frameLength (bytes : List Byte) : Nat := fieldAt bytes 3 2

/-- R183: the framing check: start byte, payload length, a whole frame, and its CRC-16. -/
def framed (bytes : List Byte) : Bool :=
  decide (7 ≤ bytes.length) && bytes.head? == some 0x5C#8 && decide (frameLength bytes ≤ 16388)
    && decide (7 + frameLength bytes ≤ bytes.length)
    && (crc16 ((bytes.drop 1).take (4 + frameLength bytes))).toNat == fieldAt bytes (5 + frameLength bytes) 2

/-- R183: the three checks in order. -/
def parseFrame (bytes : List Byte) : Parsed :=
  if framed bytes then
    parseKind (byteAt bytes 1) (byteAt bytes 2) ((bytes.drop 5).take (frameLength bytes))
  else .badFrame

/-- What a request does when it is taken (R185). -/
def runRequest (i : Instr) (s : State) : State :=
  match i with
  | .ident tag => identReq tag s
  | .status tag mask => statusReq tag mask s
  | .events tag => eventsReq tag s
  | .alertSet tag record alert => alertSetReq tag record alert s
  | .reset tag => resetReq tag s
  | .checkin tag => checkinReq tag s
  | .guardSet tag quiet window => guardSetReq tag quiet window s
  | .stabSet tag run learn still => stabSetReq tag run learn still s
  | .biasSet tag yaw pitch roll => biasSetReq tag yaw pitch roll s
  | .impactSet tag thr count rearm park pre post => impactSetReq tag thr count rearm park pre post s
  | .ctxWrite tag index fields => ctxWriteReq tag index fields s
  | .ctxRead tag index => ctxReadReq tag index s
  | .ctxSelect tag index => ctxSelectReq tag index s
  | .ctxReturn tag => ctxReturnReq tag s
  | .frameGet tag frame => frameGetReq tag frame s
  | .actEnableOn tag mask => actEnableOnReq tag mask s
  | .actEnableOff tag mask => actEnableOffReq tag mask s
  | .actSet tag chan prescaler period limit delay retry attempts retryDelay =>
      actSetReq tag chan prescaler period limit delay retry attempts retryDelay s
  | .actGroup tag mask prescaler period => actGroupReq tag mask prescaler period s
  | .actParkOn tag mask => actParkOnReq tag mask s
  | .actParkOff tag mask => actParkOffReq tag mask s
  | .mount tag base len regionId units motion quota format => mountReq tag base len regionId units motion quota format s
  | .unmount tag => unmountReq tag s
  | .recStart tag => recStartReq tag s
  | .recStop tag => recStopReq tag s
  | .data tag bytes => dataReq tag bytes s
  | .slotRead tag first count => slotReadReq tag first count s
  | .slotLockOn tag slot kind => slotLockReq 0x26 tag true slot kind s
  | .slotLockOff tag slot kind => slotLockReq 0x27 tag false slot kind s
  | .motionRead tag slot mode count => motionReadReq tag slot mode count s
  | .chargeSet tag enable target fast termination fastTimer =>
      chargeSetReq tag enable target fast termination fastTimer s
  | .inputSet tag preference usbLimit usbFloor auxLimit auxFloor =>
      inputSetReq tag preference usbLimit usbFloor auxLimit auxFloor s
  | .supplySet tag ride budget => supplySetReq tag ride budget s
  | _ => s

/-! ## Bytes on the lanes (R182) -/

/-- One half of a byte on the lanes: LD0 carries its least significant bit and LD3 its most significant. -/
def halfClock (h : BitVec 4) : LaneClock := ⟨h.getLsbD 0, h.getLsbD 1, h.getLsbD 2, h.getLsbD 3⟩

/-- The half of a byte that one lane clock carries. -/
def clockHalf (c : LaneClock) : Nat :=
  (if c.ld0 then 1 else 0) + (if c.ld1 then 2 else 0) + (if c.ld2 then 4 else 0) + (if c.ld3 then 8 else 0)

/-- The lane clocks of bytes: two a byte, the more significant half first. -/
def lanesOf : List Byte → List LaneClock
  | [] => []
  | b :: rest => halfClock (b.extractLsb' 4 4) :: halfClock (b.extractLsb' 0 4) :: lanesOf rest

/-- The bytes of lane clocks; a half byte at the end is no byte (log 51). -/
def bytesOfLanes : List LaneClock → List Byte
  | high :: low :: rest => BitVec.ofNat 8 (16 * clockHalf high + clockHalf low) :: bytesOfLanes rest
  | _ => []

/-! ## Transactions (R182 to R186) -/

/-- A framing-error reply, with the status alone (R183). -/
def errorReply (kind tag : Byte) (status : Status) (s : State) : State :=
  { s with lnk := { s.lnk with reply := some ⟨kind, tag, status, []⟩ } }

/-- The reply kind of a bad frame: the received kind byte with its top bit set, or 0xFF when none arrived. -/
def badFrameKind (bytes : List Byte) : Byte :=
  match bytes with
  | _ :: k :: _ => k ||| 0x80#8
  | _ => 0xFF#8

/-- R183: the request of a taken frame, or its error reply. -/
def takeFrame (bytes : List Byte) (s : State) : State :=
  match parseFrame bytes with
  | .request i => runRequest i s
  | .badFrame => errorReply (badFrameKind bytes) (byteAt bytes 2) .badFrame s
  | .badKind => errorReply (badFrameKind bytes) (byteAt bytes 2) .badKind s
  | .badLength => errorReply (badFrameKind bytes) (byteAt bytes 2) .badLength s

/-- R182, R186: what the part sends in a read transaction: the status byte, the reply frame when one is ready, and fill
bytes. -/
def readBytes (l : Lnk) : List Byte :=
  linkStatus l :: (match l.reply with
    | none => []
    | some r => replyFrame r)

/-- The first `n` bytes sent, with fill bytes after the frame. -/
def sentBytes (n : Nat) (l : Lnk) : List Byte :=
  (readBytes l).take n ++ List.replicate (n - (readBytes l).length) 0#8

/-- R186: the reply has been sent whole. -/
def delivered (n : Nat) (l : Lnk) : Bool := l.reply.isSome && decide ((readBytes l).length ≤ n)

/-- The link after a read transaction of `n` bytes (R186). -/
def linkAfterRead (n : Nat) (l : Lnk) : Lnk :=
  { l with
    lanes := lanesOf (sentBytes n l)
    refused := if 1 ≤ n then false else l.refused
    reply := if delivered n l then none else l.reply }

/-- What the lanes carried in the latest read transaction (log 38). -/
def keepLanes (clocks : List LaneClock) (s : State) : State := { s with lnk := { s.lnk with lanes := clocks } }

/-- R186, R200: a read transaction; the delivery of a RESET reply begins its warm reset. The transaction is whole by then,
so what it sent stands after the reset (log 38). -/
def readTransaction (n : Nat) (s : State) : State :=
  let t := { s with lnk := linkAfterRead n s.lnk }
  if delivered n s.lnk && s.lnk.resetTaken.isSome then keepLanes t.lnk.lanes (requestReset t) else t

/-- R182: what a transaction does, by its first byte. -/
def transaction (bytes : List Byte) (s : State) : Result :=
  match bytes with
  | [] => .next s
  | b :: rest => if b = 0xA5#8 then whenUp s (readTransaction rest.length) else takeReq s (takeFrame (b :: rest))

/-! ## Meanings -/

/-- A write transaction ends (R182 to R185). Bytes that open with the read code are a read transaction (log 30). -/
def execWriteTransaction (clocks : List LaneClock) (s : State) : Result := transaction (bytesOfLanes clocks) s

/-- A read transaction ends (R186). -/
def execReadTransaction (count : Nat) (s : State) : Result := whenUp s (readTransaction count)

end Sys2Proof.Machine
end

