-- ==== Sys2Proof/Machine/Transfers.lean ====
section
/-! DEFINITION. What the card answers (spec/07 section 7.2, spec/08, spec/10 section 10.3): bring-up, format pass and
header scan, completed and failed writes, reads, and the card-detect input. A completion of another kind than the
transfer under way finds nothing to complete and changes nothing (R89). -/

namespace Sys2Proof.Machine

/-! ## Mount (R97 to R102) -/

/-- R97: the mount ends in UNMOUNTED with CARD(fault). That the clip buffer's assigned total and admitted counts go with
it is the model's (DESIGN CHOICE, log 55). -/
def mountFailed (cause : CardCause) (s : State) : State := raise (.cardFault cause none) (giveUpCard .unmounted s)

/-- R102: the numbers a completed mount reports. -/
def mountedDetail (conflicts released : Nat) (s : State) : Detail :=
  .cardMounted s.sdr.entries.length (countSlots .free s.sdr.entries) (countSlots .closed s.sdr.entries)
    (countSlots .recovered s.sdr.entries) (countSlots .bad s.sdr.entries) conflicts released (quotaOf s)
    s.sdr.nextSeq s.sdr.nextRec

/-- R102: the mount completes in READY. -/
def completeMount (conflicts : Nat) (s : State) : State :=
  let r := releaseExcess s.sdr.entries.length s
  let s := setWriter .ready r.1
  settle (raise (mountedDetail conflicts r.2 s) s)

/-- R100, R101: the classification is complete. -/
def completeScan (s : State) : State :=
  let r := dropConflicts [] s.sdr.entries
  let n := nextNumbers r.1
  completeMount r.2 { s with sdr := { s.sdr with entries := r.1, nextSeq := n.1, nextRec := n.2 } }

/-- R98: the format pass is over. -/
def completeFormat (s : State) : State :=
  completeMount 0 { s with sdr := { s.sdr with nextSeq := some 1, nextRec := 1 } }

/-- The next transfer of a format pass or header scan for slot `i`, or its end. -/
def mountStep (i : Nat) (s : State) : State :=
  match s.sdr.geo with
  | none => s
  | some g =>
      if i < g.slotCount then
        if g.format then begin (.formatHeader i) (headerBlock g i) 1 (blankHeader g.regionId) s
        else begin (.scanRead i) (headerBlock g i) 1 [] s
      else if g.format then completeFormat s
      else completeScan s

/-- Slot `i` has its entry; the pass goes on. -/
def mountEntry (i : Nat) (e : Entry) (s : State) : State :=
  mountStep (i + 1) { s with
    sdr := { s.sdr with entries := s.sdr.entries ++ [e] }
    cwr := { s.cwr with port := none } }

/-- R97: bring-up has succeeded. -/
def broughtUp (capacity : Nat) (s : State) : State :=
  match s.sdr.geo with
  | none => s
  | some g =>
      if capacity < g.base + g.len then mountFailed .range s
      else mountStep 0 (setPort none s)

/-! ## Completed writes (R87, R93, R121, R123, R128, R129, R132) -/

/-- R123: a unit of the OPEN slot is counted, and every 16th asks for a checkpoint. -/
def countUnit (i : Nat) (s : State) : State :=
  if openSlot s = some i then
    let s := { s with cwr := { s.cwr with units := s.cwr.units + 1 } }
    if s.cwr.units % 16 = 0 then enqueue i s else s
  else s

/-- A write unit is on card. -/
def unitDone (i n : Nat) (s : State) : State := settle (countUnit i (unitTaken (unitWritten i n (setPort none s))))

/-- A motion block is on card. -/
def blockDone (i n : Nat) (s : State) : State := settle (blockTaken (blockWritten i n (setPort none s)))

/-- R129: the new slot's opening header ends the rollover. -/
def endRollover (i : Nat) (s : State) : State :=
  match s.cwr.stopMark with
  | none => setWriter .recording { s with cwr := { s.cwr with closeReason := none } }
  | some reason =>
      setWriter .stopping (setSlotState .closing i
        { s with cwr := { s.cwr with closeReason := some reason, stopMark := none } })

/-- R121: SLOT(opened). -/
def openedEvent (i : Nat) (s : State) : State :=
  match entryAt s i with
  | none => s
  | some e => raise (.slotOpened i (e.sequence.getD 0) (e.recId.getD 0) (e.openTime.getD 0)) s

/-- An opening header is on card. -/
def openingDone (i : Nat) (s : State) : State :=
  let s := openedEvent i (modEntry i (fun e => { e with headerWritten := true }) (setPort none s))
  settle (if s.cwr.writer = .rolling ∧ openSlot s = some i then endRollover i s else s)

/-- A CLOSED header is on card: the commit (R128), and the end of a stop (R132); in an emergency close it is the one
inherited (R173). -/
def closedDone (i : Nat) (reason : CloseReason) (s : State) : State :=
  let s := commitSlot i reason 0 [] (setPort none s)
  settle
    (match s.cwr.writer with
    | .stopping =>
        endRecording reason 0 0 (setWriter .ready { s with cwr := { s.cwr with closeReason := none } })
    | .emergencyClose => closeNext i s
    | _ => { s with cwr := { s.cwr with closeReason := none } })

/-- R178: a CLOSED header of the emergency close is on card. -/
def emClosedDone (i : Nat) (s : State) : State :=
  let spent := match s.ssv.close with
    | none => 0
    | some c => spentOf c
  settle (closeNext i (commitSlot i .emergency spent s.sdr.queue (setPort none s)))

/-- A write of the emergency close has completed (R174 to R178). -/
def emDone (s : State) : State :=
  match s.cwr.port with
  | none => s
  | some t =>
      match t.op with
      | .emUpdate _ => settle (setPort none s)
      | .emUnit i n => unitDone i n s
      | .emBlock i n => blockDone i n s
      | .emClosed i => emClosedDone i s
      | _ => s

/-! ## Failures (R126, R130, R135, R179) -/

/-- A header write that is lost in an emergency close enqueues its slot again (R179). -/
def emUpdateFailed (i : Nat) (s : State) : State := settle (closeFailed (enqueue i (setPort none s)))

/-- A write of the emergency close that fails ends its parts but the CLOSED headers (R179). -/
def emWriteFailed (s : State) : State := settle (closeFailed (setPort none s))

/-- The transfer has failed after its retries (R126, R135, R140, R173, R179). -/
def transferFailed (t : Transfer) (s : State) : State :=
  let em := s.cwr.writer == .emergencyClose
  match t.op with
  | .identify => mountFailed .bringUp s
  | .formatHeader i => mountEntry i badEntry s
  | .scanRead i => mountEntry i badEntry s
  | .headerUpdate i => if em then emUpdateFailed i s else writerFault i t.addr .header s
  | .openingHeader i => if em then emWriteFailed s else writerFault i t.addr .header s
  | .closedHeader i _ => writerFault i t.addr .header s
  | .streamUnit i _ => if em then emWriteFailed s else writerFault i t.addr .streamUnit s
  | .motionBlock i _ => if em then emWriteFailed s else writerFault i t.addr .motionBlock s
  | .hostRead wanted => settle (setPort none (if wanted then endMotionRead .notReady s else s))
  | .emUpdate i => emUpdateFailed i s
  | .emUnit _ _ => emWriteFailed s
  | .emBlock _ _ => emWriteFailed s
  | .emClosed i => writerFault i t.addr .header s

/-- The attempts a transfer may make: three, and one in an emergency close's own writes (R126, R174). -/
def attemptsFor : Xfer → Nat
  | .emUpdate _ => 1
  | .emUnit _ _ => 1
  | .emBlock _ _ => 1
  | .emClosed _ => 1
  | _ => 3

/-- R126: an attempt fails, and is retried at once or ends the transfer. -/
def attemptFailed (s : State) : State :=
  match s.cwr.port with
  | none => s
  | some t =>
      if t.attempt < attemptsFor t.op then setPort (some { t with attempt := t.attempt + 1, began := s.now }) s
      else transferFailed t s

/-- R126: the time an attempt may take, 100 ms for a read and 250 ms for a write, in ticks. -/
def attemptTicks : Xfer → Nat
  | .identify => ticksOfMs 100
  | .scanRead _ => ticksOfMs 100
  | .hostRead _ => ticksOfMs 100
  | _ => ticksOfMs 250

/-- R126: the attempt under way has not finished in its time. -/
def attemptTimeout (s : State) : State :=
  match s.cwr.port with
  | none => s
  | some t => if attemptTicks t.op ≤ since s.now t.began then attemptFailed s else s

/-- A write of the emergency close has failed (R179). -/
def emFailed (s : State) : State :=
  match s.cwr.port with
  | none => s
  | some t =>
      match t.op with
      | .emUpdate _ => transferFailed t s
      | .emUnit _ _ => transferFailed t s
      | .emBlock _ _ => transferFailed t s
      | .emClosed _ => transferFailed t s
      | _ => s

/-! ## Host reads (R139, R140) -/

/-- R139: the records asked for, from record `k` on, as read. -/
def recordsRead (k number : Nat) (blocks : List Byte) : List Byte := (blocks.drop (16 * (k % 32))).take (16 * number)

/-- R139: the cursor moves on by the number returned and wraps at the slot's end. -/
def moveCursor (i next n : Nat) (s : State) : State :=
  { s with cwr := { s.cwr with cursor := some ⟨i, if n ≤ next then 0 else next, false⟩ } }

/-- R139, R140: the read has succeeded. -/
def readDone (wanted : Bool) (blocks : List Byte) (s : State) : State :=
  let s := setPort none s
  match wanted, s.lnk.req with
  | true, some (.motionRead tag i k number taken) =>
      let n := match entryAt s i with
        | none => 0
        | some e => e.motionRecords
      settle (endHold (.motionRead tag i k number taken) .ok
        (u16 i ++ u32 k ++ u8 number ++ flag8 (decide (n ≤ k + number)) ++ recordsRead k number blocks)
        (moveCursor i (k + number) n s))
  | _, _ => settle s

/-! ## The card-detect input (R136, R137) -/

/-- 5 ms in ticks. -/
def detectTicks : Nat := ticksOfMs 5

/-- The input changes; it is timed while it differs from the presence. -/
def cdetTo (card : Bool) (s : State) : State :=
  { s with cwr := { s.cwr with
      cdet := card
      cdetSince :=
        if card = s.cwr.present then none
        else if card = s.cwr.cdet then s.cwr.cdetSince
        else some s.now } }

/-- The input has differed from the presence for 5 ms. -/
def detected (card : Bool) (s : State) : Bool :=
  match s.cwr.cdetSince with
  | none => false
  | some t => s.cwr.cdet == card && s.cwr.present != card && decide (detectTicks ≤ since s.now t)

def setPresent (card : Bool) (s : State) : State := { s with cwr := { s.cwr with present := card, cdetSince := none } }

/-- R136: a card has been inserted. -/
def inserted (s : State) : State := if detected true s then raise .cardInserted (setPresent true s) else s

/-- R137: the card has been removed. RECORD(stopped) carries budget 0 and 0 units spent, in an emergency close too
(DESIGN CHOICE, log 46). A mount that the removal ends gives up the clip buffer too (DESIGN CHOICE, log 55). -/
def removed (s : State) : State :=
  if detected false s then
    let s := setPresent false s
    if s.cwr.writer = .unmounted then raise .cardRemoved s
    else
      checkStable (endRecording .cardRemoved 0 0
        (raise .cardRemoved (giveUpCard .unmounted (endUnmount .state (endMotionRead .noCard s)))))
  else s

/-! ## Meanings -/

/-- The purpose of the transfer under way. -/
def portOp (s : State) : Option Xfer := s.cwr.port.map fun t => t.op

/-- An attempt fails (R126). -/
def execCardAttemptFailed (s : State) : Result := whenUp s attemptFailed

/-- An attempt's time runs out (R126). -/
def execCardAttemptTimeout (s : State) : Result := whenUp s attemptTimeout

/-- Identification succeeds (R97). -/
def execBringUpDone (capacity : Nat) (s : State) : Result :=
  whenUp s fun s =>
    match portOp s with
    | some .identify => broughtUp capacity s
    | _ => s

/-- A blank header is on card (R98). -/
def execFormatHeaderDone (s : State) : Result :=
  whenUp s fun s =>
    match portOp s with
    | some (.formatHeader i) => mountEntry i freeEntry s
    | _ => s

/-- A header is read (R99). -/
def execScanReadDone (block : List Byte) (s : State) : Result :=
  if s.rst.active then .next s
  else
    match portOp s, s.sdr.geo with
    | some (.scanRead i), some g =>
        if block.length = 512 then .next (mountEntry i (classify g block) s) else .fault .badBlockLength
    | _, _ => .next s

/-- What a completed write unit does (R87, R123). -/
def unitCompletion (s : State) : State :=
  match portOp s with
  | some (.streamUnit i n) => unitDone i n s
  | _ => s

/-- A write unit is on card (R87). -/
def execUnitWriteDone (s : State) : Result := whenUp s unitCompletion

/-- The unit under way is the OPEN slot's, and the one that brings its count to a multiple of 16 (R123). -/
def checkpointDue (s : State) : Bool :=
  match portOp s with
  | some (.streamUnit i _) => openSlot s == some i && (s.cwr.units + 1) % 16 == 0
  | _ => false

/-- The write unit that asks for a checkpoint is on card (R123). -/
def execCheckpoint (s : State) : Result := whenUp s (stepThat (fun s _ => checkpointDue s) unitCompletion)

/-- A motion block is on card (R93). -/
def execBlockWriteDone (s : State) : Result :=
  whenUp s fun s =>
    match portOp s with
    | some (.motionBlock i n) => blockDone i n s
    | _ => s

/-- A header update is on card (R114, R116). -/
def execHeaderUpdateDone (s : State) : Result :=
  whenUp s fun s =>
    match portOp s with
    | some (.headerUpdate _) => settle (setPort none s)
    | _ => s

/-- An opening header is on card (R121). -/
def execOpeningHeaderDone (s : State) : Result :=
  whenUp s fun s =>
    match portOp s with
    | some (.openingHeader i) => openingDone i s
    | _ => s

/-- A CLOSED header is on card (R128). -/
def execClosedHeaderDone (s : State) : Result :=
  whenUp s fun s =>
    match portOp s with
    | some (.closedHeader i reason) => closedDone i reason s
    | _ => s

/-- A host read succeeds (R139). -/
def execHostReadDone (blocks : List Byte) (s : State) : Result :=
  if s.rst.active then .next s
  else
    match s.cwr.port with
    | none => .next s
    | some t =>
        match t.op with
        | .hostRead wanted =>
            if blocks.length = 512 * t.blocks then .next (readDone wanted blocks s) else .fault .badBlockLength
        | _ => .next s

/-- A write of the emergency close completes (R174). -/
def execEmergencyWriteDone (s : State) : Result := whenUp s emDone

/-- A write of the emergency close fails (R179). -/
def execEmergencyWriteFailed (s : State) : Result := whenUp s emFailed

/-- The card-detect input changes (R136); it is a pin, so it moves in reset too. -/
def execCdetChange (card : Bool) (s : State) : Result := .next (cdetTo card s)

/-- The card has been there for 5 ms (R136). -/
def execCardInserted (s : State) : Result := whenUp s inserted

/-- The card has been away for 5 ms (R137). -/
def execCardRemoved (s : State) : Result := whenUp s removed

end Sys2Proof.Machine
end

