-- ==== Sys2Proof/Machine/Dispatch.lean ====
section
/-! DEFINITION. The meaning of each command: one arm per constructor of `Instr`, each one call of its meaning. -/

namespace Sys2Proof.Machine

/-- What a command does to everything but the queue. -/
def exec (i : Instr) (s : State) : Host.Outcome State Fault Refusal :=
  match i with
  | .ident tag => Sys2Proof.Machine.execIdent tag s
  | .status tag mask => Sys2Proof.Machine.execStatus tag mask s
  | .events tag => Sys2Proof.Machine.execEvents tag s
  | .alertSet tag record alert => Sys2Proof.Machine.execAlertSet tag record alert s
  | .reset tag => Sys2Proof.Machine.execReset tag s
  | .checkin tag => Sys2Proof.Machine.execCheckin tag s
  | .guardSet tag quiet window => Sys2Proof.Machine.execGuardSet tag quiet window s
  | .stabSet tag run learn still => Sys2Proof.Machine.execStabSet tag run learn still s
  | .biasSet tag yaw pitch roll => Sys2Proof.Machine.execBiasSet tag yaw pitch roll s
  | .impactSet tag thr count rearm park pre post => Sys2Proof.Machine.execImpactSet tag thr count rearm park pre post s
  | .ctxWrite tag index fields => Sys2Proof.Machine.execCtxWrite tag index fields s
  | .ctxRead tag index => Sys2Proof.Machine.execCtxRead tag index s
  | .ctxSelect tag index => Sys2Proof.Machine.execCtxSelect tag index s
  | .ctxReturn tag => Sys2Proof.Machine.execCtxReturn tag s
  | .frameGet tag frame => Sys2Proof.Machine.execFrameGet tag frame s
  | .actEnableOn tag mask => Sys2Proof.Machine.execActEnableOn tag mask s
  | .actEnableOff tag mask => Sys2Proof.Machine.execActEnableOff tag mask s
  | .actSet tag chan prescaler period limit delay retry attempts retryDelay => Sys2Proof.Machine.execActSet tag chan prescaler period limit delay retry attempts retryDelay s
  | .actGroup tag mask prescaler period => Sys2Proof.Machine.execActGroup tag mask prescaler period s
  | .actParkOn tag mask => Sys2Proof.Machine.execActParkOn tag mask s
  | .actParkOff tag mask => Sys2Proof.Machine.execActParkOff tag mask s
  | .mount tag base len regionId units motion quota format => Sys2Proof.Machine.execMount tag base len regionId units motion quota format s
  | .unmount tag => Sys2Proof.Machine.execUnmount tag s
  | .recStart tag => Sys2Proof.Machine.execRecStart tag s
  | .recStop tag => Sys2Proof.Machine.execRecStop tag s
  | .data tag bytes => Sys2Proof.Machine.execData tag bytes s
  | .slotRead tag first count => Sys2Proof.Machine.execSlotRead tag first count s
  | .slotLockOn tag slot kind => Sys2Proof.Machine.execSlotLockOn tag slot kind s
  | .slotLockOff tag slot kind => Sys2Proof.Machine.execSlotLockOff tag slot kind s
  | .motionRead tag slot mode count => Sys2Proof.Machine.execMotionRead tag slot mode count s
  | .chargeSet tag enable target fast termination fastTimer => Sys2Proof.Machine.execChargeSet tag enable target fast termination fastTimer s
  | .inputSet tag preference usbLimit usbFloor auxLimit auxFloor => Sys2Proof.Machine.execInputSet tag preference usbLimit usbFloor auxLimit auxFloor s
  | .supplySet tag ride budget => Sys2Proof.Machine.execSupplySet tag ride budget s
  | .writeTransaction clocks => Sys2Proof.Machine.execWriteTransaction clocks s
  | .readTransaction count => Sys2Proof.Machine.execReadTransaction count s
  | .tick => Sys2Proof.Machine.execTick s
  | .sensorReadDone sample => Sys2Proof.Machine.execSensorReadDone sample s
  | .sensorLost => Sys2Proof.Machine.execSensorLost s
  | .sensorRestored => Sys2Proof.Machine.execSensorRestored s
  | .biasLearned => Sys2Proof.Machine.execBiasLearned s
  | .impactQualify => Sys2Proof.Machine.execImpactQualify s
  | .rearmHoldExpiry => Sys2Proof.Machine.execRearmHoldExpiry s
  | .impactParkExpiry => Sys2Proof.Machine.execImpactParkExpiry s
  | .fsyncEdge => Sys2Proof.Machine.execFsyncEdge s
  | .cropSample => Sys2Proof.Machine.execCropSample s
  | .frameGetTimeout => Sys2Proof.Machine.execFrameGetTimeout s
  | .pwmPeriodStart chan => Sys2Proof.Machine.execPwmPeriodStart chan s
  | .ocComparatorChange chan above => Sys2Proof.Machine.execOcComparatorChange chan above s
  | .overcurrentFault chan cycles => Sys2Proof.Machine.execOvercurrentFault chan cycles s
  | .retryDelayExpiry chan => Sys2Proof.Machine.execRetryDelayExpiry chan s
  | .cleanRunExpiry chan => Sys2Proof.Machine.execCleanRunExpiry chan s
  | .scanConversion reading => Sys2Proof.Machine.execScanConversion reading s
  | .batteryAbsent => Sys2Proof.Machine.execBatteryAbsent s
  | .batteryPresent tBat => Sys2Proof.Machine.execBatteryPresent tBat s
  | .sourcePresent src tDie => Sys2Proof.Machine.execSourcePresent src tDie s
  | .sourceLost src tDie => Sys2Proof.Machine.execSourceLost src tDie s
  | .iEffRaise tDie => Sys2Proof.Machine.execIEffRaise tDie s
  | .chargeDone tDie => Sys2Proof.Machine.execChargeDone tDie s
  | .cardAttemptFailed => Sys2Proof.Machine.execCardAttemptFailed s
  | .cardAttemptTimeout => Sys2Proof.Machine.execCardAttemptTimeout s
  | .bringUpDone capacity => Sys2Proof.Machine.execBringUpDone capacity s
  | .formatHeaderDone => Sys2Proof.Machine.execFormatHeaderDone s
  | .scanReadDone block => Sys2Proof.Machine.execScanReadDone block s
  | .unitWriteDone => Sys2Proof.Machine.execUnitWriteDone s
  | .checkpoint => Sys2Proof.Machine.execCheckpoint s
  | .blockWriteDone => Sys2Proof.Machine.execBlockWriteDone s
  | .headerUpdateDone => Sys2Proof.Machine.execHeaderUpdateDone s
  | .openingHeaderDone => Sys2Proof.Machine.execOpeningHeaderDone s
  | .closedHeaderDone => Sys2Proof.Machine.execClosedHeaderDone s
  | .hostReadDone blocks => Sys2Proof.Machine.execHostReadDone blocks s
  | .motionReadTimeout => Sys2Proof.Machine.execMotionReadTimeout s
  | .cdetChange card => Sys2Proof.Machine.execCdetChange card s
  | .cardInserted => Sys2Proof.Machine.execCardInserted s
  | .cardRemoved => Sys2Proof.Machine.execCardRemoved s
  | .railBelowWarn => Sys2Proof.Machine.execRailBelowWarn s
  | .railRecover => Sys2Proof.Machine.execRailRecover s
  | .railBelowRecover => Sys2Proof.Machine.execRailBelowRecover s
  | .rideThroughExpiry => Sys2Proof.Machine.execRideThroughExpiry s
  | .emergencyWriteDone => Sys2Proof.Machine.execEmergencyWriteDone s
  | .emergencyWriteFailed => Sys2Proof.Machine.execEmergencyWriteFailed s
  | .stableTimeReached => Sys2Proof.Machine.execStableTimeReached s
  | .brownout => Sys2Proof.Machine.execBrownout s
  | .powerOnResetEnd rail => Sys2Proof.Machine.execPowerOnResetEnd rail s
  | .rstnLow => Sys2Proof.Machine.execRstnLow s
  | .rstnHigh => Sys2Proof.Machine.execRstnHigh s
  | .resetWaitExpiry => Sys2Proof.Machine.execResetWaitExpiry s
  | .quietTimerExpiry => Sys2Proof.Machine.execQuietTimerExpiry s
  | .windowTimerExpiry => Sys2Proof.Machine.execWindowTimerExpiry s
  | .railBelowPowerOnLevel => Sys2Proof.Machine.execRailBelowPowerOnLevel s

end Sys2Proof.Machine
end

