-- ==== Sys2Proof/Machine/HostFrames.lean ====
section
/-! DEFINITION. The frames a host sends (spec/12_formats.md, 12.2 and Figure 12.3): the kind, tag and payload of each
request, and its whole frame. The part only reads frames (Machine/Link.lean); claims are stated in terms of these. -/

namespace Sys2Proof.Machine

/-- The 16-bit field of a request. -/
def halfBytes (h : Half) : List Byte := u16 h.toNat

/-- The 32-bit field of a request. -/
def wordBytes (w : Word) : List Byte := u32 w.toNat

/-- The kind, the tag and the payload of a request; none for a command that no frame carries. -/
def requestParts : Instr → Option (Byte × Byte × List Byte)
  | .ident tag => some (0x01, tag, [])
  | .status tag mask => some (0x02, tag, halfBytes mask)
  | .events tag => some (0x03, tag, [])
  | .alertSet tag record alert => some (0x04, tag, halfBytes record ++ halfBytes alert)
  | .reset tag => some (0x05, tag, [])
  | .checkin tag => some (0x06, tag, [])
  | .guardSet tag quiet window => some (0x07, tag, halfBytes quiet ++ halfBytes window)
  | .stabSet tag run learn still => some (0x10, tag, [run, learn, still])
  | .biasSet tag yaw pitch roll => some (0x11, tag, halfBytes yaw ++ halfBytes pitch ++ halfBytes roll)
  | .impactSet tag thr count rearm park pre post =>
      some (0x12, tag, [thr, count] ++ halfBytes rearm ++ halfBytes park ++ [pre, post])
  | .ctxWrite tag index fields => some (0x13, tag, [index] ++ ctxFieldsBytes fields)
  | .ctxRead tag index => some (0x14, tag, [index])
  | .ctxSelect tag index => some (0x15, tag, [index])
  | .ctxReturn tag => some (0x16, tag, [])
  | .frameGet tag frame => some (0x17, tag, wordBytes frame)
  | .actEnableOn tag mask => some (0x18, tag, [mask])
  | .actEnableOff tag mask => some (0x19, tag, [mask])
  | .actSet tag chan prescaler period limit delay retry attempts retryDelay =>
      some (0x1A, tag, [chan, prescaler] ++ halfBytes period ++ halfBytes limit
        ++ [delay, retry, attempts, retryDelay])
  | .actGroup tag mask prescaler period => some (0x1B, tag, [mask, prescaler] ++ halfBytes period)
  | .actParkOn tag mask => some (0x1C, tag, [mask])
  | .actParkOff tag mask => some (0x1D, tag, [mask])
  | .mount tag base len regionId units motion quota format =>
      some (0x20, tag, wordBytes base ++ wordBytes len ++ wordBytes regionId ++ halfBytes units ++ halfBytes motion
        ++ [quota, format])
  | .unmount tag => some (0x21, tag, [])
  | .recStart tag => some (0x22, tag, [])
  | .recStop tag => some (0x23, tag, [])
  | .data tag bytes => some (0x24, tag, bytes)
  | .slotRead tag first count => some (0x25, tag, halfBytes first ++ [count])
  | .slotLockOn tag slot kind => some (0x26, tag, halfBytes slot ++ [kind])
  | .slotLockOff tag slot kind => some (0x27, tag, halfBytes slot ++ [kind])
  | .motionRead tag slot mode count => some (0x28, tag, halfBytes slot ++ [mode, count])
  | .chargeSet tag enable target fast termination fastTimer =>
      some (0x30, tag, [enable] ++ halfBytes target ++ halfBytes fast ++ halfBytes termination ++ halfBytes fastTimer)
  | .inputSet tag preference usbLimit usbFloor auxLimit auxFloor =>
      some (0x31, tag, [preference] ++ halfBytes usbLimit ++ halfBytes usbFloor ++ halfBytes auxLimit
        ++ halfBytes auxFloor)
  | .supplySet tag ride budget => some (0x32, tag, [ride, budget])
  | .writeTransaction _ => none
  | .readTransaction _ => none
  | .tick => none
  | .sensorReadDone _ => none
  | .sensorLost => none
  | .sensorRestored => none
  | .biasLearned => none
  | .impactQualify => none
  | .rearmHoldExpiry => none
  | .impactParkExpiry => none
  | .fsyncEdge => none
  | .cropSample => none
  | .frameGetTimeout => none
  | .pwmPeriodStart _ => none
  | .ocComparatorChange _ _ => none
  | .overcurrentFault _ _ => none
  | .retryDelayExpiry _ => none
  | .cleanRunExpiry _ => none
  | .scanConversion _ => none
  | .batteryAbsent => none
  | .batteryPresent _ => none
  | .sourcePresent _ _ => none
  | .sourceLost _ _ => none
  | .iEffRaise _ => none
  | .chargeDone _ => none
  | .cardAttemptFailed => none
  | .cardAttemptTimeout => none
  | .bringUpDone _ => none
  | .formatHeaderDone => none
  | .scanReadDone _ => none
  | .unitWriteDone => none
  | .checkpoint => none
  | .blockWriteDone => none
  | .headerUpdateDone => none
  | .openingHeaderDone => none
  | .closedHeaderDone => none
  | .hostReadDone _ => none
  | .motionReadTimeout => none
  | .cdetChange _ => none
  | .cardInserted => none
  | .cardRemoved => none
  | .railBelowWarn => none
  | .railRecover => none
  | .railBelowRecover => none
  | .rideThroughExpiry => none
  | .emergencyWriteDone => none
  | .emergencyWriteFailed => none
  | .stableTimeReached => none
  | .brownout => none
  | .powerOnResetEnd _ => none
  | .rstnLow => none
  | .rstnHigh => none
  | .resetWaitExpiry => none
  | .quietTimerExpiry => none
  | .windowTimerExpiry => none
  | .railBelowPowerOnLevel => none

/-- The kind, tag, length and payload of a frame, over which its CRC-16 runs (R203). -/
def frameBody (kind tag : Byte) (payload : List Byte) : List Byte := [kind, tag] ++ u16 payload.length ++ payload

/-- A whole frame (Figure 12.1). -/
def frameBytes (kind tag : Byte) (payload : List Byte) : List Byte :=
  [0x5C#8] ++ frameBody kind tag payload ++ u16 (crc16 (frameBody kind tag payload)).toNat

/-- The frame of a request; empty for a command that no frame carries. -/
def requestFrame (i : Instr) : List Byte :=
  match requestParts i with
  | none => []
  | some r => frameBytes r.1 r.2.1 r.2.2

/-- A command that arrives as a request frame. -/
def isRequest (i : Instr) : Bool := (requestParts i).isSome

end Sys2Proof.Machine
end

