-- ==== Sys2Proof/WellFormed.lean ====
section
/-! DEFINITION. Which commands a host, a sensor or a card can send at all. The widths of the link's fields are in the
types of `Instr`; what is left is said here. A refused term is still given an outcome by `Machine.exec`. -/

namespace Sys2Proof

/-- The bytes in one card block (spec/00_scope.md, Time base and units). -/
def blockBytes : Nat := 512

/-- The two lane clocks of the read code 0xA5: its more significant half first, LD0 the least significant bit (R182). -/
def readCodeClocks : List LaneClock := [⟨false, true, false, true⟩, ⟨true, false, true, false⟩]

/-- True of every command that can arrive: a DATA payload of 1..16,384 bytes (R82), card data in whole 512-byte
blocks (R99, R139), a capacity that a 32-bit block address can reach (spec/00_scope.md), a write transaction that does
not open with the read code 0xA5 (R182), and a rail that is not below the brownout level when a power-on reset's cause
ends (R198). -/
def wellFormed : Instr → Bool
  | .data _ bytes => 1 ≤ bytes.length && bytes.length ≤ 16384
  | .scanReadDone block => block.length == blockBytes
  | .hostReadDone blocks => blocks.length == blockBytes || blocks.length == 2 * blockBytes
  | .bringUpDone capacity => capacity ≤ 4294967296
  | .writeTransaction clocks => clocks.take 2 != readCodeClocks
  | .powerOnResetEnd rail => rail != .belowPowerOn && rail != .belowBrownout
  | _ => true

/-- `wellFormed` as a proposition. -/
abbrev WellFormed (i : Instr) : Prop := wellFormed i = true

end Sys2Proof
end

