-- ==== Sys2Proof/Safety.lean ====
section
/-! DEFINITION. The terms claims are stated in: when a command is taken, and the laws of the device (spec/95, spec/00)
as properties of a state. Each says of every state what the spec says of the part. -/

namespace Sys2Proof.Machine

/-! ## When a command acts -/

/-- The part is not held in reset (R197). -/
def Awake (s : State) : Prop := s.rst.active = false

/-- Both link slots are empty (R184). -/
def LinkFree (s : State) : Prop := s.lnk.req = none ∧ s.lnk.reply = none

/-- A request that arrives now is taken (R182, R184). -/
def Takes (s : State) : Prop := Awake s ∧ LinkFree s

/-- The event set after the event `d` (R190). -/
def eventsWith (d : Detail) (s : State) : EventSet := (raiseIn s.lnk d).events

/-- The rows whose input is a pin or the rail, which move while the part is held in reset too. -/
def movesInReset : Instr → Bool
  | .ocComparatorChange _ _ => true
  | .cdetChange _ => true
  | .railBelowWarn => true
  | .railRecover => true
  | .railBelowRecover => true
  | .brownout => true
  | .powerOnResetEnd _ => true
  | .rstnLow => true
  | .rstnHigh => true
  | .railBelowPowerOnLevel => true
  | _ => false

/-! ## What a rule makes of one value, said apart from the operations that do it -/

/-- R10: an angle that has left the half turn comes back into it. -/
def wrapTurn (a : Int) : Int :=
  if 11796480 < a then a - 23592960 else if a < -11796480 then a + 23592960 else a

/-- R61: a channel when reason `r` is added to its set. -/
def parkedBy (r : ParkReason) (ch : Channel) : Channel :=
  if ch.st = .active then
    { ch with
      park := parkPut ch.park r true
      st := .parked
      waiting := some 0
      finalPeriod := true
      cleanStart := none }
  else { ch with park := parkPut ch.park r true }

/-- R62: a channel when reason `r` is removed from its set at `now`. -/
def unparkedBy (r : ParkReason) (now : Word) (ch : Channel) : Channel :=
  if ch.st = .parked ∧ parkHas ch.park r = true ∧ parkEmpty (parkPut ch.park r false) = true then
    { ch with
      park := parkPut ch.park r false
      st := .active
      finalPeriod := false
      cleanStart := some now }
  else { ch with park := parkPut ch.park r false }

/-- R59, R68: a channel taken to a state in which it drives nothing. -/
def haltedIn (st : ChanState) (ch : Channel) : Channel :=
  { ch with
    st := st
    waiting := none
    applied := 0
    duty := 0
    finalPeriod := false
    qual := 0
    retryEnd := none
    cleanStart := none }

/-- R58, R66: the state a channel that is switched on enters. -/
def onState (ch : Channel) : ChanState := if parkEmpty ch.park = true then .active else .parked

/-- The channels a valid mask names (R58). -/
def named (mask : Byte) : Chan → Bool
  | .sx => mask.getLsbD 0
  | .sy => mask.getLsbD 1
  | .rt => mask.getLsbD 2

/-- R47, one axis: the path a commit takes up, the angle or the saved path at the turn nearest it. -/
def pathNear (saved : Option Int) (a : Int) : Int :=
  match saved with
  | none => a
  | some v => if 11796480 < a - v then v + 23592960 else if a - v < -11796480 then v - 23592960 else v

/-- R47, one axis: the path loaded at a commit, from the saved path where there is one, clamped to the limit. -/
def pathLoaded (saved : Option Int) (limit : Word) (a : Int) : Int :=
  let p := pathNear saved a
  if (limit.toNat : Int) < a - p then a - limit.toNat
  else if a - p < -(limit.toNat : Int) then a + limit.toNat
  else p

/-- R158: the derated target current of a charging phase, from the battery zone, the side of the die boundary B70 and
the fast current. -/
def targetAfter (zone : BatZone) (b70 : Bool) (phase : Phase) (fast : Nat) : Nat :=
  let halved (n : Nat) : Nat := max 25 (n / 2 / 25 * 25)
  let base := if phase = .precharge then max 25 (fast / 10 / 25 * 25) else fast
  let one := if zone = .cool ∨ zone = .warm then halved base else base
  if b70 = true then halved one else one

/-- R161: a charger whose derated target current has come to `d` between notices. -/
def loweredTo (d : Nat) (g : Chg) : Chg :=
  if g.phase = .precharge ∨ g.phase = .fastCc ∨ g.phase = .fastCv then
    { g with iCmd := min g.iCmd (d / 25 * 25), derated := min g.derated d }
  else g

/-- R150: the pause-reason set `p` has a reason that the charger's has not, in a phase that this pauses. -/
def pausesAt (p : PauseSet) (g : Chg) : Bool :=
  (p.batCold && !g.pause.batCold || p.batHot && !g.pause.batHot || p.die && !g.pause.die || p.supply && !g.pause.supply)
    && (g.phase == .precharge || g.phase == .fastCc || g.phase == .fastCv || g.phase == .done)

/-- R159: the event of the charger's change to the phase `after`, its cycle phase and fault cause then given. -/
def chargeDetail (s : State) (before after : Phase) (p : PauseSet) (cycle : Option Cycle) (cause : Option ChargeFault) :
    Detail :=
  .charge before after p cycle cause (inputAvg s.scn.vBat) (inputAvg s.scn.iBat) s.chg.preTicks s.chg.fastTicks s.now

/-- R150, R159: from `s` to `t` the charger's pause reasons have become `p`: a reason added in PRECHARGE, FAST_CC, FAST_CV
or DONE has paused it at once, with one CHARGE event; else it is `g`, and no CHARGE event came. -/
def ReasonsBecome (p : PauseSet) (g : Chg) (s t : State) : Prop :=
  (pausesAt p s.chg = true →
    t.chg = { s.chg with pause := p, phase := .paused, iCmd := 0, term := 0 } ∧
      (s.lnk.recordMask.getLsbD 6 = true →
        t.lnk.events.charge = ⟨min 255 (s.lnk.events.charge.count + 1),
          some (chargeDetail s s.chg.phase .paused p s.chg.cycle none)⟩)) ∧
    (pausesAt p s.chg = false → t.chg = g ∧ t.lnk.events.charge = s.lnk.events.charge)

/-! ## What a command leaves as it was -/

/-- The clock, the reset unit and the queue. -/
def KeepsClock (s t : State) : Prop := t.now = s.now ∧ t.rst = s.rst ∧ t.pending = s.pending

/-- The motion sampling unit, the correction split unit and the context table. -/
def KeepsMotion (s t : State) : Prop := t.msu = s.msu ∧ t.csu = s.csu ∧ t.ctx = s.ctx

/-- The scan, the selector, the charger and the supply supervisor. -/
def KeepsPower (s t : State) : Prop := t.scn = s.scn ∧ t.ips = s.ips ∧ t.chg = s.chg ∧ t.ssv = s.ssv

/-- The clip buffer, the slot directory and the card writer. -/
def KeepsCard (s t : State) : Prop := t.cbf = s.cbf ∧ t.sdr = s.sdr ∧ t.cwr = s.cwr

/-- A directory entry without its Queued field. -/
def unqueued (e : Entry) : Entry := { e with queued := false }

/-- The entries with the `i`th rewritten by `f`. -/
def rewritten (i : Nat) (f : Entry → Entry) (es : List Entry) : List Entry :=
  es.mapIdx fun j e => if j = i then f e else e

/-- All of the card side but what granting the port changes: the transfer under way, the header update queue and the
entries' Queued fields, the stream run count and the record of what is offered (R114, R125). -/
def KeepsCardButPort (s t : State) : Prop :=
  t.cbf = s.cbf ∧
    t.sdr = { s.sdr with entries := t.sdr.entries, queue := t.sdr.queue } ∧
    t.sdr.entries.map unqueued = s.sdr.entries.map unqueued ∧
    t.cwr = { s.cwr with
      port := t.cwr.port
      run := t.cwr.run
      offUnit := t.cwr.offUnit
      offBlock := t.cwr.offBlock
      blockFirst := t.cwr.blockFirst }

/-- The link but for the reply slot. -/
def KeepsLinkButReply (s t : State) : Prop := t.lnk = { s.lnk with reply := t.lnk.reply }

/-! ## What the arbiter grants, said of the state it finds (R114, R121, R122, R124, R125, R128, R139) -/

/-- The state the arbiter finds when the command that leads from `s` to `t` has done all but grant the port: `t` with the
port free, and the queue, the run count and the record of what is offered as they stand in `s`. -/
def beforeGrant (s t : State) : State :=
  { t with
    sdr := { t.sdr with queue := s.sdr.queue }
    cwr := { t.cwr with
      port := none
      run := s.cwr.run
      offUnit := s.cwr.offUnit
      offBlock := s.cwr.offBlock
      blockFirst := s.cwr.blockFirst } }

/-- A header write of slot `i`, its bytes formed from the slot's entry (R95, R114). -/
def headerTransfer (op : Xfer) (bytes : Entry → List Byte) (g : Geometry) (i : Nat) (u : State) : Option Transfer :=
  (entryAt u i).map fun e => ⟨op, headerBlock g i, 1, bytes e, 1, u.now⟩

/-- A write of the offered unit `o` (R122). -/
def unitTransfer (op : Xfer) (g : Geometry) (o : Offer) (u : State) : Transfer :=
  ⟨op, unitBlock g o.slot o.number, 128, unitData o.real u.cbf, 1, u.now⟩

/-- A write of the offered block `o` (R122). -/
def blockTransfer (op : Xfer) (g : Geometry) (o : Offer) (u : State) : Transfer :=
  ⟨op, motionBlock g o.slot o.number, 1, blockData o.real u.cbf, 1, u.now⟩

/-- R139: the read of a held MOTION_READ: the blocks that hold its records. -/
def readTransfer (g : Geometry) (u : State) : Option Transfer :=
  match u.lnk.req with
  | some (.motionRead _ i k n _) =>
      some ⟨.hostRead true, motionBlock g i (k / 32), max 1 ((k % 32 + n + 31) / 32), [], 1, u.now⟩
  | _ => none

/-- R114: the slot of the queue whose header is written next. -/
def nextUpdate (u : State) : Option Nat := u.sdr.queue.find? (needsUpdate u)

/-- R125, 4: of a unit and a block that are both offered, the block was offered before the unit. -/
def blockEarlier (u : State) : Bool := u.cwr.offBlock && (!u.cwr.offUnit || u.cwr.blockFirst)

/-- R125, 4: the unit or the block, the one offered first. -/
def dataTransfer (g : Geometry) (u : State) : Option Transfer :=
  let unit := (readyUnit u).map fun o => unitTransfer (.streamUnit o.slot o.real) g o u
  let block := (readyBlock u).map fun o => blockTransfer (.motionBlock o.slot o.real) g o u
  if blockEarlier u then block.or unit else unit.or block

/-- R121, R128: the CLOSED header of the CLOSING slot, once its opening header is on card and nothing of it waits; its
reason is the one the slot is closed with. -/
def closedTransfer (g : Geometry) (u : State) : Option Transfer :=
  let reason := u.cwr.closeReason.getD .full
  let ready := (closingSlot u).filter fun i =>
    headerWritten u i && bytesOf i u.cbf.segs == 0 && pendingOf i u.cbf.pend == 0
  ready.bind fun i => headerTransfer (.closedHeader i reason) (closedHeader g.regionId (reasonCode reason)) g i u

/-- R121, R128: an opening header that is due, of the CLOSING slot or, with none, of the OPEN slot. -/
def openingTransfer (g : Geometry) (u : State) : Option Transfer :=
  let due := ((closingSlot u).or (openSlot u)).filter fun i => !headerWritten u i
  due.bind fun i => headerTransfer (.openingHeader i) (openHeader g.regionId) g i u

/-- R125: what the arbiter grants the free port to, in its order. -/
def grantOf (g : Geometry) (u : State) : Option Transfer :=
  let update := (nextUpdate u).bind fun i => headerTransfer (.headerUpdate i) (updateHeader g) g i u
  let read := readTransfer g u
  let early := if u.cwr.run = 4 then read else none
  update.or ((closedTransfer g u).or ((openingTransfer g u).or (early.or ((dataTransfer g u).or read))))

/-- R125: the stream run count after a grant. -/
def runAfter (run : Nat) (x : Option Transfer) : Nat :=
  match x.map Transfer.op with
  | some (.streamUnit _ _) => min 4 (run + 1)
  | some (.motionBlock _ _) => min 4 (run + 1)
  | some (.hostRead _) => 0
  | _ => run

/-- R114, R125: the queue after a grant: what stands before the entry taken needs no write and leaves it too. -/
def queueAfter (u : State) : List Nat := (u.sdr.queue.dropWhile fun j => !needsUpdate u j).drop 1

/-- R125: the arbiter, finding `u`, has granted the port in `t`. -/
def ArbiterGrants (u t : State) : Prop :=
  ∀ g, u.sdr.geo = some g →
    t.cwr.port = grantOf g u ∧ t.cwr.run = runAfter u.cwr.run (grantOf g u) ∧ t.sdr.queue = queueAfter u

/-! ## What an emergency close does next (R174 to R178, R181) -/

/-- The next step of an emergency close: a header update, a unit, a block, the CLOSED header of slot `k`, or its end. -/
inductive CloseStep where
  | update (i : Nat)
  | unit (o : Offer)
  | block (o : Offer)
  | header (k : Nat)
  | over
deriving DecidableEq, Repr

/-- Figure 10.4: a write that needs `n` units above the reserve is made; after a failure none but a CLOSED header is. -/
def closeMay (c : EmergencyClose) (n : Nat) : Bool := !c.failed && decide (n ≤ c.left - 2 * c.todo.length)

/-- The first part of the close is not over (R175). -/
def closeInUpdates (c : EmergencyClose) : Bool := !c.failed && (c.part == .inherited || c.part == .updates)

/-- R176 to R178: the next write for the first slot still to be closed. -/
def closeSlotStep (c : EmergencyClose) (u : State) : CloseStep :=
  match c.todo with
  | [] => .over
  | k :: _ =>
      let unit := (readyUnit u).filter fun o => o.slot == k && c.part != .motion && closeMay c 7
      let block := (readyBlock u).filter fun o => o.slot == k && closeMay c 1
      match unit, block with
      | some o, _ => .unit o
      | none, some o => .block o
      | none, none => .header k

/-- R175 to R178: the next step of the close `c` that finds `u`. -/
def closeStep (c : EmergencyClose) (u : State) : CloseStep :=
  match nextUpdate u with
  | some i => if closeInUpdates c && closeMay c 2 then .update i else closeSlotStep c u
  | none => closeSlotStep c u

/-- The close `c`, finding `u`, has charged `n` units in `t` and begun the transfer `x` of its part. -/
def CloseBegins (c : EmergencyClose) (u t : State) (n : Nat) (part : ClosePart) (x : Option Transfer) : Prop :=
  t.ssv = { u.ssv with close := some { c with left := c.left - n, part := part } } ∧ t.cwr.port = x ∧
    t.cwr.writer = u.cwr.writer ∧ t.lnk = u.lnk ∧ t.adu = u.adu ∧ t.chg = u.chg

/-- R175: the queue when no update is written: in the first part what needs no write has left its head. -/
def closeQueue (c : EmergencyClose) (u : State) : List Nat :=
  if closeInUpdates c then u.sdr.queue.dropWhile fun j => !needsUpdate u j else u.sdr.queue

/-- R176: slot `k`'s entry when the stream part of the close is over: what is left in the ring counts as lost. -/
def streamLost (c : EmergencyClose) (u : State) (k : Nat) (e : Entry) : Entry :=
  if c.part = .motion then e else { e with lostBytes := min 4294967295 (e.lostBytes + bytesOf k u.cbf.segs) }

/-- R176: the ring then. -/
def streamGone (c : EmergencyClose) (u : State) (k : Nat) : List Segment :=
  if c.part = .motion then u.cbf.segs else u.cbf.segs.filter fun g => g.slot != k

/-- R174 to R178, R181: what the emergency close `c` does on the free port of `u`, as the state `t` after it. -/
def CloseGoesOn (c : EmergencyClose) (u t : State) : Prop :=
  ∀ g, u.sdr.geo = some g →
    match closeStep c u with
    | .update i =>
        CloseBegins c u t 2 .updates (headerTransfer (.emUpdate i) (updateHeader g) g i u) ∧ t.cbf = u.cbf ∧
          t.sdr.queue = queueAfter u ∧ t.sdr.entries.map unqueued = u.sdr.entries.map unqueued
    | .unit o =>
        CloseBegins c u t 6 .stream (some (unitTransfer (.emUnit o.slot o.real) g o u)) ∧ t.cbf = u.cbf ∧
          t.sdr.queue = closeQueue c u ∧ t.sdr.entries.map unqueued = u.sdr.entries.map unqueued
    | .block o =>
        CloseBegins c u t 1 .motion (some (blockTransfer (.emBlock o.slot o.real) g o u)) ∧
          t.cbf = { u.cbf with segs := streamGone c u o.slot } ∧ t.sdr.queue = closeQueue c u ∧
          ∀ j, (entryAt t j).map unqueued =
            (entryAt u j).map fun e => unqueued (if j = o.slot then streamLost c u j e else e)
    | .header k =>
        CloseBegins c u t 2 .header
            (headerTransfer (.emClosed k) (closedHeader g.regionId (reasonCode .emergency)) g k t) ∧
          t.cbf = { u.cbf with segs := streamGone c u k, pend := u.cbf.pend.filter fun r => r.slot != k } ∧
          t.sdr.queue = closeQueue c u ∧
          ∀ j, (entryAt t j).map unqueued = (entryAt u j).map fun e =>
            let x := streamLost c u j e
            unqueued (if j = k then
              { x with motionDropped := min 4294967295 (e.motionDropped + pendingOf k u.cbf.pend) } else e)
    | .over =>
        t.cwr.writer = .ready ∧ t.ssv.close = none ∧ t.cwr.closeReason = none ∧ t.cwr.recId = none ∧ t.cbf = u.cbf ∧
          t.sdr.entries.map unqueued = u.sdr.entries.map unqueued ∧
          ArbiterGrants { u with cwr := { u.cwr with closeReason := none } } t ∧
          (t.ssv.st = if u.ssv.st = .emergency ∧ stableReached u = true then .normal else u.ssv.st) ∧
          ∀ r, u.cwr.recId = some r → u.lnk.recordMask.getLsbD 2 = true →
            t.lnk.events.record = ⟨min 255 (u.lnk.events.record.count + 1),
              some (.recordStopped r .emergency u.now u.cwr.lastSlot c.budget (c.budget - c.left))⟩

/-! ## When a pending switch ends (R44 to R48) -/

/-- R47: the path loaded at the commit of a switch to the context `x`, at the angle `a`. -/
def pathTaken (x : Context) (a : PerAxis Int) : PerAxis Int :=
  ⟨pathLoaded (x.saved.map PerAxis.yaw) x.fields.limit.yaw a.yaw,
    pathLoaded (x.saved.map PerAxis.pitch) x.fields.limit.pitch a.pitch,
    pathLoaded (x.saved.map PerAxis.roll) x.fields.limit.roll a.roll⟩

/-- R47: the axes on which that path was clamped. -/
def pathHeld (x : Context) (a : PerAxis Int) : PerAxis Bool :=
  let p := pathTaken x a
  ⟨p.yaw != pathNear (x.saved.map PerAxis.yaw) a.yaw, p.pitch != pathNear (x.saved.map PerAxis.pitch) a.pitch,
    p.roll != pathNear (x.saved.map PerAxis.roll) a.roll⟩

/-- The switch `w` pending in `s` has ended in `t`: with a field out of its range it has faulted, else it has committed. -/
def SwitchEnds (w : Switch) (s t : State) : Prop :=
  let x := ctxGet s.ctx w.index
  (∀ c, firstBad x.fields = some c →
    t.ctx = { s.ctx with pendingSwitch := none } ∧ t.msu.path = s.msu.path ∧
      t.lnk.events = eventsWith (.ctxFault w.index c.code c.value) s) ∧
    (firstBad x.fields = none →
      t.ctx.active = some w.index ∧ t.ctx.pendingSwitch = none ∧ t.msu.path = pathTaken x s.msu.angle ∧
        t.lnk.events = eventsWith (.switched w.index s.ctx.active w.ret s.csu.frame s.now) s ∧
        ∀ j, ctxGet t.ctx j =
          { ctxGet s.ctx j with
            saved := if s.ctx.active = some j then some s.msu.path else (ctxGet s.ctx j).saved
            link := if w.ret = true ∧ s.ctx.active = some j then none
              else if j = w.index then s.ctx.active else (ctxGet s.ctx j).link })

/-- The switch `w` has been made at once in `t`, outside RUNNING, with every field in its range, the reply slot apart: it
has ended as `SwitchEnds` says, the held steps and absorbed angles are 0 (R22, R25), each step's 0 handed to its channel
(R23), CTX_SWITCH and the axes the path was clamped on are carried outside OFF (R33), and STANDBY has become RUNNING
without a sensor fault (R48). -/
def SwitchMade (w : Switch) (s t : State) : Prop :=
  let held := pathHeld (ctxGet s.ctx w.index) s.msu.angle
  let k := s.csu.carried
  KeepsClock s t ∧ KeepsPower s t ∧ KeepsCard s t ∧ SwitchEnds w s t ∧
    t.lnk = { s.lnk with reply := t.lnk.reply, events := t.lnk.events } ∧
    t.msu = { s.msu with
      path := t.msu.path
      stab := if s.msu.stab = .standby ∧ s.msu.fault = false then .running else s.msu.stab } ∧
    t.csu = { s.csu with
      step := ⟨0, 0, 0⟩
      absorbed := ⟨0, 0, 0⟩
      carried := if s.msu.stab = .off then k else
        { k with
          pathClamp := ⟨k.pathClamp.yaw || held.yaw, k.pathClamp.pitch || held.pitch, k.pathClamp.roll || held.roll⟩
          ctxSwitch := true } } ∧
    ∀ c, chanGet t.adu c =
      if (chanGet s.adu c).st = .active ∨ (chanGet s.adu c).st = .parked
      then { chanGet s.adu c with waiting := some 0 } else chanGet s.adu c

/-! ## When the guard trips (R125, R131, R196) -/

/-- From `s` to `t` a stop with `reason` has been asked for: in RECORDING the OPEN slot is CLOSING with it, the writer
STOPPING and the post-roll mark none; in ROLLING the stop mark is set unless it was; in any other state nothing is asked.
A free port is then granted in the arbiter's order; a transfer under way stands, and so does a port that the arbiter does
not grant. -/
def StopAsked (reason : CloseReason) (s t : State) : Prop :=
  let w := s.cwr.writer
  (∀ i, w = .recording → openSlot s = some i →
    KeepsCardButPort { s with
      sdr := { s.sdr with entries := rewritten i (fun e => { e with st := .closing }) s.sdr.entries, mark := none }
      cwr := { s.cwr with writer := .stopping, closeReason := some reason } } t) ∧
    (w = .rolling →
      KeepsCardButPort { s with cwr := { s.cwr with stopMark := some (s.cwr.stopMark.getD reason) } } t) ∧
    (w ≠ .recording → w ≠ .rolling → KeepsCardButPort s t) ∧
    (s.cwr.port ≠ none ∨ arbitrating w = false →
      t.cwr.port = s.cwr.port ∧ t.cwr.run = s.cwr.run ∧ t.sdr.queue = s.sdr.queue) ∧
    (s.cwr.port = none → arbitrating w = true → ArbiterGrants (beforeGrant s t) t)

/-- R196: the guard has tripped with `cause` from `s` to `t`, the reply slot apart. -/
def GuardTrips (cause : Trip) (s t : State) : Prop :=
  let w := s.cwr.writer
  t.lnk = { s.lnk with
    reply := t.lnk.reply
    guard := .tripped
    trip := some cause
    guardEnd := none
    events := eventsWith (.guardTripped cause w (w == .recording || w == .rolling) s.now) s } ∧
    t.csu = { s.csu with step := t.csu.step, absorbed := t.csu.absorbed } ∧
    (∀ c, chanGet t.adu c = parkedBy .guard (chanGet s.adu c) ∧
      ((chanGet s.adu c).st = .active → chanGet t.csu.step c = 0 ∧ chanGet t.csu.absorbed c = 0) ∧
      ((chanGet s.adu c).st ≠ .active →
        chanGet t.csu.step c = chanGet s.csu.step c ∧ chanGet t.csu.absorbed c = chanGet s.csu.absorbed c)) ∧
    StopAsked .guard s t

/-! ## When a transfer leaves the port (R116, R124, R173) -/

/-- A held UNMOUNT of `s` has been answered OK in `t`, the card's state given up (R116, R117), the clip buffer's with it
(DESIGN CHOICE, log 55). -/
def UnmountOver (tag : Byte) (s t : State) : Prop :=
  t.cwr.writer = .unmounted ∧ t.cwr.port = none ∧ t.cwr.cursor = none ∧ t.cwr.stopMark = none ∧
    t.sdr = Sdr.reset ∧ t.cbf = Cbf.reset ∧ t.lnk.req = none ∧ t.lnk.reply = some ⟨0xA1#8, tag, .ok, []⟩ ∧
    t.lnk.events = eventsWith .cardUnmounted s

/-- No slot is open or closing, and the clip buffer is empty, as in READY. -/
def CardIdle (s : State) : Prop :=
  openSlot s = none ∧ closingSlot s = none ∧ s.cbf.segs = [] ∧ s.cbf.pend = []

/-- The transfer of `s` has left the port in `t`, and nothing else has changed but what follows from that: the arbiter
grants the port; under a held UNMOUNT the queue is served, and when none of it needs a write the UNMOUNT ends; or the
emergency close goes on. -/
def PortFreed (s t : State) : Prop :=
  let u := setPort none s
  (arbitrating s.cwr.writer = true → (∀ tag, s.lnk.req ≠ some (.unmount tag)) →
    KeepsPower s t ∧ t.adu = s.adu ∧ t.lnk = s.lnk ∧ KeepsCardButPort s t ∧ ArbiterGrants u t) ∧
    (∀ tag, s.cwr.writer = .ready → s.lnk.req = some (.unmount tag) → s.sdr.geo ≠ none → CardIdle s →
      ((∃ i ∈ s.sdr.queue, needsUpdate s i = true) →
        KeepsPower s t ∧ t.adu = s.adu ∧ t.lnk = s.lnk ∧ KeepsCardButPort s t ∧ ArbiterGrants u t) ∧
        ((∀ i ∈ s.sdr.queue, needsUpdate s i = false) → UnmountOver tag s t)) ∧
    ∀ c, s.cwr.writer = .emergencyClose → s.ssv.close = some c → (∀ tag, s.lnk.req ≠ some (.unmount tag)) →
      CloseGoesOn c u t

/-! ## Impact locks (R102, R109 to R112) -/

/-- Entry `j` carries IMPACT. -/
def holdsImpact (es : List Entry) (j : Nat) : Bool := (es[j]?.map fun e => e.locks.impact).getD false

/-- The sequence of entry `j`. -/
def seqAt (es : List Entry) (j : Nat) : Nat := (es[j]?.bind Entry.sequence).getD 0

/-- Every entry that carries IMPACT has a sequence, and no two have the same (R100). -/
def LocksSequenced (es : List Entry) : Prop :=
  (∀ e ∈ es, e.locks.impact = true → e.sequence ≠ none) ∧
    ∀ j k, holdsImpact es j = true → holdsImpact es k = true → seqAt es j = seqAt es k → j = k

/-- R110: the entries that carry IMPACT and are no candidates. -/
def releasable (cands : List Nat) (es : List Entry) : List Nat :=
  (List.range es.length).filter fun j => holdsImpact es j && !cands.contains j

/-- R102, R110: entry `j` is among the `n` of `js` with the lowest sequences. -/
def amongLowest (n : Nat) (js : List Nat) (es : List Entry) (j : Nat) : Bool :=
  js.contains j && decide ((js.countP fun k => decide (seqAt es k < seqAt es j)) < n)

/-- R110: the slots of `want` that do not carry IMPACT yet. -/
def notLocked (want : List Nat) (es : List Entry) : List Nat := want.filter fun j => !holdsImpact es j

/-- R110: how many of them are locked: as many as the quota has room for or a release can be made for. -/
def lockCount (quota : Nat) (cands want : List Nat) (es : List Entry) : Nat :=
  if quota = 0 then 0
  else min (notLocked want es).length (quota - impactLocks es + (releasable cands es).length)

/-- R110: how many releases that takes. -/
def releaseCount (quota : Nat) (cands want : List Nat) (es : List Entry) : Nat :=
  lockCount quota cands want es - (quota - impactLocks es)

/-- R110: IMPACT of entry `j` after the slots of `want` have been locked, of an impact with the candidates `cands`. -/
def impactAfter (quota : Nat) (cands want : List Nat) (es : List Entry) (j : Nat) : Bool :=
  (holdsImpact es j && !amongLowest (releaseCount quota cands want es) (releasable cands es) es j)
    || ((notLocked want es).take (lockCount quota cands want es)).contains j

/-- R102, R110: the SLOT events of `n` releases among `js`, as the class's entry from `x` on. -/
def ReleasesReported (n : Nat) (js : List Nat) (es : List Entry) (x y : EvEntry) : Prop :=
  (n = 0 → y = x) ∧
    (0 < n → y.count = min 255 (x.count + n) ∧
      ∃ j, y.detail = some (.slotReleased j) ∧ amongLowest n js es j = true ∧ amongLowest (n - 1) js es j = false)

/-- R113: the slots for which `changed` holds have joined the queue `q` at its tail, each once. -/
def Enqueued (changed : Nat → Bool) (q q' : List Nat) : Prop :=
  ∃ more, q' = q ++ more ∧ more.Nodup ∧ ∀ j, j ∈ more ↔ changed j = true ∧ j ∉ q

/-- R100: an entry before the `j`th carries the same sequence. -/
def repeated (es : List Entry) (j : Nat) : Bool :=
  match es[j]?.bind Entry.sequence with
  | none => false
  | some q => (es.take j).any fun e => e.sequence == some q

/-- R100: the entries once every repeated sequence has made its entry FREE. -/
def withoutRepeats (es : List Entry) : List Entry := es.mapIdx fun j e => if repeated es j then freeEntry else e

/-! ## The end of a mount (R98, R100 to R102) -/

/-- R98, R102: the format pass that left the entries `read` has completed the mount in `t`. -/
def FormatCompletes (g : Geometry) (read : List Entry) (s t : State) : Prop :=
  t.cwr.writer = .ready ∧ t.sdr.nextSeq = some 1 ∧ t.sdr.nextRec = 1 ∧ t.cbf = s.cbf ∧
    t.sdr.entries.map unqueued = read.map unqueued ∧
    (s.lnk.recordMask.getLsbD 3 = true →
      t.lnk.events.card = ⟨min 255 (s.lnk.events.card.count + 1), some (.cardMounted g.slotCount
        (countSlots .free read) 0 0 (countSlots .bad read) 0 0 g.quota (some 1) 1)⟩) ∧
    ArbiterGrants (beforeGrant s t) t

/-- R101: the next sequence and the next recording id of `t` after a scan that left the entries `es`. -/
def NumbersFollow (es : List Entry) (t : State) : Prop :=
  ((∀ e ∈ es, e.sequence = none) → t.sdr.nextSeq = some 1 ∧ t.sdr.nextRec = 1) ∧
    ∀ (j q : Nat) (e : Entry), es[j]? = some e → e.sequence = some q →
      (∀ x ∈ es, ∀ p, x.sequence = some p → p ≤ q) →
      t.sdr.nextSeq = (if 4294967295 ≤ q then none else some (q + 1)) ∧
        t.sdr.nextRec = if 65535 ≤ e.recId.getD 0 then 1 else e.recId.getD 0 + 1

/-- R100 to R102: the header scan that read the entries `read` has completed the mount in `t`: of one sequence the first
slot keeps its class, and the excess of IMPACT locks is released from the lowest sequence on. -/
def ScanCompletes (g : Geometry) (read : List Entry) (s t : State) : Prop :=
  let es := withoutRepeats read
  let n := impactLocks es - g.quota
  let gone := amongLowest n (releasable [] es) es
  t.cwr.writer = .ready ∧ t.cbf = s.cbf ∧ NumbersFollow es t ∧
    (∀ k, (entryAt t k).map unqueued =
      (es[k]?).map fun x => unqueued { x with locks := { x.locks with impact := x.locks.impact && !gone k } }) ∧
    (s.lnk.recordMask.getLsbD 1 = true →
      ReleasesReported n (releasable [] es) es s.lnk.events.slot t.lnk.events.slot) ∧
    (s.lnk.recordMask.getLsbD 3 = true →
      t.lnk.events.card = ⟨min 255 (s.lnk.events.card.count + 1), some (.cardMounted g.slotCount
        (countSlots .free es) (countSlots .closed es) (countSlots .recovered es) (countSlots .bad es)
        ((List.range read.length).countP (repeated read)) n g.quota t.sdr.nextSeq t.sdr.nextRec)⟩) ∧
    ∃ q' : List Nat, (∀ k, k ∈ q' ↔ gone k = true) ∧ q'.Pairwise (fun a b => seqAt es a < seqAt es b) ∧
      ArbiterGrants (beforeGrant { s with sdr := { s.sdr with queue := q' } } t) t

/-! ## The laws of the device -/

/-- The link holds a request or a reply, never both (R184, R187). -/
def LinkLaw (s : State) : Prop := s.lnk.req = none ∨ s.lnk.reply = none

/-- First law (R22), one channel: a step that is not 0 stands on an ACTIVE channel, in RUNNING, in a context that is not
CROP_ONLY and gives the axis a gain, and lies within its travel. -/
def StepLawOn (c : Chan) (s : State) : Prop :=
  chanGet s.csu.step c ≠ 0 →
    s.msu.stab = .running ∧ (chanGet s.adu c).st = .active ∧
      ∃ f, activeFields s = some f ∧ f.mode ≠ 1#8 ∧ axisOf f.gain c ≠ 0#16 ∧
        (chanGet s.csu.step c).natAbs ≤ (axisOf f.travel c).toNat

/-- First law (R22). -/
def StepLaw (s : State) : Prop := ∀ c, StepLawOn c s

/-- Second law (R12, R47), one axis: `a` and `p` differ by at most the path limit. -/
def PathWithin (limit : Word) (a p : Int) : Prop := (a - p).natAbs ≤ limit.toNat

/-- Second law (R12, R13, R47), which the spec keeps in every stabilization state: with a context active every axis lies
within its path limit; with none, P equals A. -/
def PathLaw (s : State) : Prop :=
  match activeFields s with
  | none => s.msu.path = s.msu.angle
  | some f =>
      PathWithin f.limit.yaw s.msu.angle.yaw s.msu.path.yaw ∧
        PathWithin f.limit.pitch s.msu.angle.pitch s.msu.path.pitch ∧
        PathWithin f.limit.roll s.msu.angle.roll s.msu.path.roll

/-- The mount transfers use the port in MOUNTING alone (R124). -/
def MountLaw (s : State) : Prop :=
  ∀ t, s.cwr.port = some t →
    match t.op with
    | .identify => s.cwr.writer = .mounting
    | .formatHeader _ => s.cwr.writer = .mounting
    | .scanRead _ => s.cwr.writer = .mounting
    | _ => True

/-- Fifth law (R102, R110): a directory never holds more IMPACT locks than its quota; while it is being read, every lock
stands on an entry with a sequence. -/
def QuotaLaw (s : State) : Prop :=
  MountLaw s ∧
    (directoryUp s.cwr.writer = true → impactLocks s.sdr.entries ≤ quotaOf s) ∧
    (s.cwr.writer = .mounting → ∀ e ∈ s.sdr.entries, e.locks.impact = true → e.sequence ≠ none)

/-- Ninth law (R161): outside the charging phases the charge command is 0; in them it exceeds neither the derated target
current nor the available current of the latest notice. -/
def ChargeLaw (s : State) : Prop :=
  if charging s.chg.phase = true then s.chg.iCmd ≤ deratedTarget s ∧ s.chg.iCmd ≤ s.chg.iAvail else s.chg.iCmd = 0

/-- Tenth law (R60, R150), one channel: SUPPLY is a park reason exactly outside NORMAL, and an ACTIVE channel has no
reason. -/
def ChannelHeld (s : State) (ch : Channel) : Prop :=
  (ch.park.supply = true ↔ s.ssv.st ≠ .normal) ∧ (ch.st = .active → parkEmpty ch.park = true)

/-- Tenth law (R60, R150, R161): outside NORMAL no channel is ACTIVE and the charge command is 0; SUPPLY is a park and a
pause reason exactly then; a phase that charges has no pause reason. -/
def SupplyLaw (s : State) : Prop :=
  (∀ c, ChannelHeld s (chanGet s.adu c)) ∧
    (s.chg.pause.supply = true ↔ s.ssv.st ≠ .normal) ∧
    (charging s.chg.phase = true → pauseEmpty s.chg.pause = true) ∧
    (charging s.chg.phase = false → s.chg.iCmd = 0)

/-- A CLOSED header of the emergency close is being written for slot `k`. -/
def closingHeader (s : State) (k : Nat) : Prop := ∃ t, s.cwr.port = some t ∧ t.op = .emClosed k

/-- While an emergency close runs, or an UNMOUNT is held, a transfer has the port; a held UNMOUNT waits in READY for the
header update queue or the header under way (R116, R173; log 18). -/
def PortLaw (s : State) : Prop :=
  (s.cwr.writer = .emergencyClose → s.cwr.port ≠ none) ∧
    ∀ tag, s.lnk.req = some (.unmount tag) →
      s.cwr.writer = .ready ∧ s.cwr.port ≠ none ∧ (s.sdr.queue ≠ [] ∨ headerUnderWay s = true)

/-- Eleventh law (R174): while an emergency close runs, the writer is in EMERGENCY_CLOSE over a mounted region, the
slots still to be closed are slots of it, at most two, and the units remaining cover 2 for each CLOSED header not yet
begun; a CLOSED header under way is the first slot's. -/
def BudgetLaw (s : State) : Prop :=
  MountLaw s ∧
    (s.cwr.writer ≠ .unmounted → s.cwr.writer ≠ .fault → s.sdr.geo ≠ none) ∧
    8 ≤ s.ssv.budget ∧
    (Awake s → PortLaw s ∧ (s.cwr.writer = .emergencyClose → s.ssv.close ≠ none)) ∧
    (∀ k, closingHeader s k → s.ssv.close ≠ none) ∧
    ∀ c, s.ssv.close = some c →
      s.cwr.writer = .emergencyClose ∧ c.left ≤ c.budget ∧ c.todo.length ≤ 2 ∧
        (∀ k ∈ c.todo, k < s.sdr.entries.length) ∧
        (∀ k, closingHeader s k → c.todo.head? = some k ∧ 2 * c.todo.length ≤ c.left + 2) ∧
        ((∀ k, ¬ closingHeader s k) → 2 * c.todo.length ≤ c.left)

/-- R35, R74, R81, R90: no buffer, ring, list or history holds more than its size. -/
def SizeLaw (s : State) : Prop :=
  fillOf s.cbf.segs ≤ ringBytes ∧ s.cbf.pend.length ≤ 128 ∧ s.csu.ring.length ≤ 16 ∧
    s.scn.vIn.hist.length ≤ 8 ∧ s.scn.vAlt.hist.length ≤ 8 ∧ s.scn.vBat.hist.length ≤ 8 ∧
    s.scn.iBat.hist.length ≤ 8 ∧ s.scn.vSys.hist.length ≤ 8 ∧ s.scn.iSys.hist.length ≤ 8 ∧
    s.scn.tBat.hist.length ≤ 8 ∧ s.scn.tDie.hist.length ≤ 8

/-- R113 to R115: the header update queue holds slots of the directory, each at most once, and a slot's Queued field is
yes exactly while the queue holds it; neither has more places than a region has slots (R95). -/
def QueueLaw (s : State) : Prop :=
  s.sdr.entries.length ≤ 256 ∧ s.sdr.queue.length ≤ 256 ∧ s.sdr.queue.Nodup ∧
    (∀ i ∈ s.sdr.queue, i < s.sdr.entries.length) ∧
    ∀ i e, entryAt s i = some e → (e.queued = true ↔ i ∈ s.sdr.queue)

/-- Fourth law (R104): at most one slot is OPEN and at most one CLOSING, both at once only in ROLLING or in an emergency
close. -/
def SlotLaw (s : State) : Prop :=
  let w := s.cwr.writer
  countSlots .opened s.sdr.entries ≤ 1 ∧ countSlots .closing s.sdr.entries ≤ 1 ∧
    (openSlot s ≠ none → w = .recording ∨ w = .rolling ∨ w = .emergencyClose) ∧
    (closingSlot s ≠ none → w = .stopping ∨ w = .rolling ∨ w = .emergencyClose) ∧
    (openSlot s ≠ none → closingSlot s ≠ none → w = .rolling ∨ w = .emergencyClose)

/-- Seventh law (R100, R101, R107): exactly the FREE and BAD slots have no sequence; with a directory the sequences are
distinct and below the next one, and the OPEN slot's is the greatest. -/
def SequenceLaw (s : State) : Prop :=
  (∀ e ∈ s.sdr.entries, e.sequence = none ↔ e.st = .free ∨ e.st = .bad) ∧
    (directoryUp s.cwr.writer = true →
      (s.sdr.entries.filterMap Entry.sequence).Nodup ∧
        (∀ n, s.sdr.nextSeq = some n → ∀ e ∈ s.sdr.entries, ∀ q, e.sequence = some q → q < n) ∧
        ∀ e ∈ s.sdr.entries, e.st = .opened → ∀ x ∈ s.sdr.entries, x.sequence.getD 0 ≤ e.sequence.getD 0)

/-- What a transfer under way says of the writer and of the slots (R97 to R99, R114, R121, R128, R173 to R179). -/
def TransferFits (s : State) : Xfer → Prop
  | .identify => s.cwr.writer = .mounting ∧ s.sdr.entries = []
  | .formatHeader i =>
      s.cwr.writer = .mounting ∧ i = s.sdr.entries.length ∧ ∃ g, s.sdr.geo = some g ∧ i < g.slotCount ∧ g.format = true
  | .scanRead i =>
      s.cwr.writer = .mounting ∧ i = s.sdr.entries.length ∧ ∃ g, s.sdr.geo = some g ∧ i < g.slotCount ∧ g.format = false
  | .headerUpdate i => i < s.sdr.entries.length
  | .openingHeader i => closingSlot s = some i ∨ (openSlot s = some i ∧ closingSlot s = none)
  | .closedHeader i _ => closingSlot s = some i
  | .streamUnit _ _ => True
  | .motionBlock _ _ => True
  | .hostRead _ => True
  | .emUpdate i => s.cwr.writer = .emergencyClose ∧ i < s.sdr.entries.length
  | .emUnit _ _ => s.cwr.writer = .emergencyClose
  | .emBlock _ _ => s.cwr.writer = .emergencyClose
  | .emClosed i => s.cwr.writer = .emergencyClose ∧ closingSlot s = some i

/-- A region has at most 256 slots (R95); a mount finds no queue, and a format pass no sequence (R96, R98); the transfer
under way fits the slots; an emergency close has the CLOSING slot to close and then the OPEN one, never an OPEN one alone
(R173). -/
def TransferLaw (s : State) : Prop :=
  (∀ g, s.sdr.geo = some g → g.slotCount ≤ 256) ∧
    (s.cwr.writer = .mounting → s.sdr.queue = [] ∧
      ∀ g, s.sdr.geo = some g → g.format = true → ∀ e ∈ s.sdr.entries, e.sequence = none) ∧
    (∀ x, s.cwr.port = some x → TransferFits s x.op) ∧
    (Awake s → s.cwr.writer = .emergencyClose →
      (closingSlot s = none → openSlot s = none) ∧
        ∃ c, s.ssv.close = some c ∧ c.todo = (closingSlot s).toList ++ (openSlot s).toList)

/-- The directory's laws together with what they rest on: the queue and the Queued fields (R113 to R115), the fourth law
(R104), the seventh (R107), and the transfer under way. -/
def DirectoryLaw (s : State) : Prop := QueueLaw s ∧ SlotLaw s ∧ SequenceLaw s ∧ TransferLaw s

/-- The settings of a channel lie in the ranges of Figure 4.2. -/
def ChanSettingsInRange (c : ChanSettings) : Prop :=
  (1 ≤ c.prescaler ∧ c.prescaler ≤ 32) ∧ (16 ≤ c.period ∧ c.period ≤ 65535) ∧
    (50 ≤ c.limit ∧ c.limit ≤ 800 ∧ c.limit % 50 = 0) ∧ c.delay ≤ 63 ∧ c.attempts ≤ 255 ∧
    (1 ≤ c.retryDelay ∧ c.retryDelay ≤ 255)

/-- R17's ranges. -/
def ImpactInRange (i : ImpactSettings) : Prop :=
  (16 ≤ i.thr ∧ i.thr ≤ 255) ∧ (1 ≤ i.count ∧ i.count ≤ 64) ∧ (250 ≤ i.rearm ∧ i.rearm ≤ 8000) ∧
    i.park ≤ 5000 ∧ i.pre ≤ 60 ∧ i.post ≤ 60

/-- Figure 9.4's ranges, for the settings and for the target voltage in use. -/
def ChargeInRange (g : Chg) : Prop :=
  (4100 ≤ g.target ∧ g.target ≤ 4350 ∧ g.target % 10 = 0) ∧
    (4100 ≤ g.targetInUse ∧ g.targetInUse ≤ 4350 ∧ g.targetInUse % 10 = 0) ∧
    (100 ≤ g.fast ∧ g.fast ≤ 2000 ∧ g.fast % 25 = 0) ∧ (25 ≤ g.termination ∧ g.termination ≤ 500) ∧
    (60 ≤ g.fastTimer ∧ g.fastTimer ≤ 480)

/-- Figure 9.1's ranges. -/
def InputInRange (p : Ips) : Prop :=
  (100 ≤ p.usbLimit ∧ p.usbLimit ≤ 3000) ∧ (4000 ≤ p.usbFloor ∧ p.usbFloor ≤ 5000) ∧
    (100 ≤ p.auxLimit ∧ p.auxLimit ≤ 3000) ∧ (5000 ≤ p.auxFloor ∧ p.auxFloor ≤ 12000)

/-- A bias in gyro counts (R6). -/
def BiasInRange (z : Int) : Prop := -512 ≤ z ∧ z ≤ 511

/-- Every setting lies in the range the spec gives it (R6, R7, R17, R55, R145, R155, R171). -/
def SettingsLaw (s : State) : Prop :=
  (BiasInRange s.msu.bias.yaw ∧ BiasInRange s.msu.bias.pitch ∧ BiasInRange s.msu.bias.roll) ∧
    (BiasInRange s.msu.tickBias.yaw ∧ BiasInRange s.msu.tickBias.pitch ∧ BiasInRange s.msu.tickBias.roll) ∧
    (1 ≤ s.msu.still ∧ s.msu.still ≤ 255) ∧ ImpactInRange s.msu.imp ∧ ImpactInRange s.msu.tickImp ∧
    (∀ c, ChanSettingsInRange (chanGet s.adu c).cfg ∧
      (chanGet s.adu c).attempts ≤ (chanGet s.adu c).cfg.attempts) ∧
    ChargeInRange s.chg ∧ InputInRange s.ips ∧
    (1 ≤ s.ssv.rideMs ∧ s.ssv.rideMs ≤ 32) ∧ (8 ≤ s.ssv.budget ∧ s.ssv.budget ≤ 255)

end Sys2Proof.Machine
end

