-- ==== Sys2Proof/Certificates/Slice0/Obligations.lean ====
section
/-! DEFINITION. The statements about the model. Each docstring names the rule of spec/ it formalises, or says that it is
the model's choice and names the log entry. -/

open Sys2Proof Sys2Proof.Machine

/-! ## The queue and the gates -/

/-- A step runs the command at the front of the queue on the state with the queue's rest; on an empty queue it idles
(the model's choice, log 4). -/
def Obligations.StepRunsFrontCommand : Prop :=
  (∀ (s : State) (c : Instr) (q : List Instr), step (s.withPending (c :: q)) = exec c (s.withPending q)) ∧
    ∀ s : State, s.pending = [] → step s = .next s

/-- No command changes the queue of waiting commands (spec/95: each step is whole; the queue is the model's own). -/
def Obligations.CommandsLeaveTheQueue : Prop :=
  ∀ (i : Instr) (s t : State), exec i s = .next t → t.pending = s.pending

/-- Every command answers a next state, but for card data that is not the whole blocks the transfer under way asked for,
on which the model stops (the model's choice, log 24; R99, R139). -/
def Obligations.CommandsAnswer : Prop :=
  ∀ (i : Instr) (s : State),
    (∃ t, exec i s = .next t) ∨
      (exec i s = .fault .badBlockLength ∧ Awake s ∧
        ∃ x, s.cwr.port = some x ∧
          ((∃ k b, x.op = .scanRead k ∧ i = .scanReadDone b ∧ b.length ≠ 512) ∨
            ∃ w b, x.op = .hostRead w ∧ i = .hostReadDone b ∧ b.length ≠ 512 * x.blocks))

/-- In reset no command but a pin's or the rail's changes anything (R197, R182); on an occupied link a request, and a
write transaction, sets REFUSED and changes nothing else (R184). Where the rules leave a point of this open, the
model's choice stands (log 31). -/
def Obligations.GatesHold : Prop :=
  (∀ (i : Instr) (s : State), s.rst.active = true → movesInReset i = false → exec i s = .next s) ∧
    (∀ (i : Instr) (s : State), isRequest i = true → Awake s → ¬ LinkFree s →
      exec i s = .next { s with lnk := { s.lnk with refused := true } }) ∧
    ∀ (b : Byte) (rest : List Byte) (s : State), b ≠ 0xA5#8 → Awake s → ¬ LinkFree s →
      exec (.writeTransaction (lanesOf (b :: rest))) s = .next { s with lnk := { s.lnk with refused := true } }

/-! ## Link transactions -/

/-- R182, R183: a byte takes two lane clocks, its more significant half first, LD0 the least significant bit of the
half. Every write transaction completes. On a free link the checks of its frame come in their order: framing (start byte
0x5C, payload length at most 16,388, the last CRC byte there, the CRC-16 of R203 over the kind to the last payload byte),
the kind, and the length for the kind (Figure 12.3); bytes after the last CRC byte are ignored. A frame that passes is
its request, and the transaction does what the request does; one that fails a check is answered with the check's status,
the received kind with its top bit set (0xFF when none arrived) and the received tag (0 when none arrived). A transaction
of no bytes does nothing. Where the rules leave a point of this open, the model's choice stands (logs 30, 32; a half byte
at the end is no byte: log 51). -/
def Obligations.WriteTransactionTakesFrame : Prop :=
  (lanesOf [] = [] ∧ (∀ (b : Byte) (rest : List Byte), lanesOf (b :: rest) =
      ⟨b.getLsbD 4, b.getLsbD 5, b.getLsbD 6, b.getLsbD 7⟩ :: ⟨b.getLsbD 0, b.getLsbD 1, b.getLsbD 2, b.getLsbD 3⟩ ::
        lanesOf rest) ∧
    (∀ bytes : List Byte, bytesOfLanes (lanesOf bytes) = bytes) ∧
    (∀ clocks : List LaneClock, ∃ half, clocks = lanesOf (bytesOfLanes clocks) ++ half ∧ half.length ≤ 1) ∧
    ∀ (clocks : List LaneClock) (s : State),
      exec (.writeTransaction clocks) s = exec (.writeTransaction (lanesOf (bytesOfLanes clocks))) s) ∧
    (∀ (clocks : List LaneClock) (s : State), ∃ t, exec (.writeTransaction clocks) s = .next t) ∧
    (∀ s : State, exec (.writeTransaction []) s = .next s) ∧
    (∀ (rest : List Byte) (s : State),
      exec (.writeTransaction (lanesOf (0xA5#8 :: rest))) s = exec (.readTransaction rest.length) s) ∧
    crc16 [0x31#8, 0x32#8, 0x33#8, 0x34#8, 0x35#8, 0x36#8, 0x37#8, 0x38#8, 0x39#8] = 0x29B1#16 ∧
    ∀ (b : Byte) (rest : List Byte) (s : State), b ≠ 0xA5#8 → Takes s →
      let bytes := b :: rest
      let sent : Instr := .writeTransaction (lanesOf bytes)
      let field (i : Nat) : Nat := (bytes.getD i 0).toNat + 256 * (bytes.getD (i + 1) 0).toNat
      let code := (bytes.getD 1 0).toNat
      let n := field 3
      let framing : Prop := b = 0x5C#8 ∧ n ≤ 16388 ∧ 7 + n ≤ bytes.length ∧
        (crc16 ((bytes.drop 1).take (4 + n))).toNat = field (5 + n)
      let lengths : List (Nat × Nat) :=
        [(0x01, 0), (0x02, 2), (0x03, 0), (0x04, 4), (0x05, 0), (0x06, 0), (0x07, 4), (0x10, 3), (0x11, 6), (0x12, 8),
          (0x13, 41), (0x14, 1), (0x15, 1), (0x16, 0), (0x17, 4), (0x18, 1), (0x19, 1), (0x1A, 10), (0x1B, 4),
          (0x1C, 1), (0x1D, 1), (0x20, 18), (0x21, 0), (0x22, 0), (0x23, 0), (0x25, 3), (0x26, 3), (0x27, 3),
          (0x28, 4), (0x30, 9), (0x31, 9), (0x32, 2)]
      let known : Prop := code = 0x24 ∨ code ∈ lengths.map Prod.fst
      let fits : Prop := (code = 0x24 ∧ 1 ≤ n ∧ n ≤ 16384) ∨ (code, n) ∈ lengths
      let kind := match rest.head? with
        | none => 0xFF#8
        | some k => k ||| 0x80#8
      let tag := (bytes[2]?).getD 0#8
      let reply (st : Status) : State := { s with lnk := { s.lnk with reply := some ⟨kind, tag, st, []⟩ } }
      (¬ framing → exec sent s = .next (reply .badFrame)) ∧
        (framing → ¬ known → exec sent s = .next (reply .badKind)) ∧
        (framing → known → ¬ fits → exec sent s = .next (reply .badLength)) ∧
        (framing → fits → ∃ i, parseFrame bytes = .request i ∧ WellFormed i ∧ isRequest i = true ∧
          ∃ extra, bytes = requestFrame i ++ extra) ∧
        ∀ i, parseFrame bytes = .request i → exec sent s = exec i s ∧ ∃ t, exec i s = .next t

/-- R183, R202, R203: the frame of every request a host can send (Figures 12.1 and 12.3) is read back as that request,
whatever bytes follow its last CRC byte. -/
def Obligations.RequestFramesReadBack : Prop :=
  ∀ (i : Instr) (extra : List Byte), WellFormed i → isRequest i = true →
    parseFrame (requestFrame i ++ extra) = .request i

/-- R182, R186: a read transaction of `n` bytes sends the link status byte, the reply frame when one is ready, and
zero fill, each byte on the lanes as R182 says; it clears REFUSED once the status byte is sent, and empties the reply
slot when the frame was sent whole. The status byte's four flags are those of Figure 12.2. The field that shows the
lanes is the model's own (log 38). -/
def Obligations.ReadTransactionSends : Prop :=
  (∀ (n : Nat) (s : State), Awake s → s.lnk.resetTaken = none →
    let frame := match s.lnk.reply with
      | none => []
      | some r => replyFrame r
    exec (.readTransaction n) s = .next { s with lnk := { s.lnk with
      lanes := lanesOf (((linkStatus s.lnk :: frame) ++ List.replicate n 0#8).take n)
      refused := if n = 0 then s.lnk.refused else false
      reply := if 1 + frame.length ≤ n then none else s.lnk.reply } }) ∧
    ∀ l : Lnk, ((linkStatus l).getLsbD 0 = l.reply.isSome) ∧
      ((linkStatus l).getLsbD 1 = true ↔ ∃ c, l.alertMask.getLsbD (classBit c) = true ∧ 0 < (eventGet l.events c).count) ∧
      ((linkStatus l).getLsbD 2 = l.req.isSome) ∧ ((linkStatus l).getLsbD 3 = l.refused) ∧ (linkStatus l).toNat < 16

/-- R188: IDENT answers the part's fixed description (Figure 12.3) in every state and changes nothing else. -/
def Obligations.IdentDescribesThePart : Prop :=
  ∀ (tag : Byte) (s : State), Takes s →
    exec (.ident tag) s = .next (answer 0x01#8 tag .ok
      [0x57#8, 0x4C#8, 0x10#8, 0x34#8, 0x01#8, 0x04#8, 0x40#8, 0x04#8, 0x00#8, 0x01#8, 0x00#8, 0x00#8, 0x40#8, 0x00#8,
        0x80#8, 0x0C#8, 0x00#8, 0x10#8] s)

/-- R189, Figure 12.5: STATUS answers the mask and then the block of each set bit, ascending, and changes nothing else.
The blocks have the figure's lengths and carry its fields: part time; the stabilization and the contexts; the frame
counter; the channels; the steps in force; the card writer; the clip buffer; the OPEN slot's counts; the charger; its
budget; the input selection; the supply state, its timer and the emergency close; the battery averages; the
temperatures; the guard; and the reset cause. Where the rules leave a point of this open, the model's choice stands:
the STANDBY reason outside STANDBY (log 26), a time that is no whole number of ms (log 7), I_avail above 65,535 mA
(log 47), the close without one running (log 11), the slot it reports (log 49) and the effective target after a
CHARGE_SET (log 54). -/
def Obligations.StatusReportsSelectedBlocks : Prop :=
  (∀ (tag : Byte) (mask : Half) (s : State), Takes s →
    exec (.status tag mask) s = .next (answer 0x02#8 tag .ok
      (u16 mask.toNat ++ ((List.range 16).filter fun k => mask.getLsbD k).flatMap
        fun k => (statusBlocks s).getD k []) s)) ∧
    ∀ s : State, (statusBlocks s).map List.length = [4, 5, 4, 9, 6, 11, 9, 18, 15, 19, 14, 13, 4, 11, 10, 1] ∧
      let bit (b : Bool) : List Byte := if b = true then [1] else [0]
      let slot (i : Option Nat) : List Byte := u16 (i.getD 65535)
      let index (i : Option CtxIx) : List Byte := u8 ((i.map ctxCode).getD 255)
      let channel (c : Channel) : List Byte := u8 (chanStateCode c.st) ++ u8 (parkCode c.park) ++ u8 c.attempts
      let counts (e : Option Entry) : List Byte := match e with
        | none => u32 0 ++ u32 0 ++ u32 0 ++ u32 0
        | some e => u32 s.cbf.assigned ++ u32 e.streamBytes ++ u32 e.lostBytes ++ u32 e.motionDropped
      let opened := openSlot s
      let g := s.chg
      let c := s.scn
      statusBlocks s =
        [u32 s.now.toNat,
          u8 (stabCode s.msu.stab)
            ++ u8 (if s.msu.stab = .standby then if s.msu.fault = true then 2 else 1 else 0) ++ index s.ctx.active
            ++ index (s.ctx.pendingSwitch.map Switch.index) ++ bit ((s.ctx.pendingSwitch.map Switch.ret).getD false),
          u32 s.csu.frame.toNat,
          channel s.adu.sx ++ channel s.adu.sy ++ channel s.adu.rt,
          s16 s.csu.step.sx ++ s16 s.csu.step.sy ++ s16 s.csu.step.rt,
          u8 (writerCode s.cwr.writer) ++ slot opened ++ slot (closingSlot s) ++ u16 (s.cwr.recId.getD 0)
            ++ u8 ((s.cwr.stopMark.map reasonCode).getD 0) ++ u16 s.sdr.queue.length ++ bit s.cwr.present,
          u32 (fillOf s.cbf.segs) ++ u32 (4194304 - fillOf s.cbf.segs) ++ u8 s.cbf.pend.length,
          slot opened ++ counts (opened.bind (entryAt s)),
          u8 (phaseCode g.phase) ++ u8 (pauseCode g.pause) ++ u8 (cycleCode g.cycle) ++ u8 (chargeFaultCode g.latch)
            ++ u32 (msOfTicks g.preTicks) ++ u32 (msOfTicks g.fastTicks) ++ u8 g.term
            ++ u16 (if c.batZone = .warm then g.targetInUse - 100 else g.targetInUse),
          u16 g.iCmd ++ bit g.supplement ++ u16 g.derated ++ s32 g.pIn ++ s32 g.pSys ++ s32 g.pAvail
            ++ u16 (if g.iAvail < 65536 then g.iAvail else (Config.iAvailField g.iAvail).toNat),
          u8 ((s.ips.sel.map srcCode).getD 0) ++ u16 s.ips.iEff ++ u8 (srcCode s.ips.pref) ++ bit s.ips.usb.present
            ++ bit s.ips.aux.present ++ s16 c.usb ++ s16 c.aux
            ++ (match s.ips.sel with
              | none => u16 0 ++ u16 0
              | some .usb => u16 s.ips.usbLimit ++ u16 s.ips.usbFloor
              | some .aux => u16 s.ips.auxLimit ++ u16 s.ips.auxFloor),
          u8 (supplyCode s.ssv.st) ++ u8 s.ssv.rideMs ++ u8 s.ssv.budget
            ++ u16 ((s.ssv.timerEnd.map fun t => msOfTicks (ticksLeft s.now t)).getD 65535)
            ++ u16 ((s.ssv.stable.map fun t => min 65534 (msOfTicks t)).getD 65535)
            ++ (match s.ssv.close with
              | none => [0, 0, Config.unitsWithoutClose, 0] ++ u16 65535
              | some x => [1] ++ u8 x.budget ++ u8 x.left ++ u8 (closePartCode x.part) ++ slot x.todo.head?),
          s16 (inputAvg c.vBat) ++ s16 (inputAvg c.iBat),
          s16 c.tDie.latest ++ s16 (inputAvg c.tDie) ++ u8 (dieZoneCode (dieZone c.die)) ++ s16 c.tBat.latest
            ++ s16 (inputAvg c.tBat) ++ bit c.battery ++ u8 (batZoneCode c.batZone),
          u8 (guardCode s.lnk.guard) ++ u8 (tripCode s.lnk.trip) ++ u16 s.lnk.quiet ++ u16 s.lnk.window
            ++ u32 ((s.lnk.guardEnd.map fun t => msOfTicks (ticksLeft s.now t)).getD 4294967295),
          u8 (causeCode s.rst.cause)]

/-! ## Events -/

/-- R192, R202: EVENTS answers the count and detail of every class whose count is above 0, in class order, behind their
number, and clears exactly those classes. An entry is the class number, the count, the detail's length and the detail
(spec/12, section 12.3, Figure 12.3); the details are laid out as Figure 12.6 says (the same section), and a
SLOT(closed) lists at most 100 slots. Where the rules leave a point of this open, the model's choice stands: the next
sequence in CARD(mounted) when it is exhausted is log 9, a time in CHARGE that is no whole number of ms log 7. -/
def Obligations.EventsReadsAndClears : Prop :=
  ∀ (tag : Byte) (s : State), Takes s →
    let cs := allClasses.filter fun c => decide (0 < (eventGet s.lnk.events c).count)
    let entry (c : EvClass) : List Byte :=
      let x := eventGet s.lnk.events c
      let d := (x.detail.map detailBytes).getD []
      u8 (classBit c + 1) ++ u8 x.count ++ u8 d.length ++ d
    let bit (b : Bool) : List Byte := if b = true then [1] else [0]
    let slots (l : List Nat) : List Byte := u8 l.length ++ l.flatMap u16
    let source (x : Option Src) : List Byte := u8 ((x.map srcCode).getD 0)
    let at32 (w : Word) : List Byte := u32 w.toNat
    (∃ e, exec (.events tag) s = .next (answer 0x03#8 tag .ok (u8 cs.length ++ cs.flatMap entry)
        { s with lnk := { s.lnk with events := e } }) ∧
      ∀ c, eventGet e c = if 0 < (eventGet s.lnk.events c).count then EvEntry.empty else eventGet s.lnk.events c) ∧
    allClasses = [.impact, .slot, .record, .card, .actuator, .context, .charge, .input, .supply, .thermal, .guard,
      .motion] ∧
    allClasses.map classBit = List.range 12 ∧
    (∀ time peak l, detailBytes (.impact time peak l) = at32 time ++ u32 peak ++ slots l) ∧
    (∀ i q r time, detailBytes (.slotOpened i q r time) = [1] ++ u16 i ++ u32 q ++ u16 r ++ at32 time) ∧
    (∀ i reason q stream lost motion dropped spent l,
      detailBytes (.slotClosed i reason q stream lost motion dropped spent l) =
        [2] ++ u16 i ++ u8 (reasonCode reason) ++ u32 q ++ u32 stream ++ u32 lost ++ u32 motion ++ u32 dropped
          ++ u8 spent ++ slots (l.take 100)) ∧
    (∀ i, detailBytes (.slotReleased i) = [3] ++ u16 i) ∧
    (∀ i time, detailBytes (.slotLocked i time) = [4] ++ u16 i ++ at32 time) ∧
    (∀ r reason time last budget spent, detailBytes (.recordStopped r reason time last budget spent) =
      u16 r ++ u8 (reasonCode reason) ++ at32 time ++ u16 (last.getD 65535) ++ u8 budget ++ u8 spent) ∧
    (∀ n free closed recovered bad conflicts released quota q r,
      detailBytes (.cardMounted n free closed recovered bad conflicts released quota q r) =
        [1] ++ u16 n ++ u16 free ++ u16 closed ++ u16 recovered ++ u16 bad ++ u16 conflicts ++ u16 released ++ u8 quota
          ++ u32 (q.getD Config.exhaustedSequence.toNat) ++ u16 r) ∧
    (∀ cause, detailBytes (.cardFault cause none) = [2] ++ u8 (cardCauseCode cause) ++ u16 65535 ++ u32 0 ++ u8 0) ∧
    (∀ cause i block kind, detailBytes (.cardFault cause (some (i, block, kind))) =
      [2] ++ u8 (cardCauseCode cause) ++ u16 i ++ u32 block ++ u8 (writeKindCode kind)) ∧
    detailBytes .cardRemoved = [3] ∧ detailBytes .cardInserted = [4] ∧ detailBytes .cardUnmounted = [5] ∧
    (∀ c time limit attempts, detailBytes (.overcurrent c time limit attempts) =
      [1] ++ u8 (chanCode c) ++ at32 time ++ u16 limit ++ u8 attempts) ∧
    (∀ c time, detailBytes (.latched c time) = [2] ++ u8 (chanCode c) ++ at32 time) ∧
    (∀ time temp (m : PerChan Bool), detailBytes (.thermalDown time temp m) =
      [3] ++ at32 time ++ s16 temp
        ++ u8 ((if m.sx = true then 1 else 0) + (if m.sy = true then 2 else 0) + if m.rt = true then 4 else 0)) ∧
    (∀ i out ret frame time, detailBytes (.switched i out ret frame time) =
      [1] ++ u8 (ctxCode i) ++ u8 ((out.map ctxCode).getD 255) ++ bit ret ++ at32 frame ++ at32 time) ∧
    (∀ i code value, detailBytes (.ctxFault i code value) = [2] ++ u8 (ctxCode i) ++ u8 code ++ u32 value) ∧
    (∀ before after pause cycle cause vBat iBat pre fast time,
      detailBytes (.charge before after pause cycle cause vBat iBat pre fast time) =
        u8 (phaseCode before) ++ u8 (phaseCode after) ++ u8 (pauseCode pause) ++ u8 (cycleCode cycle)
          ++ u8 (chargeFaultCode cause) ++ s16 vBat ++ s16 iBat ++ u32 (msOfTicks pre) ++ u32 (msOfTicks fast)
          ++ at32 time) ∧
    (∀ usb aux before after iEff time, detailBytes (.input usb aux before after iEff time) =
      bit usb ++ bit aux ++ source before ++ source after ++ u16 iEff ++ at32 time) ∧
    (∀ kind before after vSys time started budget, detailBytes (.supply kind before after vSys time started budget) =
      u8 (supplyKindCode kind) ++ u8 (supplyCode before) ++ u8 (supplyCode after) ++ s16 vSys ++ at32 time
        ++ bit started ++ u8 budget) ∧
    (∀ before after temp time, detailBytes (.dieZone before after temp time) =
      [1] ++ u8 (dieZoneCode before) ++ u8 (dieZoneCode after) ++ s16 temp ++ at32 time) ∧
    (∀ before after temp time, detailBytes (.batZone before after temp time) =
      [2] ++ u8 (batZoneCode before) ++ u8 (batZoneCode after) ++ s16 temp ++ at32 time) ∧
    (∀ cause writer asked time, detailBytes (.guardTripped cause writer asked time) =
      [1] ++ u8 (tripCode (some cause)) ++ u8 (writerCode writer) ++ bit asked ++ at32 time) ∧
    (∀ kind time, detailBytes (.guardRestored kind time) = [2, kind] ++ at32 time) ∧
    (∀ time, detailBytes (.sensorLost time) = [1] ++ at32 time) ∧
    (∀ time, detailBytes (.sensorRestored time) = [2] ++ at32 time) ∧
    ∀ b : PerAxis Int, detailBytes (.biasLearned b) = [3] ++ s16 b.yaw ++ s16 b.pitch ++ s16 b.roll

/-- R193: ALERT_SET answers RANGE and changes nothing when a bit above the twelfth is set; otherwise it stores both
masks, clears every class no longer recorded, and answers both masks and ATTN after the request. -/
def Obligations.AlertSetStoresMasks : Prop :=
  ∀ (tag : Byte) (record alert : Half) (s : State), Takes s →
    (4096 ≤ record.toNat ∨ 4096 ≤ alert.toNat →
      exec (.alertSet tag record alert) s = .next (answer 0x04#8 tag .range [] s)) ∧
    (record.toNat < 4096 → alert.toNat < 4096 →
      ∃ e, let l := { s.lnk with
              events := e
              recordMask := record.setWidth 12
              alertMask := alert.setWidth 12 }
        exec (.alertSet tag record alert) s = .next (answer 0x04#8 tag .ok
          (u16 record.toNat ++ u16 alert.toNat ++ flag8 (attn l)) { s with lnk := l }) ∧
        ∀ c, eventGet e c = if record.getLsbD (classBit c) = true then eventGet s.lnk.events c else EvEntry.empty)

/-- R190, R191: an event of a recorded class raises its count by one, up to 255, and replaces its detail; of a class not
recorded it is not kept; no other class and nothing else changes. ATTN stands exactly while a class with its alert bit
set has a count above 0. -/
def Obligations.RaisedEventsAreCounted : Prop :=
  (∀ (d : Detail) (s : State),
    (s.lnk.recordMask.getLsbD (classBit (detailClass d)) = false → raise d s = s) ∧
      (s.lnk.recordMask.getLsbD (classBit (detailClass d)) = true →
        ∃ e, raise d s = { s with lnk := { s.lnk with events := e } } ∧
          ∀ c, eventGet e c =
            if c = detailClass d then ⟨min 255 ((eventGet s.lnk.events c).count + 1), some d⟩
            else eventGet s.lnk.events c)) ∧
    ∀ l : Lnk, attn l = true ↔ ∃ c, l.alertMask.getLsbD (classBit c) = true ∧ 0 < (eventGet l.events c).count

/-! ## RESET -/

/-- R200: RESET is answered OK at once and waits; its warm reset comes when a read transaction has sent the reply
whole, or 100 ms (410 ticks) after the request; a shorter read sends the reply again later. The warm reset has cause
REQUEST and ends at once with part time 0 and the link as R201 says; the status byte and the reply frame that the read
sent stand on the lanes after it (R186; the field is the model's own, log 38). Where the rules leave a point of this
open, the model's choice stands (logs 3, 12, 23, 31). -/
def Obligations.ResetRequestWaits : Prop :=
  (∀ (tag : Byte) (s : State), Takes s →
    exec (.reset tag) s =
      .next (answer 0x05#8 tag .ok [] { s with lnk := { s.lnk with resetTaken := some s.now } })) ∧
    ∀ (s : State) (t0 : Word), Awake s → s.rst.supplyLow = false → s.rst.lineLow = false →
      s.lnk.resetTaken = some t0 →
      (∀ (n : Nat) (r : Reply), s.lnk.reply = some r →
        (1 + (replyFrame r).length ≤ n →
          ∃ t, exec (.readTransaction n) s = .next t ∧ t.now = 0 ∧ t.rst = ⟨false, false, false, .request⟩ ∧
            t.lnk = { Lnk.reset with
              lanes := lanesOf (((linkStatus s.lnk :: replyFrame r) ++ List.replicate n 0#8).take n) } ∧
            t.msu = Msu.reset ∧ t.csu = Csu.reset ∧ t.ctx = Ctx.reset ∧ t.cbf = Cbf.reset ∧
            t.sdr = Sdr.reset ∧ t.ssv.st = s.ssv.st ∧ t.chg.latch = s.chg.latch ∧ t.ips.sel = s.ips.sel) ∧
          (n < 1 + (replyFrame r).length →
            ∃ t, exec (.readTransaction n) s = .next t ∧ t.lnk.reply = some r ∧ t.rst = s.rst ∧ t.now = s.now)) ∧
        (410 ≤ (s.now - t0).toNat →
          ∃ t, exec .resetWaitExpiry s = .next t ∧ t.now = 0 ∧ t.rst = ⟨false, false, false, .request⟩ ∧
            t.lnk = Lnk.reset ∧ t.msu = Msu.reset ∧ t.cbf = Cbf.reset ∧ t.sdr = Sdr.reset ∧
            t.ssv.st = s.ssv.st) ∧
        ((s.now - t0).toNat < 410 → exec .resetWaitExpiry s = .next s)

/-! ## The check-in guard -/

/-- R195, R196: CHECKIN. DISARMED: nothing but the reply. WINDOW: QUIET with the quiet timer started. QUIET: TRIPPED
with cause EARLY, every channel parked with GUARD, and a recording asked to stop with GUARD (R131): in RECORDING its
OPEN slot becomes CLOSING, in ROLLING the stop mark is set unless it is; then a free port is granted in the order of
R125. TRIPPED: QUIET, GUARD removed from every channel. The reply is OK with the state after, the trip cause and the
time left on the quiet timer. Where the rules leave a point of this open, the model's choice stands (logs 7, 33). -/
def Obligations.CheckInByGuardState : Prop :=
  ∀ (tag : Byte) (s : State), Takes s → PortLaw s →
    ∃ t, exec (.checkin tag) s = .next t ∧ KeepsClock s t ∧ t.msu = s.msu ∧ t.ctx = s.ctx ∧ KeepsPower s t ∧
      t.lnk.reply = some ⟨0x86#8, tag, .ok, u8 (guardCode t.lnk.guard) ++ u8 (tripCode t.lnk.trip) ++
        (match t.lnk.guard, t.lnk.guardEnd with
          | .quiet, some e => u32 (msOfTicks (ticksLeft s.now e))
          | _, _ => u32 0xFFFFFFFF)⟩ ∧
      (s.lnk.guard = .disarmed → t = { s with lnk := { s.lnk with reply := t.lnk.reply } }) ∧
      (s.lnk.guard = .window →
        t = { s with lnk := { s.lnk with
          reply := t.lnk.reply
          guard := .quiet
          trip := none
          guardEnd := some (later s.now (ticksOfMs (10 * s.lnk.quiet))) } }) ∧
      (s.lnk.guard = .quiet → GuardTrips .early s t) ∧
      (s.lnk.guard = .tripped →
        t.lnk = { s.lnk with
          reply := t.lnk.reply
          guard := .quiet
          trip := none
          guardEnd := some (later s.now (ticksOfMs (10 * s.lnk.quiet)))
          events := eventsWith (.guardRestored 0x06#8 s.now) s } ∧
          (∀ c, chanGet t.adu c = unparkedBy .guard s.now (chanGet s.adu c)) ∧ KeepsCard s t ∧ t.csu = s.csu)

/-- R194, R195: GUARD_SET stores both times in 10 ms; with both above 0 the guard is QUIET with its timer started, and
otherwise DISARMED; leaving TRIPPED removes GUARD from every channel. The quiet timer's end opens the window for the
window time; the window timer's end trips the guard with cause MISSED, every channel parked with GUARD and a recording
asked to stop with GUARD (R131), a free port then being granted in the order of R125. A timer that has not ended does
nothing (the guard on the two expiries is the model's choice, log 3). -/
def Obligations.GuardSetAndTimers : Prop :=
  (∀ (tag : Byte) (quiet window : Half) (s : State), Takes s →
    let on : Bool := decide (0 < quiet.toNat ∧ 0 < window.toNat)
    ∃ t, exec (.guardSet tag quiet window) s = .next t ∧ KeepsClock s t ∧ KeepsMotion s t ∧ KeepsPower s t ∧
      KeepsCard s t ∧
      t.lnk = { s.lnk with
        reply := some ⟨0x87#8, tag, .ok, u16 quiet.toNat ++ u16 window.toNat ++ u8 (if on then 1 else 0)⟩
        quiet := quiet.toNat
        window := window.toNat
        guard := if on then .quiet else .disarmed
        trip := none
        guardEnd := if on then some (later s.now (ticksOfMs (10 * quiet.toNat))) else none
        events := if s.lnk.guard = .tripped then eventsWith (.guardRestored 0x07#8 s.now) s else s.lnk.events } ∧
      ∀ c, chanGet t.adu c =
        if s.lnk.guard = .tripped then unparkedBy .guard s.now (chanGet s.adu c) else chanGet s.adu c) ∧
    (∀ (s : State) (e : Word), Awake s → s.lnk.guard = .quiet → s.lnk.guardEnd = some e →
      ((s.now - e).toNat < 2147483648 →
        exec .quietTimerExpiry s = .next { s with lnk := { s.lnk with
          guard := .window
          trip := none
          guardEnd := some (later s.now (ticksOfMs (10 * s.lnk.window))) } }) ∧
        (2147483648 ≤ (s.now - e).toNat → exec .quietTimerExpiry s = .next s)) ∧
    ∀ (s : State) (e : Word), Awake s → PortLaw s → s.lnk.guard = .window → s.lnk.guardEnd = some e →
      ((s.now - e).toNat < 2147483648 →
        ∃ t, exec .windowTimerExpiry s = .next t ∧ KeepsClock s t ∧ t.msu = s.msu ∧ t.ctx = s.ctx ∧ KeepsPower s t ∧
          t.lnk.reply = s.lnk.reply ∧ GuardTrips .missed s t) ∧
        (2147483648 ≤ (s.now - e).toNat → exec .windowTimerExpiry s = .next s)

/-! ## Motion sampling (spec/01) -/

/-- R16, R7: STAB_SET. A code that is not listed is RANGE. Otherwise learn and the threshold, at least 1, are stored,
and the stillness window is emptied when learning goes off or the threshold changes; run on leaves OFF for RUNNING, or
for STANDBY without a context or with a sensor fault; run off enters OFF, a pending switch ending as R44 to R48 say
and the channels' steps going to 0 when it leaves RUNNING. -/
def Obligations.StabSetByState : Prop :=
  ∀ (tag run learn still : Byte) (s : State), Takes s →
    (1 < run.toNat ∨ 1 < learn.toNat →
      exec (.stabSet tag run learn still) s = .next (answer 0x10#8 tag .range [] s)) ∧
    (run.toNat ≤ 1 → learn.toNat ≤ 1 →
      let n := max 1 still.toNat
      let emptied : Bool := decide ((s.msu.learn = true ∧ learn = 0#8) ∨ s.msu.still ≠ n)
      ∃ t, exec (.stabSet tag run learn still) s = .next t ∧ KeepsClock s t ∧ KeepsPower s t ∧ KeepsCard s t ∧
        t.lnk.reply = some ⟨0x90#8, tag, if still = 0#8 then .clamped else .ok, u8 (stabCode t.msu.stab) ++ u8 n⟩ ∧
        t.msu = { s.msu with
          learn := learn == 1#8
          still := n
          winCount := if emptied then 0 else s.msu.winCount
          winSum := if emptied then ⟨0, 0, 0⟩ else s.msu.winSum
          stab := t.msu.stab
          path := t.msu.path } ∧
        (run = 1#8 →
          t.msu.stab = (if s.msu.stab = .off then if s.ctx.active ≠ none ∧ s.msu.fault = false then .running else .standby
            else s.msu.stab) ∧
            t.msu.path = s.msu.path ∧ t.csu = s.csu ∧ t.ctx = s.ctx ∧ t.adu = s.adu ∧ KeepsLinkButReply s t) ∧
        (run = 0#8 →
          t.msu.stab = .off ∧
            (s.msu.stab ≠ .off → t.csu.sample = none ∧ t.csu.carried = Carried.empty) ∧
            (s.msu.stab ≠ .running →
              t.msu.path = s.msu.path ∧ t.csu.step = s.csu.step ∧ t.ctx = s.ctx ∧ t.adu = s.adu ∧
                KeepsLinkButReply s t) ∧
            (s.msu.stab = .running →
              t.ctx.pendingSwitch = none ∧ t.csu.step = ⟨0, 0, 0⟩ ∧ t.csu.absorbed = ⟨0, 0, 0⟩ ∧
                (s.ctx.pendingSwitch = none → t.ctx = s.ctx ∧ t.msu.path = s.msu.path ∧
                  t.lnk.events = s.lnk.events) ∧
                (∀ w, s.ctx.pendingSwitch = some w → SwitchEnds w s t) ∧
                ∀ c, chanGet t.adu c =
                  if (chanGet s.adu c).st = .active ∨ (chanGet s.adu c).st = .parked
                  then { chanGet s.adu c with waiting := some 0 } else chanGet s.adu c)))

/-- R6, R17: BIAS_SET stores the three values within −512..511 and empties the stillness window; IMPACT_SET stores the
six settings within their ranges. Each answers CLAMPED when a value was changed and OK otherwise, with the values as
applied, and changes nothing else: the bias and the settings of the tick under way stand (log 48). -/
def Obligations.MotionSettingsAreClamped : Prop :=
  (∀ (tag : Byte) (yaw pitch roll : Half) (s : State), Takes s →
    let b : PerAxis Int :=
      ⟨max (-512) (min 511 yaw.toInt), max (-512) (min 511 pitch.toInt), max (-512) (min 511 roll.toInt)⟩
    exec (.biasSet tag yaw pitch roll) s =
      .next (answer 0x11#8 tag
        (if b.yaw = yaw.toInt ∧ b.pitch = pitch.toInt ∧ b.roll = roll.toInt then .ok else .clamped)
        (s16 b.yaw ++ s16 b.pitch ++ s16 b.roll)
        { s with msu := { s.msu with bias := b, winCount := 0, winSum := ⟨0, 0, 0⟩ } })) ∧
    ∀ (tag thr count : Byte) (rearm park : Half) (pre post : Byte) (s : State), Takes s →
      let i : ImpactSettings :=
        { thr := max 16 thr.toNat
          count := max 1 (min 64 count.toNat)
          rearm := max 250 (min 8000 rearm.toNat)
          park := min 5000 park.toNat
          pre := min 60 pre.toNat
          post := min 60 post.toNat }
      exec (.impactSet tag thr count rearm park pre post) s =
        .next (answer 0x12#8 tag
          (if i = ⟨thr.toNat, count.toNat, rearm.toNat, park.toNat, pre.toNat, post.toNat⟩ then .ok else .clamped)
          (u8 i.thr ++ u8 i.count ++ u16 i.rearm ++ u16 i.park ++ u8 i.pre ++ u8 i.post)
          { s with msu := { s.msu with imp := i } })

/-- R1, R2, R9, R10, R154, R165: a tick integrates the sample of the tick that ends, less the bias of that tick, into
the angles, which wrap at half a turn; a missing sample counts and the last good values stand in. Part time, the
charger's timers and the stable time move on, and a new read begins, with the bias and the impact settings stored by
then (R6, R8, R17). (The model ends a tick's work where the next tick begins: log 1.) R11 to R13: with a context
active P moves toward A by its share and is held within the path limit; with none P is A; R4, R5: a sensor fault
changes nothing of that, and where it ends P is A; and R14: H is A less P. R7: while learning, outside a fault, a still
sample adds its count and its gyro values to the stillness window, and another or a missing one empties it. R4, R5: the
good samples in a row of a fault are counted, a missing one empties the count, and a fault begins and ends by its counts.
R2, R3, R12, R33: outside OFF the tick adds to the carried conditions the axes its path clamp held, a saturated gyro, a
missing sample and an impact. Where the rules leave a point of this open, the model's choice stands (logs 13, 36, 41,
48). -/
def Obligations.TickIntegratesMotion : Prop :=
  ∀ s : State, Awake s →
    ∃ t, exec .tick s = .next t ∧ t.now = s.now + 1 ∧ t.msu.read = .waiting ∧ t.rst = s.rst ∧ t.pending = s.pending ∧
      t.msu.tickBias = t.msu.bias ∧ t.msu.tickImp = t.msu.imp ∧ t.msu.imp = s.msu.imp ∧
      (s.msu.winCount < 4095 → t.msu.bias = s.msu.bias) ∧
      t.scn = s.scn ∧ t.ips = s.ips ∧ t.csu.frame = s.csu.frame ∧ t.csu.ring = s.csu.ring ∧
      t.chg.preTicks = (if s.chg.phase = .precharge then min 7372800 (s.chg.preTicks + 1) else s.chg.preTicks) ∧
      t.chg.fastTicks = (if s.chg.phase = .fastCc ∨ s.chg.phase = .fastCv then min 117964800 (s.chg.fastTicks + 1)
        else s.chg.fastTicks) ∧
      t.ssv.stable = s.ssv.stable.map (· + 1) ∧
      (s.msu.read = .idle →
        t.msu = { s.msu with read := .waiting, tickBias := s.msu.bias, tickImp := s.msu.imp } ∧ t.csu = s.csu ∧
          t.ctx = s.ctx ∧ t.adu = s.adu ∧ t.lnk = s.lnk ∧ KeepsCard s t) ∧
      (s.msu.read ≠ .idle →
        let raw := match s.msu.read with
          | .good x => x
          | _ => s.msu.last
        let r : PerAxis Int := ⟨raw.gyro.yaw.toInt - s.msu.tickBias.yaw, raw.gyro.pitch.toInt - s.msu.tickBias.pitch,
          raw.gyro.roll.toInt - s.msu.tickBias.roll⟩
        let good : Prop := ∃ x, s.msu.read = .good x
        let restored : Prop := good ∧ s.msu.fault = true ∧ 63 ≤ s.msu.goodRun
        let learns : Prop := s.msu.learn = true ∧ s.msu.fault = false
        let lost : Prop := ¬ good ∧ s.msu.fault = false ∧ 15 ≤ s.msu.missing
        let still (x : Sample) : Prop := (x.gyro.yaw.toInt - s.msu.tickBias.yaw).natAbs ≤ s.msu.still ∧
          (x.gyro.pitch.toInt - s.msu.tickBias.pitch).natAbs ≤ s.msu.still ∧
          (x.gyro.roll.toInt - s.msu.tickBias.roll).natAbs ≤ s.msu.still
        let sum := s.msu.winSum
        t.msu.last = raw ∧
          t.msu.missing = (match s.msu.read with
            | .good _ => 0
            | _ => min 16 (s.msu.missing + 1)) ∧
          (lost → t.msu.fault = true ∧ t.msu.goodRun = 0) ∧
          (restored → t.msu.fault = false ∧ t.msu.goodRun = 0) ∧
          (¬ lost → ¬ restored → t.msu.fault = s.msu.fault) ∧
          (good → s.msu.fault = true → s.msu.goodRun < 63 → t.msu.goodRun = s.msu.goodRun + 1) ∧
          (¬ good ∨ s.msu.fault = false → t.msu.goodRun = 0) ∧
          (s.msu.winCount < 4095 →
            (¬ learns → ¬ lost → t.msu.winCount = s.msu.winCount ∧ t.msu.winSum = sum) ∧
            (learns → ¬ good → t.msu.winCount = 0 ∧ t.msu.winSum = ⟨0, 0, 0⟩) ∧
            ∀ x, learns → s.msu.read = .good x →
              (still x → t.msu.winCount = s.msu.winCount + 1 ∧
                t.msu.winSum = ⟨sum.yaw + x.gyro.yaw.toInt, sum.pitch + x.gyro.pitch.toInt,
                  sum.roll + x.gyro.roll.toInt⟩) ∧
              (¬ still x → t.msu.winCount = 0 ∧ t.msu.winSum = ⟨0, 0, 0⟩)) ∧
          t.msu.angle = ⟨wrapTurn (s.msu.angle.yaw + r.yaw), wrapTurn (s.msu.angle.pitch + r.pitch),
            wrapTurn (s.msu.angle.roll + r.roll)⟩ ∧
          (good ∨ s.msu.missing < 15 ∨ s.msu.fault = true ∨ s.msu.stab ≠ .running ∨ s.ctx.pendingSwitch = none →
            let toward (shift : Byte) (a0 p0 r a : Int) : Int :=
              let p := p0 + (a - (a0 + r))
              p + roundDiv (a - p) (2 ^ shift.toNat)
            let carried (held : PerAxis Bool) : Carried :=
              { pathClamp := ⟨s.csu.carried.pathClamp.yaw || held.yaw, s.csu.carried.pathClamp.pitch || held.pitch,
                  s.csu.carried.pathClamp.roll || held.roll⟩
                gyroSat := s.csu.carried.gyroSat || (match s.msu.read with
                  | .good x => gyroSaturated x
                  | _ => false)
                sensorHold := s.csu.carried.sensorHold || (match s.msu.read with
                  | .good _ => false
                  | _ => true)
                impact := s.csu.carried.impact || impactNow s.msu
                ctxSwitch := s.csu.carried.ctxSwitch }
            (s.msu.stab = .off → t.csu.carried = s.csu.carried) ∧
            (activeFields s = none ∨ restored → t.msu.path = t.msu.angle ∧
              (s.msu.stab ≠ .off → t.csu.carried = carried ⟨false, false, false⟩)) ∧
              (∀ f, activeFields s = some f → ¬ restored →
                let beyond (shift : Byte) (limit : Word) (a0 p0 r a : Int) : Bool :=
                  decide (limit.toNat < (a - toward shift a0 p0 r a).natAbs)
                (s.msu.stab ≠ .off → t.csu.carried = carried
                  ⟨beyond f.shift.yaw f.limit.yaw s.msu.angle.yaw s.msu.path.yaw r.yaw t.msu.angle.yaw,
                    beyond f.shift.pitch f.limit.pitch s.msu.angle.pitch s.msu.path.pitch r.pitch t.msu.angle.pitch,
                    beyond f.shift.roll f.limit.roll s.msu.angle.roll s.msu.path.roll r.roll t.msu.angle.roll⟩) ∧
                let axis (shift : Byte) (limit : Word) (a0 p0 r a : Int) : Int :=
                  a - clampAbs limit.toNat (a - toward shift a0 p0 r a)
                t.msu.path =
                  ⟨axis f.shift.yaw f.limit.yaw s.msu.angle.yaw s.msu.path.yaw r.yaw t.msu.angle.yaw,
                    axis f.shift.pitch f.limit.pitch s.msu.angle.pitch s.msu.path.pitch r.pitch t.msu.angle.pitch,
                    axis f.shift.roll f.limit.roll s.msu.angle.roll s.msu.path.roll r.roll t.msu.angle.roll⟩) ∧
              t.csu.offset = ⟨t.msu.angle.yaw - t.msu.path.yaw, t.msu.angle.pitch - t.msu.path.pitch,
                t.msu.angle.roll - t.msu.path.roll⟩))

/-- R21 to R24: in RUNNING, at a tick that brings no sensor fault and no impact, each channel's step is the predicted
offset times the gain, clamped to the travel, and 0 in a CROP_ONLY context, with a gain of 0 or on a channel that is
not ACTIVE; its absorbed angle is formed from it; and it waits as the channel's next step. Where the rules leave a
point of this open, the model's choice stands (logs 1, 36). -/
def Obligations.TickSplitsCorrection : Prop :=
  ∀ (s : State) (f : CtxFields), Awake s → s.msu.read ≠ .idle → s.msu.stab = .running → s.msu.fault = false →
    activeFields s = some f → ((∃ x, s.msu.read = .good x) ∨ s.msu.missing < 15) → impactNow s.msu = false →
    ∃ t, exec .tick s = .next t ∧ t.msu.stab = .running ∧ t.ctx = s.ctx ∧
      ∀ c : Chan,
        let raw := match s.msu.read with
          | .good x => x
          | _ => s.msu.last
        let rate : Int := (axisOf raw.gyro c).toInt - axisOf s.msu.tickBias c
        let h : Int := axisOf t.msu.angle c - axisOf t.msu.path c
        let gain := (axisOf f.gain c).toNat
        let v : Int :=
          if f.mode = 1#8 ∨ gain = 0 ∨ (chanGet s.adu c).st ≠ .active then 0
          else clampAbs (axisOf f.travel c).toNat (roundDiv ((h + rate * f.lookahead.toNat) * gain) 16777216)
        chanGet t.csu.step c = v ∧
          chanGet t.csu.absorbed c = (if gain = 0 then 0 else clampAbs 1073741824 (roundDiv (v * 16777216) gain)) ∧
          chanGet t.adu c =
            if (chanGet s.adu c).st = .active ∨ (chanGet s.adu c).st = .parked
            then { chanGet s.adu c with waiting := some v } else chanGet s.adu c

/-- R1, R18, R20: the sensor line answers the read under way, and only that one; the re-arm hold ends at its time; the
impact park ends at its time, IMPACT leaving every channel's set. (An expiry whose time has not come does nothing:
the model's choice, log 3.) Where the rules leave a point of this open, the model's choice stands (log 34). -/
def Obligations.SensorAnswersAndHoldsEnd : Prop :=
  (∀ (x : Option Sample) (s : State), Awake s →
    (s.msu.read = .waiting →
      exec (.sensorReadDone x) s = .next { s with msu := { s.msu with read := match x with
        | some y => .good y
        | none => .failed } }) ∧
      (s.msu.read ≠ .waiting → exec (.sensorReadDone x) s = .next s)) ∧
    (∀ (s : State) (e : Word), Awake s → s.msu.rearmEnd = some e →
      ((s.now - e).toNat < 2147483648 →
        exec .rearmHoldExpiry s = .next { s with msu := { s.msu with rearmEnd := none } }) ∧
        (2147483648 ≤ (s.now - e).toNat → exec .rearmHoldExpiry s = .next s)) ∧
    ∀ (s : State) (e : Word), Awake s → s.msu.parkEnd = some e →
      ((s.now - e).toNat < 2147483648 →
        ∃ t, exec .impactParkExpiry s = .next t ∧
          t = { s with msu := { s.msu with parkEnd := none }, adu := t.adu } ∧
          ∀ c, chanGet t.adu c = unparkedBy .impact s.now (chanGet s.adu c)) ∧
        (2147483648 ≤ (s.now - e).toNat → exec .impactParkExpiry s = .next s)

/-- R4, R5, R7, R8: the tick whose missing sample is the sixteenth in a row begins a sensor fault: SENSOR_LOST, the
stillness window emptied, RUNNING left for STANDBY with every step 0, where a pending switch ends as R44 to R48 say,
the path of that tick being the one saved. The tick whose good sample is the sixty-fourth
in a row of a fault ends it: P is A, and STANDBY with a context active becomes RUNNING. The tick whose still sample
is the 4,096th in a row makes the rounded mean the bias. Where the rules leave a point of this open, the model's
choice stands (logs 1, 13, 36; no second fault begins within a lasting one: log 41). -/
def Obligations.SensorFaultAndBiasTicks : Prop :=
  (∀ s : State, Awake s → s.msu.read = .waiting ∨ s.msu.read = .failed → s.msu.fault = false → 15 ≤ s.msu.missing →
    s.msu.winCount < 4096 → s.ctx.pendingSwitch = none →
    ∃ t, exec .sensorLost s = .next t ∧ exec .tick s = .next t ∧ t.msu.fault = true ∧ t.msu.missing = 16 ∧
      t.msu.winCount = 0 ∧ t.lnk.events = eventsWith (.sensorLost s.now) s ∧
      t.msu.stab = (if s.msu.stab = .running then .standby else s.msu.stab) ∧
      (s.msu.stab = .running → t.csu.step = ⟨0, 0, 0⟩ ∧ t.csu.absorbed = ⟨0, 0, 0⟩) ∧
      (s.msu.stab ≠ .off → t.csu.carried.sensorHold = true)) ∧
    (∀ (s : State) (w : Switch) (f : CtxFields), Awake s → s.msu.read = .waiting ∨ s.msu.read = .failed →
      s.msu.fault = false → 15 ≤ s.msu.missing → s.msu.winCount < 4096 → s.msu.stab = .running →
      s.ctx.pendingSwitch = some w → activeFields s = some f →
      ∃ t, exec .sensorLost s = .next t ∧ exec .tick s = .next t ∧ t.msu.fault = true ∧ t.msu.stab = .standby ∧
        t.csu.step = ⟨0, 0, 0⟩ ∧
        let axis (shift : Byte) (limit : Word) (a0 p0 a : Int) (g : Half) (b : Int) : Int :=
          let p := p0 + (a - (a0 + (g.toInt - b)))
          a - clampAbs limit.toNat (a - (p + roundDiv (a - p) (2 ^ shift.toNat)))
        let m := s.msu
        SwitchEnds w { s with
          msu := { m with
            angle := t.msu.angle
            path :=
              ⟨axis f.shift.yaw f.limit.yaw m.angle.yaw m.path.yaw t.msu.angle.yaw m.last.gyro.yaw m.tickBias.yaw,
                axis f.shift.pitch f.limit.pitch m.angle.pitch m.path.pitch t.msu.angle.pitch m.last.gyro.pitch
                  m.tickBias.pitch,
                axis f.shift.roll f.limit.roll m.angle.roll m.path.roll t.msu.angle.roll m.last.gyro.roll
                  m.tickBias.roll⟩ }
          lnk := { s.lnk with events := eventsWith (.sensorLost s.now) s } } t) ∧
    (∀ (s : State) (x : Sample), Awake s → s.msu.read = .good x → s.msu.fault = true → 63 ≤ s.msu.goodRun →
      s.msu.winCount < 4096 → impactNow s.msu = false →
      ∃ t, exec .sensorRestored s = .next t ∧ exec .tick s = .next t ∧ t.msu.fault = false ∧ t.msu.goodRun = 0 ∧
        t.msu.path = t.msu.angle ∧ t.csu.offset = ⟨0, 0, 0⟩ ∧
        t.lnk.events = eventsWith (.sensorRestored s.now) s ∧
        t.msu.stab = if s.msu.stab = .standby ∧ s.ctx.active ≠ none then .running else s.msu.stab) ∧
    (∀ (s : State) (x : Sample), Awake s → s.msu.read = .good x → s.msu.fault = false → s.msu.learn = true →
      s.msu.winCount = 4095 →
      (x.gyro.yaw.toInt - s.msu.tickBias.yaw).natAbs ≤ s.msu.still →
      (x.gyro.pitch.toInt - s.msu.tickBias.pitch).natAbs ≤ s.msu.still →
      (x.gyro.roll.toInt - s.msu.tickBias.roll).natAbs ≤ s.msu.still →
      let mean (sum : Int) (g : Half) : Int := max (-512) (min 511 (roundDiv (sum + g.toInt) 4096))
      let b : PerAxis Int := ⟨mean s.msu.winSum.yaw x.gyro.yaw, mean s.msu.winSum.pitch x.gyro.pitch,
        mean s.msu.winSum.roll x.gyro.roll⟩
      ∃ t, exec .biasLearned s = .next t ∧ exec .tick s = .next t ∧ t.msu.bias = b ∧ t.msu.tickBias = b ∧
        t.msu.winCount = 0 ∧
        t.msu.winSum = ⟨0, 0, 0⟩ ∧
        (impactNow s.msu = false → t.lnk.events = eventsWith (.biasLearned b) s)) ∧
    (∀ (s : State) (x : Sample), Awake s → s.msu.read = .good x → exec .sensorLost s = .next s) ∧
    (∀ s : State, Awake s → s.msu.fault = true → exec .sensorLost s = .next s) ∧
    (∀ s : State, Awake s → s.msu.fault = false → exec .sensorRestored s = .next s) ∧
    ∀ s : State, Awake s → s.msu.winCount < 4095 → exec .biasLearned s = .next s

/-- R18 to R20: the tick whose sample above threshold brings the count to the setting qualifies an impact: count and
peak return to 0, the re-arm hold and the impact park start, IMPACT joins every channel's set, the frames carry IMPACT,
and IMPACT is raised with the greatest sum of squares and the slots locked. Below threshold, in a hold, or below the
count nothing qualifies. R19, R109 to R113: the lock request, made in RECORDING, ROLLING and EMERGENCY_CLOSE when a
slot is OPEN or CLOSING: the candidates are that slot and, within the pre-roll, the slot before it in its recording;
they are locked in that order while the quota has room or the lowest sequence that is no candidate's can be released;
each change asks for a header update and each release raises SLOT(released); the anchor's impact count rises by one, up
to 255, and the post-roll mark is set. R18: a sample above threshold below the count raises the count by one and the
peak to the greater; a missing sample, and any during a hold, leaves both. (The settings are those of the tick: log
48.) Where the rules leave a point of this open, the model's choice stands (logs 1, 36). -/
def Obligations.ImpactQualifies : Prop :=
  (∀ (s : State) (x : Sample), Awake s → PortLaw s → s.msu.read = .good x → s.msu.rearmEnd = none →
    let squares := x.accX.toInt.natAbs ^ 2 + x.accY.toInt.natAbs ^ 2 + x.accZ.toInt.natAbs ^ 2
    let peak := max s.msu.qPeak squares
    let imp := s.msu.tickImp
    (imp.thr * 128) ^ 2 < squares ∨ gyroSaturated x = true →
    imp.count ≤ s.msu.qCount + 1 →
    ∃ t, exec .impactQualify s = .next t ∧ exec .tick s = .next t ∧ t.msu.qCount = 0 ∧ t.msu.qPeak = 0 ∧
      t.msu.rearmEnd = some (later s.now (ticksOfMs imp.rearm)) ∧
      t.msu.parkEnd = (if imp.park = 0 then s.msu.parkEnd else some (later s.now (ticksOfMs imp.park))) ∧
      (∀ c,
        let ch := if imp.park = 0 then chanGet s.adu c else parkedBy .impact (chanGet s.adu c)
        (chanGet t.adu c).st = ch.st ∧ (chanGet t.adu c).park = ch.park ∧ (chanGet t.adu c).finalPeriod = ch.finalPeriod) ∧
      (s.msu.stab ≠ .off → t.csu.carried.impact = true) ∧
      let es := s.sdr.entries
      let anchor : Option Nat :=
        if s.cwr.writer = .recording ∨ s.cwr.writer = .rolling ∨ s.cwr.writer = .emergencyClose
        then (openSlot s).or (closingSlot s) else none
      let reports (slots : List Nat) : Prop := s.lnk.recordMask.getLsbD 0 = true →
        t.lnk.events.impact = ⟨min 255 (s.lnk.events.impact.count + 1), some (.impact s.now peak slots)⟩
      t.cbf = s.cbf ∧ t.cwr.writer = s.cwr.writer ∧
        t.sdr = { s.sdr with entries := t.sdr.entries, queue := t.sdr.queue, mark := t.sdr.mark } ∧
        (anchor = none → reports [] ∧ KeepsCardButPort s t) ∧
        ∀ a e o q, anchor = some a → entryAt s a = some e → e.openTime = some o → e.sequence = some q →
          LocksSequenced es →
          let before (j : Nat) : Prop := (s.now - o).toNat < imp.pre * 4096 ∧
            ∃ y p, es[j]? = some y ∧ y.sequence = some p ∧ p < q ∧ y.recId = e.recId ∧
              ∀ k z r, es[k]? = some z → z.sequence = some r → r < q → r < p ∨ (r = p ∧ j ≤ k)
          ∀ cands, (cands = [a] ∧ ∀ j, ¬ before j) ∨ (∃ j, before j ∧ cands = [a, j]) →
            let on := impactAfter (quotaOf s) cands cands es
            (∀ j, (entryAt t j).map unqueued = (entryAt s j).map fun y => unqueued { y with
              locks := { y.locks with impact := on j }
              impactCount := if j = a then min 255 (y.impactCount + 1) else y.impactCount }) ∧
            t.sdr.mark = (if s.cwr.writer = .emergencyClose then s.sdr.mark
              else if imp.post = 0 then none else some ⟨s.now, cands, imp.post⟩) ∧
            reports (cands.filter on) ∧
            (s.lnk.recordMask.getLsbD 1 = true →
              ReleasesReported (releaseCount (quotaOf s) cands cands es) (releasable cands es) es s.lnk.events.slot
                t.lnk.events.slot) ∧
            ∃ q', Enqueued (fun j => on j != holdsImpact es j) s.sdr.queue q' ∧
              (s.cwr.port ≠ none → t.cwr.port = s.cwr.port ∧ t.sdr.queue = q') ∧
              (s.cwr.port = none →
                ArbiterGrants (beforeGrant { s with sdr := { s.sdr with queue := q' } } t) t)) ∧
    (∀ (s : State) (e : Word), Awake s → s.msu.rearmEnd = some e → exec .impactQualify s = .next s) ∧
    (∀ (s : State) (x : Sample), Awake s → s.msu.read = .good x → s.msu.rearmEnd = none → gyroSaturated x = false →
      x.accX.toInt.natAbs ^ 2 + x.accY.toInt.natAbs ^ 2 + x.accZ.toInt.natAbs ^ 2 ≤ (s.msu.tickImp.thr * 128) ^ 2 →
      exec .impactQualify s = .next s ∧
        ∃ t, exec .tick s = .next t ∧ t.msu.qCount = 0 ∧ t.msu.qPeak = 0) ∧
    (∀ s : State, Awake s → s.msu.qCount + 1 < s.msu.tickImp.count → exec .impactQualify s = .next s) ∧
    (∀ (s : State) (x : Sample), Awake s → s.msu.read = .good x → s.msu.rearmEnd = none →
      s.msu.qCount + 1 < s.msu.tickImp.count →
      let squares := x.accX.toInt.natAbs ^ 2 + x.accY.toInt.natAbs ^ 2 + x.accZ.toInt.natAbs ^ 2
      (s.msu.tickImp.thr * 128) ^ 2 < squares ∨ gyroSaturated x = true →
      ∃ t, exec .tick s = .next t ∧ t.msu.qCount = s.msu.qCount + 1 ∧ t.msu.qPeak = max s.msu.qPeak squares ∧
        t.msu.rearmEnd = none ∧ t.msu.parkEnd = s.msu.parkEnd) ∧
    ∀ s : State, Awake s → s.msu.read = .waiting ∨ s.msu.read = .failed ∨ s.msu.rearmEnd ≠ none →
      exec .impactQualify s = .next s ∧
        ∃ t, exec .tick s = .next t ∧ t.msu.qCount = s.msu.qCount ∧ t.msu.qPeak = s.msu.qPeak ∧
          t.msu.rearmEnd = s.msu.rearmEnd ∧ t.msu.parkEnd = s.msu.parkEnd

/-- Second law (R12, R13, R47): every command keeps every path within its context's limit of the angle, and P equal to A
with no context active. -/
def Obligations.PathLawIsKept : Prop :=
  ∀ (s t : State), PathLaw s → step s = .next t → PathLaw t

/-- First law (R22): every command keeps the step of a channel at 0 unless it is ACTIVE, in RUNNING, in a context that
is not CROP_ONLY and gives its axis a gain, and otherwise within the travel. -/
def Obligations.StepLawIsKept : Prop :=
  ∀ (s t : State), StepLaw s → step s = .next t → StepLaw t

/-! ## Frames (spec/02) -/

/-- R27, R30, R50: a rising edge on FSYNC counts the frame; with the stabilization off nothing more happens; otherwise
the sample of the new frame is scheduled at the readout offset, or taken at once with an offset of 0 or without a
context; a sample still pending is taken first, for its own frame and in the old context, and a pending switch ends
before the count. R45: a switch to a context with a field out of its range raises CONTEXT(fault) and changes nothing
else. R46 to R48, R25: any other commits: the old context saves the path and loses its link on a return, the new one
is active and links to the old one; the path is the saved one at the nearest turn, held within the limit; every held
step is clamped to the new travel, or 0 where it may not stand, with the absorbed angle formed from it;
CONTEXT(switched) carries the frame before the count; and CTX_SWITCH and the clamps of the path are in the first
record taken after it. (A held step that is only clamped is not handed to its channel: the model's choice, log 27.) -/
def Obligations.FsyncEdgeCountsFrame : Prop :=
  ∀ s : State, Awake s →
    let n := s.csu.frame + 1
    let last16 (ring : List FrameRecord) : List FrameRecord := ring.drop (ring.length - 16)
    let kept : Carried := if s.csu.sample = none then s.csu.carried else Carried.empty
    let ring := match s.csu.sample with
      | none => s.csu.ring
      | some p => last16 (s.csu.ring ++ [recordOf p.frame s])
    let counted (carried : Carried) (t : State) : Prop :=
      (∀ f, activeFields t = some f → f.readout ≠ 0#8 →
        t.csu.sample = some ⟨n, later s.now f.readout.toNat⟩ ∧ t.csu.ring = ring ∧ t.csu.carried = carried) ∧
      ((∀ f, activeFields t = some f → f.readout = 0#8) →
        t.csu.sample = none ∧ t.csu.carried = Carried.empty ∧
          t.csu.ring = last16 (ring ++ [recordOf n { t with csu := { t.csu with carried := carried } }]))
    ∃ t, exec .fsyncEdge s = .next t ∧ t.csu.frame = n ∧ t.now = s.now ∧ t.rst = s.rst ∧ t.pending = s.pending ∧
      t.scn = s.scn ∧ t.ips = s.ips ∧ t.msu.angle = s.msu.angle ∧ t.ctx.pendingSwitch = none ∧
      (s.ctx.pendingSwitch = none → t.msu = s.msu ∧ t.ctx = s.ctx ∧ t.csu.step = s.csu.step) ∧
      (s.csu.sample = none → s.ctx.pendingSwitch = none → s.msu.stab = .off →
        t = { s with csu := { s.csu with frame := n } }) ∧
      (s.csu.sample = none → s.ctx.pendingSwitch = none → s.msu.stab ≠ .off →
        ∀ f, activeFields s = some f → f.readout ≠ 0#8 →
          t = { s with csu := { s.csu with frame := n, sample := some ⟨n, later s.now f.readout.toNat⟩ } }) ∧
      (s.csu.sample = none → s.ctx.pendingSwitch = none → s.msu.stab ≠ .off →
        (∀ f, activeFields s = some f → f.readout = 0#8) →
          ∃ r, r.frame = n ∧ r.time = s.now ∧ t.csu.ring = last16 (s.csu.ring ++ [r]) ∧ t.csu.sample = none ∧
            t.csu.carried = Carried.empty) ∧
      (∀ p, s.csu.sample = some p → s.ctx.pendingSwitch = none → s.msu.stab ≠ .off →
        ∀ f, activeFields s = some f → f.readout ≠ 0#8 →
          t.csu.sample = some ⟨n, later s.now f.readout.toNat⟩ ∧
            ∃ r, r.frame = p.frame ∧ r.time = s.now ∧ t.csu.ring = last16 (s.csu.ring ++ [r])) ∧
      (s.ctx.pendingSwitch = none → s.msu.stab ≠ .off → PortLaw s → counted kept t) ∧
      ∀ w, s.ctx.pendingSwitch = some w → s.msu.stab = .running → PortLaw s →
        let x := ctxGet s.ctx w.index
        let held := pathHeld x s.msu.angle
        SwitchEnds w s t ∧ t.msu = { s.msu with path := t.msu.path } ∧ t.csu.offset = s.csu.offset ∧
        (firstBad x.fields ≠ none →
          t.adu = s.adu ∧ t.csu.step = s.csu.step ∧ t.csu.absorbed = s.csu.absorbed ∧ counted kept t) ∧
        (firstBad x.fields = none →
          counted { kept with
              pathClamp := ⟨kept.pathClamp.yaw || held.yaw, kept.pathClamp.pitch || held.pitch,
                kept.pathClamp.roll || held.roll⟩
              ctxSwitch := true } t ∧
            ∀ c,
              let ch := chanGet s.adu c
              let gain := (axisOf x.fields.gain c).toNat
              let bars : Prop := x.fields.mode = 1#8 ∨ gain = 0 ∨ ch.st ≠ .active
              let v : Int := clampAbs (axisOf x.fields.travel c).toNat (chanGet s.csu.step c)
              (bars → chanGet t.csu.step c = 0 ∧ chanGet t.csu.absorbed c = 0 ∧
                chanGet t.adu c = if ch.st = .active ∨ ch.st = .parked then { ch with waiting := some 0 } else ch) ∧
              (¬ bars → chanGet t.csu.step c = v ∧
                chanGet t.csu.absorbed c = clampAbs 1073741824 (roundDiv (v * 16777216) gain) ∧
                chanGet t.adu c = ch))

/-- R28, R29, R32 to R36, R38, R90: at its part time the scheduled sample becomes a frame record: the crop is the
residue of the latest offset and the absorbed angles in RUNNING, clamped to the margins, and 0 in STANDBY; the flags
are the carried conditions, which empty, the crop clamps, the channels not ACTIVE and STANDBY. The record joins the
ring of 16, and answers a FRAME_GET held for its frame. R90, R91: in RECORDING and ROLLING it is handed for the OPEN
slot: where the list of 128 and the slot's motion capacity have room it joins the list, the slot's admitted count rises
by one and the slot's first one is its first frame; else the slot's motion dropped rises by one. R125: a free port is
granted then. Before its part time nothing happens (log 3). -/
def Obligations.CropSampleMakesRecord : Prop :=
  ∀ (s : State) (p : PendingSample), Awake s → PortLaw s → s.csu.sample = some p →
    (2147483648 ≤ (s.now - p.due).toNat → exec .cropSample s = .next s) ∧
    ((s.now - p.due).toNat < 2147483648 →
      ∃ t r, exec .cropSample s = .next t ∧ KeepsClock s t ∧ KeepsPower s t ∧ t.msu = s.msu ∧ t.ctx = s.ctx ∧
        t.adu = s.adu ∧ r = recordOf p.frame s ∧ r.frame = p.frame ∧ r.time = s.now ∧
        t.csu = { s.csu with
          ring := (s.csu.ring ++ [r]).drop (s.csu.ring.length + 1 - 16)
          carried := Carried.empty
          sample := none } ∧
        (s.msu.stab ≠ .running → r.cropX = 0 ∧ r.cropY = 0 ∧ r.roll = 0) ∧
        (∀ f, s.msu.stab = .running → activeFields s = some f →
          let x := roundDiv ((s.csu.offset.yaw - s.csu.absorbed.sx) * f.pxX.toNat) 16777216
          let y := roundDiv ((s.csu.offset.pitch - s.csu.absorbed.sy) * f.pxY.toNat) 16777216
          let z := roundDiv (s.csu.offset.roll - s.csu.absorbed.rt) 256
          r.cropX = clampAbs f.marginX.toNat x ∧ r.cropY = clampAbs f.marginY.toNat y ∧
            r.roll = clampAbs f.rollMargin.toNat z ∧
            r.flags.getLsbD 3 = decide (r.cropX ≠ x) ∧ r.flags.getLsbD 4 = decide (r.cropY ≠ y) ∧
            r.flags.getLsbD 5 = decide (r.roll ≠ z)) ∧
        r.flags.getLsbD 0 = s.csu.carried.pathClamp.yaw ∧ r.flags.getLsbD 1 = s.csu.carried.pathClamp.pitch ∧
        r.flags.getLsbD 2 = s.csu.carried.pathClamp.roll ∧ r.flags.getLsbD 6 = s.csu.carried.gyroSat ∧
        r.flags.getLsbD 7 = s.csu.carried.sensorHold ∧ r.flags.getLsbD 8 = decide (s.adu.sx.st ≠ .active) ∧
        r.flags.getLsbD 9 = decide (s.adu.sy.st ≠ .active) ∧ r.flags.getLsbD 10 = decide (s.adu.rt.st ≠ .active) ∧
        r.flags.getLsbD 11 = s.csu.carried.impact ∧ r.flags.getLsbD 12 = s.csu.carried.ctxSwitch ∧
        r.flags.getLsbD 13 = decide (s.msu.stab = .standby) ∧ r.flags.toNat < 16384 ∧
        t.cbf.segs = s.cbf.segs ∧ t.cbf.assigned = s.cbf.assigned ∧
        (∀ i, (s.cwr.writer = .recording ∨ s.cwr.writer = .rolling) → openSlot s = some i →
          let admits : Prop := s.cbf.pend.length < 128 ∧ admittedOf i s.cbf.admitted < motionCapacity s
          (admits →
            t.cbf.pend = s.cbf.pend ++ [⟨i, r⟩] ∧
              (∀ j, admittedOf j t.cbf.admitted =
                if j = i then admittedOf i s.cbf.admitted + 1 else admittedOf j s.cbf.admitted) ∧
              ∀ j, (entryAt t j).map unqueued = (entryAt s j).map fun e => unqueued
                (if j = i ∧ admittedOf i s.cbf.admitted = 0 then { e with firstFrame := some r.frame } else e)) ∧
          (¬ admits →
            t.cbf = s.cbf ∧
              ∀ j, (entryAt t j).map unqueued = (entryAt s j).map fun e => unqueued
                (if j = i then { e with motionDropped := min 4294967295 (e.motionDropped + 1) } else e))) ∧
        (s.cwr.writer ≠ .recording → s.cwr.writer ≠ .rolling →
          t.cbf = s.cbf ∧ t.sdr.entries.map unqueued = s.sdr.entries.map unqueued) ∧
        t.sdr = { s.sdr with entries := t.sdr.entries, queue := t.sdr.queue } ∧
        t.cwr = { s.cwr with
          port := t.cwr.port
          run := t.cwr.run
          offUnit := t.cwr.offUnit
          offBlock := t.cwr.offBlock
          blockFirst := t.cwr.blockFirst } ∧
        (s.cwr.port ≠ none → t.cwr.port = s.cwr.port ∧ t.cwr.run = s.cwr.run ∧ t.sdr.queue = s.sdr.queue) ∧
        (s.cwr.port = none → arbitrating s.cwr.writer = true → ArbiterGrants (beforeGrant s t) t) ∧
        (∀ tag taken, s.lnk.req = some (.frameGet tag p.frame taken) →
          t.lnk = { s.lnk with req := none, reply := some ⟨0x97#8, tag, .ok, recordBytes r⟩ }) ∧
        ((∀ tag taken, s.lnk.req ≠ some (.frameGet tag p.frame taken)) → t.lnk = s.lnk))

/-- R37, R38: FRAME_GET. STATE with the stabilization off; the record of a frame in the ring is answered OK; the frame
whose sample is pending, and the next frame, are held for their record; a later frame is RANGE, an earlier one GONE.
A held FRAME_GET is answered NOT_READY 100 ms (410 ticks) after it was taken. Where the rules leave a point of this
open, the model's choice stands (log 3). -/
def Obligations.FrameGetCases : Prop :=
  (∀ (tag : Byte) (n : Word) (s : State), Takes s →
    let d := (n - s.csu.frame).toInt
    let absent : Prop := ∀ r ∈ s.csu.ring, r.frame ≠ n
    let held : State := { s with lnk := { s.lnk with req := some (.frameGet tag n s.now) } }
    (s.msu.stab = .off → exec (.frameGet tag n) s = .next (answer 0x17#8 tag .state [] s)) ∧
      (s.msu.stab ≠ .off →
        (¬ absent → ∃ r ∈ s.csu.ring, r.frame = n ∧
          exec (.frameGet tag n) s = .next (answer 0x17#8 tag .ok (recordBytes r) s)) ∧
        (absent → (d = 0 ∧ s.csu.sample ≠ none) ∨ d = 1 → exec (.frameGet tag n) s = .next held) ∧
        (absent → 2 ≤ d → exec (.frameGet tag n) s = .next (answer 0x17#8 tag .range [] s)) ∧
        (absent → d < 0 ∨ (d = 0 ∧ s.csu.sample = none) →
          exec (.frameGet tag n) s = .next (answer 0x17#8 tag .gone [] s)))) ∧
    ∀ (s : State) (tag : Byte) (n taken : Word), Awake s → s.lnk.req = some (.frameGet tag n taken) →
      (410 ≤ (s.now - taken).toNat →
        exec .frameGetTimeout s =
          .next { s with lnk := { s.lnk with req := none, reply := some ⟨0x97#8, tag, .notReady, []⟩ } }) ∧
      ((s.now - taken).toNat < 410 → exec .frameGetTimeout s = .next s)

/-! ## Contexts (spec/03) -/

/-- R40, R41: CTX_WRITE stores the static fields of a context that is neither active nor pending and unsets its saved
path, leaving its link; an active or pending one is BUSY. CTX_READ answers a context's role, fields, saved path and link
and changes nothing. An index above 3 is RANGE for both. -/
def Obligations.ContextsAreWrittenAndRead : Prop :=
  ∀ (tag index : Byte) (fields : CtxFields) (s : State), Takes s →
    (4 ≤ index.toNat →
      exec (.ctxWrite tag index fields) s = .next (answer 0x13#8 tag .range [] s) ∧
        exec (.ctxRead tag index) s = .next (answer 0x14#8 tag .range [] s)) ∧
    ∀ i : CtxIx, index.toNat = ctxCode i →
      let pends : Prop := ∃ w, s.ctx.pendingSwitch = some w ∧ w.index = i
      (s.ctx.active = some i ∨ pends → exec (.ctxWrite tag index fields) s = .next (answer 0x13#8 tag .busy [] s)) ∧
      (s.ctx.active ≠ some i → ¬ pends →
        ∃ x, exec (.ctxWrite tag index fields) s = .next (answer 0x13#8 tag .ok [] { s with ctx := x }) ∧
          x.active = s.ctx.active ∧ x.pendingSwitch = s.ctx.pendingSwitch ∧
          ∀ j, ctxGet x j =
            if j = i then { ctxGet s.ctx i with fields := fields, saved := none } else ctxGet s.ctx j) ∧
      ∃ role : Nat,
        ((role = 1 ↔ s.ctx.active = some i) ∧ (role = 2 ↔ s.ctx.active ≠ some i ∧ pends) ∧ role ≤ 2) ∧
          exec (.ctxRead tag index) s = .next (answer 0x14#8 tag .ok
            ([index, BitVec.ofNat 8 role] ++ ctxFieldsBytes (ctxGet s.ctx i).fields ++
              (match (ctxGet s.ctx i).saved with
                | none => [0#8] ++ s32 0 ++ s32 0 ++ s32 0
                | some p => [7#8] ++ s32 p.yaw ++ s32 p.pitch ++ s32 p.roll) ++
              [match (ctxGet s.ctx i).link with
                | none => 0xFF#8
                | some j => BitVec.ofNat 8 (ctxCode j)]) s)

/-- R42 to R48: CTX_SELECT of the active context is SAME, with a switch pending BUSY, in RUNNING ACCEPTED and pending,
and otherwise made at once; CTX_RETURN does it with the active context's link, and is NO_LINK without one. A switch
made at once whose fields all lie in their ranges commits: the old context saves the path, the new one becomes active
with its link to the old one (which loses its own on a return), the path is the saved one at the nearest turn held
within the limit, the steps and absorbed angles are 0 (R22, R25) with the 0 handed to each channel (R23), CTX_SWITCH and
the clamps of the path are carried outside OFF (R33), STANDBY becomes RUNNING without a sensor fault, and the reply is
OK with SWITCHED. One with a field out of its range raises CONTEXT(fault), is answered OK with FAULT, the first such
field's code and its value, and changes nothing else. -/
def Obligations.ContextSwitches : Prop :=
  (∀ (tag index : Byte) (s : State), Takes s →
    (4 ≤ index.toNat → exec (.ctxSelect tag index) s = .next (answer 0x15#8 tag .range [] s)) ∧
    ∀ i : CtxIx, index.toNat = ctxCode i →
      (s.ctx.active = some i → exec (.ctxSelect tag index) s = .next (answer 0x15#8 tag .same [] s)) ∧
      (s.ctx.active ≠ some i → s.ctx.pendingSwitch ≠ none →
        exec (.ctxSelect tag index) s = .next (answer 0x15#8 tag .busy [] s)) ∧
      (s.ctx.active ≠ some i → s.ctx.pendingSwitch = none → s.msu.stab = .running →
        exec (.ctxSelect tag index) s =
          .next (answer 0x15#8 tag .accepted [] { s with ctx := { s.ctx with pendingSwitch := some ⟨i, false⟩ } })) ∧
      (s.ctx.active ≠ some i → s.ctx.pendingSwitch = none → s.msu.stab ≠ .running →
        (∀ c, firstBad (ctxGet s.ctx i).fields = some c →
          exec (.ctxSelect tag index) s = .next (answer 0x15#8 tag .ok ([2#8] ++ u8 c.code ++ u32 c.value)
            (raise (.ctxFault i c.code c.value) s))) ∧
        (firstBad (ctxGet s.ctx i).fields = none →
          ∃ t, exec (.ctxSelect tag index) s = .next t ∧ t.lnk.reply = some ⟨0x95#8, tag, .ok, [1, 0, 0, 0, 0, 0]⟩ ∧
            SwitchMade ⟨i, false⟩ s t))) ∧
    (∀ (tag : Byte) (s : State), Takes s →
      ((∀ o, s.ctx.active = some o → (ctxGet s.ctx o).link = none) →
        exec (.ctxReturn tag) s = .next (answer 0x16#8 tag .noLink [] s)) ∧
      ∀ o i, s.ctx.active = some o → (ctxGet s.ctx o).link = some i →
        (s.ctx.pendingSwitch ≠ none → exec (.ctxReturn tag) s = .next (answer 0x16#8 tag .busy [] s)) ∧
        (s.ctx.pendingSwitch = none → i = o → exec (.ctxReturn tag) s = .next (answer 0x16#8 tag .same [] s)) ∧
        (s.ctx.pendingSwitch = none → i ≠ o → s.msu.stab = .running →
          exec (.ctxReturn tag) s =
            .next (answer 0x16#8 tag .accepted [] { s with ctx := { s.ctx with pendingSwitch := some ⟨i, true⟩ } })) ∧
        (s.ctx.pendingSwitch = none → i ≠ o → s.msu.stab ≠ .running →
          (∀ c, firstBad (ctxGet s.ctx i).fields = some c →
            exec (.ctxReturn tag) s = .next (answer 0x16#8 tag .ok ([2#8] ++ u8 c.code ++ u32 c.value)
              (raise (.ctxFault i c.code c.value) s))) ∧
          (firstBad (ctxGet s.ctx i).fields = none →
            ∃ t, exec (.ctxReturn tag) s = .next t ∧ t.lnk.reply = some ⟨0x96#8, tag, .ok, [1, 0, 0, 0, 0, 0]⟩ ∧
              SwitchMade ⟨i, true⟩ s t))) ∧
    ∀ f : CtxFields,
      firstBad f = none ↔
        (1 ≤ f.mode.toNat ∧ f.mode.toNat ≤ 2) ∧
          (∀ c, 3 ≤ (axisOf f.shift c).toNat ∧ (axisOf f.shift c).toNat ≤ 14 ∧ 1 ≤ (axisOf f.limit c).toNat ∧
            (axisOf f.limit c).toNat ≤ 1310720 ∧ (axisOf f.travel c).toNat ≤ 1024) ∧
          f.lookahead.toNat ≤ 15 ∧ f.marginX.toNat ≤ 1024 ∧ f.marginY.toNat ≤ 1024 ∧ f.rollMargin.toNat ≤ 1280

/-! ## The actuator drive (spec/04) -/

/-- R58, R59, R57: ACT_ENABLE. A mask with a bit above the third is RANGE. On: a mask of 0 changes nothing; in die zone
CRITICAL, or with a named channel THERMAL at 100.0 °C or above, STATE and nothing changes; otherwise every named
channel gets its attempts back, and one in OFF, LATCHED or THERMAL becomes ACTIVE, or PARKED with reasons in its
set, driving nothing yet. Off: every named channel becomes OFF, driving nothing, its step and absorbed angle 0 when
it was ACTIVE. Where the rules leave a point of this open, the model's choice stands (log 39). -/
def Obligations.ActEnableSwitchesChannels : Prop :=
  ∀ (tag mask : Byte) (s : State), Takes s →
    (8 ≤ mask.toNat →
      exec (.actEnableOn tag mask) s = .next (answer 0x18#8 tag .range [] s) ∧
        exec (.actEnableOff tag mask) s = .next (answer 0x19#8 tag .range [] s)) ∧
    (mask.toNat < 8 →
      let barred : Prop := mask ≠ 0#8 ∧ (s.scn.die.b105 = true ∨
        (1000 ≤ s.scn.tDie.latest ∧ ∃ c, named mask c = true ∧ (chanGet s.adu c).st = .thermal))
      (barred → exec (.actEnableOn tag mask) s = .next (answer 0x18#8 tag .state [] s)) ∧
      (¬ barred →
        ∃ a, exec (.actEnableOn tag mask) s = .next (answer 0x18#8 tag .ok
            (u8 (chanStateCode a.sx.st) ++ u8 (chanStateCode a.sy.st) ++ u8 (chanStateCode a.rt.st))
            { s with adu := a }) ∧
          ∀ c,
            let ch := chanGet s.adu c
            chanGet a c =
              if named mask c = false then ch
              else if ch.st = .off ∨ ch.st = .latched ∨ ch.st = .thermal then
                { ch with
                  attempts := ch.cfg.attempts
                  st := onState ch
                  retryEnd := none
                  waiting := none
                  applied := 0
                  duty := 0
                  qual := 0
                  finalPeriod := false
                  cleanStart := if onState ch = .active then some s.now else ch.cleanStart }
              else { ch with attempts := ch.cfg.attempts }) ∧
      ∃ a step absorbed, exec (.actEnableOff tag mask) s = .next (answer 0x19#8 tag .ok
          (u8 (chanStateCode a.sx.st) ++ u8 (chanStateCode a.sy.st) ++ u8 (chanStateCode a.rt.st))
          { s with adu := a, csu := { s.csu with step := step, absorbed := absorbed } }) ∧
        ∀ c,
          let ch := chanGet s.adu c
          let leaves : Prop := named mask c = true ∧ ch.st = .active
          chanGet a c = (if named mask c = true then haltedIn .off ch else ch) ∧
            (leaves → chanGet step c = 0 ∧ chanGet absorbed c = 0) ∧
            (¬ leaves → chanGet step c = chanGet s.csu.step c ∧ chanGet absorbed c = chanGet s.csu.absorbed c))

/-- R55, R56: ACT_SET stores a channel's seven settings within their ranges, the limit on a multiple of 50 mA, and
lowers the attempts left to the new number; ACT_GROUP stores one prescaler and one period into the named channels, and
with a mask of 0 is answered OK and changes nothing (the two values that reply carries are free: log 11). Neither
touches the period under way. A field that is not listed, and a mask with a bit above the third, is RANGE. -/
def Obligations.ActSettingsAreStored : Prop :=
  (∀ (tag chan prescaler : Byte) (period limit : Half) (delay retry attempts retryDelay : Byte) (s : State), Takes s →
    (1 < retry.toNat ∨ 2 < chan.toNat →
      exec (.actSet tag chan prescaler period limit delay retry attempts retryDelay) s =
        .next (answer 0x1A#8 tag .range [] s)) ∧
    ∀ c : Chan, retry.toNat ≤ 1 → chan.toNat = chanCode c →
      let cfg : ChanSettings :=
        { prescaler := max 1 (min 32 prescaler.toNat)
          period := max 16 period.toNat
          limit := max 50 (min 800 (limit.toNat / 50 * 50))
          delay := min 63 delay.toNat
          retry := retry == 1#8
          attempts := attempts.toNat
          retryDelay := max 1 retryDelay.toNat }
      let same : Prop := cfg.prescaler = prescaler.toNat ∧ cfg.period = period.toNat ∧ cfg.limit = limit.toNat ∧
        cfg.delay = delay.toNat ∧ cfg.retryDelay = retryDelay.toNat
      ∃ a st, exec (.actSet tag chan prescaler period limit delay retry attempts retryDelay) s =
          .next (answer 0x1A#8 tag st
            (u8 cfg.prescaler ++ u16 cfg.period ++ u16 cfg.limit ++ u8 cfg.delay ++ [retry] ++ [attempts]
              ++ u8 cfg.retryDelay) { s with adu := a }) ∧
        (same → st = .ok) ∧ (¬ same → st = .clamped) ∧
        ∀ d, chanGet a d =
          if d = c then { chanGet s.adu d with cfg := cfg, attempts := min (chanGet s.adu d).attempts attempts.toNat }
          else chanGet s.adu d) ∧
    ∀ (tag mask prescaler : Byte) (period : Half) (s : State), Takes s →
      (8 ≤ mask.toNat → exec (.actGroup tag mask prescaler period) s = .next (answer 0x1B#8 tag .range [] s)) ∧
      (mask = 0#8 → ∃ (p : Byte) (q : Half),
        exec (.actGroup tag mask prescaler period) s = .next (answer 0x1B#8 tag .ok (u8 p.toNat ++ u16 q.toNat) s)) ∧
      (mask.toNat < 8 → mask ≠ 0#8 →
        let p := max 1 (min 32 prescaler.toNat)
        let q := max 16 period.toNat
        ∃ a st, exec (.actGroup tag mask prescaler period) s =
            .next (answer 0x1B#8 tag st (u8 p ++ u16 q) { s with adu := a }) ∧
          (p = prescaler.toNat ∧ q = period.toNat → st = .ok) ∧
          (¬ (p = prescaler.toNat ∧ q = period.toNat) → st = .clamped) ∧
          ∀ d, chanGet a d =
            if named mask d = true
            then { chanGet s.adu d with cfg := { (chanGet s.adu d).cfg with prescaler := p, period := q } }
            else chanGet s.adu d)

/-- R61 to R63: ACT_PARK on adds HOST to every named channel's set, an ACTIVE one becoming PARKED with a step of 0
waiting; off removes it, a PARKED channel whose last reason it was becoming ACTIVE. A mask with a bit above the
third is RANGE. Where the rules leave a point of this open, the model's choice stands (log 39). -/
def Obligations.ActParkAddsAndRemovesHost : Prop :=
  ∀ (tag mask : Byte) (s : State), Takes s →
    (8 ≤ mask.toNat →
      exec (.actParkOn tag mask) s = .next (answer 0x1C#8 tag .range [] s) ∧
        exec (.actParkOff tag mask) s = .next (answer 0x1D#8 tag .range [] s)) ∧
    (mask.toNat < 8 →
      (∃ a step absorbed, exec (.actParkOn tag mask) s = .next (answer 0x1C#8 tag .ok (chanParksBytes a)
          { s with adu := a, csu := { s.csu with step := step, absorbed := absorbed } }) ∧
        ∀ c,
          let ch := chanGet s.adu c
          let leaves : Prop := named mask c = true ∧ ch.st = .active
          chanGet a c = (if named mask c = true then parkedBy .host ch else ch) ∧
            (leaves → chanGet step c = 0 ∧ chanGet absorbed c = 0) ∧
            (¬ leaves → chanGet step c = chanGet s.csu.step c ∧ chanGet absorbed c = chanGet s.csu.absorbed c)) ∧
      ∃ a, exec (.actParkOff tag mask) s = .next (answer 0x1D#8 tag .ok (chanParksBytes a) { s with adu := a }) ∧
        ∀ c, chanGet a c =
          if named mask c = true then unparkedBy .host s.now (chanGet s.adu c) else chanGet s.adu c)

/-- R53, R54, R64 to R67: a period start takes the settings' prescaler and period, the waiting step and its duty, and
ends a final period. The bridge drives output A for a positive applied step and B for a negative one, during the duty
ticks of a period of an ACTIVE channel or of a park's final period, and never both. The comparator's input is taken as
it is, at or below the limit the qualification time returning to 0; on a driven channel above its limit the time runs,
and once it reaches the delay (n × 2,400 cycles of 48 MHz) the fault qualifies: RETRY_WAIT with one attempt fewer, or
LATCHED without retries, the channel driving nothing. RETRY_WAIT ends at its time in ACTIVE, or PARKED with reasons in
the set; 10 s (40,960 ticks) of a clean run restore the attempts. Where the rules leave a point of this open, the
model's choice stands (logs 3, 8, 27). -/
def Obligations.DriveOvercurrentAndRetry : Prop :=
  (∀ ch : Channel,
    let on : Prop := (ch.st = .active ∨ (ch.st = .parked ∧ ch.finalPeriod = true)) ∧ ch.periodCount < ch.duty
    ((bridge ch).1 = true ↔ on ∧ 0 < ch.applied) ∧ ((bridge ch).2 = true ↔ on ∧ ch.applied < 0)) ∧
  (∀ (c : Chan) (s : State), Awake s →
    ∃ a, exec (.pwmPeriodStart c) s = .next { s with adu := a } ∧
      ∀ d, chanGet a d =
        let ch := chanGet s.adu d
        let step := ch.waiting.getD ch.applied
        if d = c then
          { ch with
            prescalerInUse := ch.cfg.prescaler
            periodInUse := ch.cfg.period
            waiting := none
            applied := step
            duty := step.natAbs * ch.cfg.period / 1024
            periodCount := 0
            prescaleCount := 0
            finalPeriod := false
            qual := if ch.st = .active then ch.qual else 0 }
        else ch) ∧
    (∀ (c : Chan) (above : Bool) (s : State),
      ∃ a, exec (.ocComparatorChange c above) s = .next { s with adu := a } ∧
        ∀ d, chanGet a d =
          if d = c then
            { chanGet s.adu d with comparator := above, qual := if above = true then (chanGet s.adu d).qual else 0 }
          else chanGet s.adu d) ∧
    (∀ (c : Chan) (cycles : Nat) (s : State), Awake s →
      let ch := chanGet s.adu c
      let driven : Prop := ch.st = .active ∨ (ch.st = .parked ∧ ch.finalPeriod = true)
      let retry : Prop := ch.cfg.retry = true ∧ 0 < ch.attempts
      (¬ (driven ∧ ch.comparator = true) → exec (.overcurrentFault c cycles) s = .next s) ∧
      (driven → ch.comparator = true → max ch.qual cycles < ch.cfg.delay * 2400 →
        ∃ a, exec (.overcurrentFault c cycles) s = .next { s with adu := a } ∧
          ∀ d, chanGet a d = if d = c then { ch with qual := max ch.qual cycles } else chanGet s.adu d) ∧
      (driven → ch.comparator = true → ch.cfg.delay * 2400 ≤ max ch.qual cycles →
        ∃ t, exec (.overcurrentFault c cycles) s = .next t ∧ KeepsClock s t ∧ KeepsPower s t ∧ KeepsCard s t ∧
          t.msu = s.msu ∧ t.ctx = s.ctx ∧
          (retry →
            chanGet t.adu c =
              { haltedIn .retryWait ch with
                attempts := ch.attempts - 1
                retryEnd := some (later s.now (ticksOfMs ch.cfg.retryDelay)) } ∧
              t.lnk.events = eventsWith (.overcurrent c s.now ch.cfg.limit (ch.attempts - 1)) s) ∧
          (¬ retry →
            chanGet t.adu c = haltedIn .latched ch ∧
              t.lnk.events = eventsWith (.latched c s.now)
                { s with lnk := { s.lnk with
                    events := eventsWith (.overcurrent c s.now ch.cfg.limit ch.attempts) s } }) ∧
          (∀ d, d ≠ c → chanGet t.adu d = chanGet s.adu d) ∧
          (ch.st = .active → chanGet t.csu.step c = 0 ∧ chanGet t.csu.absorbed c = 0))) ∧
    (∀ (c : Chan) (s : State) (e : Word), Awake s → (chanGet s.adu c).st = .retryWait →
      (chanGet s.adu c).retryEnd = some e →
      ((s.now - e).toNat < 2147483648 →
        ∃ a, exec (.retryDelayExpiry c) s = .next { s with adu := a } ∧
          (chanGet a c).st = onState (chanGet s.adu c) ∧ (chanGet a c).attempts = (chanGet s.adu c).attempts ∧
          (chanGet a c).retryEnd = none ∧ (chanGet a c).applied = 0 ∧ (chanGet a c).waiting = none ∧
          ((chanGet a c).st = .active → (chanGet a c).cleanStart = some s.now) ∧
          ∀ d, d ≠ c → chanGet a d = chanGet s.adu d) ∧
        (2147483648 ≤ (s.now - e).toNat → exec (.retryDelayExpiry c) s = .next s)) ∧
    ∀ (c : Chan) (s : State) (e : Word), Awake s → (chanGet s.adu c).cleanStart = some e →
      (40960 ≤ (s.now - e).toNat →
        ∃ a, exec (.cleanRunExpiry c) s = .next { s with adu := a } ∧
          ∀ d, chanGet a d =
            if d = c then
              { chanGet s.adu d with attempts := (chanGet s.adu d).cfg.attempts, cleanStart := some s.now }
            else chanGet s.adu d) ∧
        ((s.now - e).toNat < 40960 → exec (.cleanRunExpiry c) s = .next s)

/-! ## Measurement scan (spec/05) -/

/-- R71 to R74: a conversion in slots 1 to 6 clamps its reading into the input's range, makes it the latest value and
enters it into the history of eight, and the next slot follows; nothing else changes. Slots 1 and 2 keep the value under
the source's name too. An average is the sum over the count, rounded half away. -/
def Obligations.ScanConversionsTakeReadings : Prop :=
  (∀ (z : Int) (s : State), Awake s →
    let within (lo hi : Int) : Int := max lo (min hi z)
    let enter (i : Input) (v : Int) : Input := ⟨v, (i.hist ++ [v]).drop (i.hist.length + 1 - 8)⟩
    let named (src : Src) (c : Scn) : Scn :=
      match src with
      | .usb => { c with usb := within 0 20000 }
      | .aux => { c with aux := within 0 20000 }
    let c := s.scn
    (c.slot = 1 → exec (.scanConversion (.value z)) s =
      .next { s with scn := named c.slot1 { c with slot := 2, vIn := enter c.vIn (within 0 20000) } }) ∧
    (c.slot = 2 →
      let other : Src := if c.slot1 = .usb then .aux else .usb
      exec (.scanConversion (.value z)) s =
        .next { s with scn := named other { c with slot := 3, vAlt := enter c.vAlt (within 0 20000) } }) ∧
    (c.slot = 3 → exec (.scanConversion (.value z)) s =
      .next { s with scn := { c with slot := 4, vBat := enter c.vBat (within 0 5000) } }) ∧
    (c.slot = 4 → exec (.scanConversion (.value z)) s =
      .next { s with scn := { c with slot := 5, iBat := enter c.iBat (within (-4000) 4000) } }) ∧
    (c.slot = 5 → exec (.scanConversion (.value z)) s =
      .next { s with scn := { c with slot := 6, vSys := enter c.vSys (within 0 5000) } }) ∧
    (c.slot = 6 → exec (.scanConversion (.value z)) s =
      .next { s with scn := { c with slot := 7, iSys := enter c.iSys (within 0 4000) } })) ∧
    ∀ i : Input, inputAvg i = if i.hist = [] then 0 else roundDiv i.hist.sum i.hist.length

/-- R75, R77, R78, R150, R161: the T_BAT conversion. PRESENT: a temperature clears the open count, enters the history
and moves the four boundaries with hysteresis; the second open reading in a row makes the battery ABSENT with its
history cleared. ABSENT: an open reading clears the history; the eighth temperature in a row makes it PRESENT,
classified from the average by the entry values alone. The zone is COLD, COOL, HOT, WARM or NORMAL in that order; a
change raises one THERMAL event and sets the charger's battery reasons: one added in PRECHARGE, FAST_CC, FAST_CV or
DONE pauses the charger at once, with I_cmd and the termination count 0, the cycle phase kept, and one CHARGE event;
else a lowered target lowers I_cmd at once, and the derated target that STATUS reports (log 17). BATTERY_ABSENT and
BATTERY_PRESENT are the conversions at which that happens (the model's choice, log 2). -/
def Obligations.BatteryComesAndGoes : Prop :=
  let within (z : Int) : Int := max (-400) (min 1250 z)
  let enter (i : Input) (v : Int) : Input := ⟨v, (i.hist ++ [v]).drop (i.hist.length + 1 - 8)⟩
  let zone (b : BatSides) : BatZone :=
    if b.c0 = true then .cold else if b.c10 = true then .cool else if b.w55 = true then .hot
    else if b.w45 = true then .warm else .normal
  let changed (s t : State) (z : BatZone) (avg : Int) : Prop :=
    (z = s.scn.batZone → t.lnk = s.lnk ∧ t.chg = s.chg) ∧
    (z ≠ s.scn.batZone →
      let p : PauseSet := ⟨z == .cold, z == .hot, s.scn.die.b85, s.chg.pause.supply⟩
      ReasonsBecome p (loweredTo (targetAfter z s.scn.die.b70 s.chg.phase s.chg.fast) { s.chg with pause := p }) s t ∧
        (s.lnk.recordMask.getLsbD 9 = true →
          t.lnk.events.thermal =
            ⟨min 255 (s.lnk.events.thermal.count + 1), some (.batZone s.scn.batZone z avg s.now)⟩))
  let frame (s t : State) : Prop :=
    KeepsClock s t ∧ KeepsMotion s t ∧ KeepsCard s t ∧ t.adu = s.adu ∧ t.ips = s.ips ∧ t.ssv = s.ssv
  (∀ (z : Int) (s : State), Awake s → s.scn.slot = 7 → s.scn.battery = true →
    let bat := enter s.scn.tBat (within z)
    let a := inputAvg bat
    let o := s.scn.batSides
    let b : BatSides :=
      ⟨if o.c0 = true then decide (a < 20) else decide (a < 0), if o.c10 = true then decide (a < 120) else decide (a < 100),
        if o.w45 = true then decide (430 ≤ a) else decide (450 ≤ a),
        if o.w55 = true then decide (530 ≤ a) else decide (550 ≤ a)⟩
    ∃ t, exec (.scanConversion (.value z)) s = .next t ∧ frame s t ∧
      t.scn = { s.scn with slot := 8, openCount := 0, tBat := bat, batSides := b, batZone := zone b } ∧
      changed s t (zone b) a) ∧
  (∀ s : State, Awake s → s.scn.slot = 7 → s.scn.battery = true →
    (s.scn.openCount = 0 →
      exec (.scanConversion .openCircuit) s = .next { s with scn := { s.scn with slot := 8, openCount := 1 } } ∧
        exec .batteryAbsent s = .next s) ∧
    (1 ≤ s.scn.openCount →
      ∃ t, exec .batteryAbsent s = .next t ∧ exec (.scanConversion .openCircuit) s = .next t ∧ frame s t ∧
        t.scn = { s.scn with
          slot := 8
          battery := false
          openCount := 0
          validCount := 0
          tBat := ⟨0, []⟩
          batZone := .absent } ∧
        changed s t .absent 0)) ∧
  (∀ s : State, Awake s → s.scn.slot = 7 → s.scn.battery = false →
    exec (.scanConversion .openCircuit) s =
      .next { s with scn := { s.scn with slot := 8, validCount := 0, tBat := ⟨0, []⟩ } }) ∧
  ∀ (z : Int) (s : State), Awake s → s.scn.slot = 7 → s.scn.battery = false →
    let bat := enter s.scn.tBat (within z)
    let a := inputAvg bat
    let b : BatSides := ⟨decide (a < 0), decide (a < 100), decide (450 ≤ a), decide (550 ≤ a)⟩
    (s.scn.validCount < 7 →
      exec (.scanConversion (.value z)) s =
        .next { s with scn := { s.scn with slot := 8, tBat := bat, validCount := s.scn.validCount + 1 } } ∧
        exec (.batteryPresent z) s = .next s) ∧
    (7 ≤ s.scn.validCount →
      ∃ t, exec (.batteryPresent z) s = .next t ∧ exec (.scanConversion (.value z)) s = .next t ∧ frame s t ∧
        t.scn = { s.scn with
          slot := 8
          battery := true
          openCount := 0
          validCount := s.scn.validCount + 1
          tBat := bat
          batSides := b
          batZone := zone b } ∧
        changed s t (zone b) a)

/-- R76, R78, R68: the T_DIE conversion moves the three die boundaries with hysteresis by the latest value; a change of
zone raises one THERMAL event with the zones before and after; a change to CRITICAL takes every channel that is not OFF
to THERMAL, driving nothing, with its step and absorbed angle 0 if it was ACTIVE, and raises one ACTUATOR(thermal) that
names the channels this entry took there, or none when it took none. R150: a change that gives the charger a new reason
in PRECHARGE, FAST_CC, FAST_CV or DONE pauses it at once, with I_cmd and the termination count 0 and, where the round
end that comes with it leaves it PAUSED, the cycle phase kept and one CHARGE event (the zone change comes first: the
model's choice, log 42). The round ends and slot 1 follows. -/
def Obligations.DieZonesAndShutdown : Prop :=
  ∀ (z : Int) (s : State), Awake s → s.scn.slot = 8 →
    let v : Int := max (-400) (min 1500 z)
    let o := s.scn.die
    let d : DieSides :=
      ⟨if o.b70 = true then decide (670 ≤ v) else decide (700 ≤ v),
        if o.b85 = true then decide (820 ≤ v) else decide (850 ≤ v),
        if o.b105 = true then decide (1020 ≤ v) else decide (1050 ≤ v)⟩
    let zone (x : DieSides) : DieZone :=
      if x.b105 = true then .critical else if x.b85 = true then .hot else if x.b70 = true then .warm else .normal
    let shuts : Prop := zone d = .critical ∧ zone o ≠ .critical
    ∃ t, exec (.scanConversion (.value z)) s = .next t ∧ KeepsClock s t ∧ KeepsCard s t ∧ t.msu = s.msu ∧ t.ctx = s.ctx ∧
      t.ssv = s.ssv ∧ t.scn.slot = 1 ∧ t.scn.die = d ∧
      t.scn.tDie = ⟨v, (s.scn.tDie.hist ++ [v]).drop (s.scn.tDie.hist.length + 1 - 8)⟩ ∧
      (zone d = zone o → t.lnk.events.thermal = s.lnk.events.thermal ∧ t.chg.pause = s.chg.pause) ∧
      (zone d ≠ zone o →
        let p : PauseSet := ⟨s.scn.batZone == .cold, s.scn.batZone == .hot, d.b85, s.chg.pause.supply⟩
        t.chg.pause = p ∧
        (pausesAt p s.chg = true →
          t.chg.iCmd = 0 ∧ t.chg.term = 0 ∧ charging t.chg.phase = false ∧ t.chg.phase ≠ .done ∧
            (t.chg.phase = .paused →
              t.chg.cycle = s.chg.cycle ∧
                (s.lnk.recordMask.getLsbD 6 = true →
                  t.lnk.events.charge = ⟨min 255 (s.lnk.events.charge.count + 1),
                    some (chargeDetail s s.chg.phase .paused p s.chg.cycle none)⟩))) ∧
        (s.lnk.recordMask.getLsbD 9 = true →
          t.lnk.events.thermal =
            ⟨min 255 (s.lnk.events.thermal.count + 1), some (.dieZone (zone o) (zone d) v s.now)⟩)) ∧
      (let falls (ch : Channel) : Bool := decide (ch.st ≠ .off ∧ ch.st ≠ .thermal)
        let fell : PerChan Bool := ⟨falls s.adu.sx, falls s.adu.sy, falls s.adu.rt⟩
        let any : Prop := fell.sx = true ∨ fell.sy = true ∨ fell.rt = true
        (¬ (shuts ∧ any) → t.lnk.events.actuator = s.lnk.events.actuator) ∧
          (shuts → any → s.lnk.recordMask.getLsbD 4 = true →
            t.lnk.events.actuator =
              ⟨min 255 (s.lnk.events.actuator.count + 1), some (.thermalDown s.now v fell)⟩)) ∧
      ∀ c,
        let ch := chanGet s.adu c
        (shuts → ch.st ≠ .off → ch.st ≠ .thermal → chanGet t.adu c = haltedIn .thermal ch) ∧
          (¬ shuts ∨ ch.st = .off ∨ ch.st = .thermal → chanGet t.adu c = ch) ∧
          (shuts → ch.st = .active → chanGet t.csu.step c = 0 ∧ chanGet t.csu.absorbed c = 0) ∧
          (¬ shuts ∨ ch.st ≠ .active → chanGet t.csu.step c = chanGet s.csu.step c)

/-! ## Input power and charging (spec/09) -/

/-- R142 to R144, R146, R73: at the round end each source's presence is counted against its threshold by its latest
voltage (32 notices above it to come, 2 not above it to go), the selection follows the presences and the preference,
and I_eff starts at 500 mA (or the lower limit) on a change of selection and otherwise walks by the latest V_IN
against the selected floor. A change of presence or selection raises one INPUT event. The scan exchanges V_IN and
V_ALT when the source slot 1 measures changes. R147: the input stage draws at most I_eff from the selected source;
with NONE selected, at most 100 mA from the higher of the two inputs (by their latest voltages: log 50).
SOURCE_PRESENT, SOURCE_LOST and I_EFF_RAISE are the conversions at which that happens (the model's choice, log 2).
Where the rules leave a point of this open, the model's choice stands (log 14). -/
def Obligations.RoundEndSelectsInput : Prop :=
  (∀ u : State,
    (∀ src, u.ips.sel = some src → inputStage u = ⟨src, u.ips.iEff⟩) ∧
      (u.ips.sel = none → (inputStage u).limit = 100 ∧
        (u.scn.aux < u.scn.usb → (inputStage u).source = .usb) ∧
        (u.scn.usb < u.scn.aux → (inputStage u).source = .aux))) ∧
  ∀ (z : Int) (s : State), Awake s → s.scn.slot = 8 →
    let p := s.ips
    let presence (threshold v : Int) (x : Presence) : Presence :=
      if x.present = true then
        if threshold < v then { x with loss := 0 } else if x.loss = 0 then { x with loss := 1 } else ⟨false, 0, 0⟩
      else if threshold < v then if x.count < 31 then { x with count := x.count + 1 } else ⟨true, 0, 0⟩
      else { x with count := 0 }
    let usb := presence 4300 s.scn.usb p.usb
    let aux := presence 5000 s.scn.aux p.aux
    let sel : Option Src :=
      if usb.present = true then if aux.present = true then some p.pref else some .usb
      else if aux.present = true then some .aux else none
    let limit : Nat := match sel with
      | none => 0
      | some .usb => p.usbLimit
      | some .aux => p.auxLimit
    let floor : Int := match sel with
      | none => 0
      | some .usb => p.usbFloor
      | some .aux => p.auxFloor
    let v := s.scn.vIn.latest
    let walk : Nat × Nat :=
      if v < floor then (max 100 (p.iEff - 100), 0)
      else if v < floor + 200 then (p.iEff, 0)
      else if p.sag < 31 then (p.iEff, p.sag + 1)
      else (min limit (p.iEff + 50), 0)
    let source : Option Src → Src := fun x => x.getD .usb
    ∃ t, exec (.scanConversion (.value z)) s = .next t ∧ t.ips.usb = usb ∧ t.ips.aux = aux ∧ t.ips.sel = sel ∧
      t.ips = { p with usb := usb, aux := aux, sel := sel, iEff := t.ips.iEff, sag := t.ips.sag } ∧
      (sel ≠ p.sel → t.ips.iEff = min 500 limit ∧ t.ips.sag = 0) ∧
      (sel = p.sel → sel = none → t.ips.iEff = 0 ∧ t.ips.sag = p.sag) ∧
      (sel = p.sel → sel ≠ none → (t.ips.iEff, t.ips.sag) = walk) ∧
      (usb.present = p.usb.present ∧ aux.present = p.aux.present ∧ sel = p.sel →
        t.lnk.events.input = s.lnk.events.input) ∧
      (¬ (usb.present = p.usb.present ∧ aux.present = p.aux.present ∧ sel = p.sel) →
        s.lnk.recordMask.getLsbD 7 = true →
          t.lnk.events.input = ⟨min 255 (s.lnk.events.input.count + 1),
            some (.input usb.present aux.present p.sel sel t.ips.iEff s.now)⟩) ∧
      t.scn.slot1 = source sel ∧ t.scn.usb = s.scn.usb ∧ t.scn.aux = s.scn.aux ∧
      (source sel = s.scn.slot1 → t.scn.vIn = s.scn.vIn ∧ t.scn.vAlt = s.scn.vAlt) ∧
      (source sel ≠ s.scn.slot1 → t.scn.vIn = s.scn.vAlt ∧ t.scn.vAlt = s.scn.vIn) ∧
      exec (.sourcePresent .usb z) s = .next (if p.usb.present = false ∧ usb.present = true then t else s) ∧
      exec (.sourcePresent .aux z) s = .next (if p.aux.present = false ∧ aux.present = true then t else s) ∧
      exec (.sourceLost .usb z) s = .next (if p.usb.present = true ∧ usb.present = false then t else s) ∧
      exec (.sourceLost .aux z) s = .next (if p.aux.present = true ∧ aux.present = false then t else s) ∧
      exec (.iEffRaise z) s =
        .next (if sel = p.sel ∧ sel ≠ none ∧ p.sag = 31 ∧ floor + 200 ≤ v then t else s)

/-- R149, R150 to R153, R155, R157 to R162: what the charger does at a round end. Where the die zone changes, that
comes first (the model's choice, log 42): the pause reasons are those of the zones then, and a reason added in
PRECHARGE, FAST_CC, FAST_CV or DONE pauses the charger with a CHARGE event. The target voltage setting is in use from
then on. The conditions of R149 come first, in their order; then a fault latches, or PRECHARGE, FAST_CC and FAST_CV
move on by the averages, the eighth notice in a row under the termination current bringing DONE. The charge command is
the lesser of the derated target and the available current, floored to 25 mA, or 0 outside the charging phases; a
change of phase raises one CHARGE event with its detail; SUPPLEMENT is shown while a source leaves no power. The charge
stage delivers the command in PRECHARGE and FAST_CC, holds the effective target voltage with at most it in FAST_CV, and
delivers nothing at 0. Where the selection changes, the budget takes the V_IN average from before the scan exchanges
its inputs (the model's reading, log 14). CHARGE_DONE is the conversion at which DONE comes (the model's choice, log
2). Where the rules leave a point of this open, the model's choice stands (logs 16, 17, 54). -/
def Obligations.RoundEndDrivesCharger : Prop :=
  (∀ u : State,
    (u.chg.iCmd = 0 → chargeStage u = .none) ∧
      (0 < u.chg.iCmd →
        (u.chg.phase = .precharge ∨ u.chg.phase = .fastCc → chargeStage u = .deliver u.chg.iCmd) ∧
        (u.chg.phase = .fastCv → chargeStage u =
          .hold (if u.scn.batZone = .warm then u.chg.targetInUse - 100 else u.chg.targetInUse) u.chg.iCmd))) ∧
  ∀ (z : Int) (s : State), Awake s → s.scn.slot = 8 →
    let v : Int := max (-400) (min 1500 z)
    let g := s.chg
    let die := dieCross s.scn.die v
    let moved : Prop := dieZone die ≠ dieZone s.scn.die
    let p : PauseSet :=
      if moved then ⟨s.scn.batZone == .cold, s.scn.batZone == .hot, die.b85, g.pause.supply⟩ else g.pause
    let pauses : Prop := moved ∧ pausesAt p g = true
    let before : Phase := if moved ∧ pausesAt p g = true then .paused else g.phase
    let mid : EvEntry := if moved ∧ pausesAt p g = true ∧ s.lnk.recordMask.getLsbD 6 = true
      then ⟨min 255 (s.lnk.events.charge.count + 1), some (chargeDetail s g.phase .paused p g.cycle none)⟩
      else s.lnk.events.charge
    let vBat := inputAvg s.scn.vBat
    let iBat := inputAvg s.scn.iBat
    let target : Int := if s.scn.batZone = .warm then (g.target - 100 : Nat) else g.target
    let minutes : Nat := g.fastTimer * 245760
    ∃ t, exec (.scanConversion (.value z)) s = .next t ∧ t.chg.pause = p ∧ t.chg.enable = g.enable ∧
      t.chg.target = g.target ∧ t.chg.targetInUse = g.target ∧
      (t.chg.phase ≠ .fault → t.chg.latch = none) ∧
      (t.ips.sel = none → t.chg.phase = .noInput ∧ t.chg.latch = none ∧ t.chg.cycle = none ∧ t.chg.iCmd = 0) ∧
      (t.ips.sel ≠ none →
        (g.latch ≠ none → t.chg.phase = .fault ∧ t.chg.latch = g.latch ∧ t.chg.cycle = g.cycle ∧ t.chg.iCmd = 0) ∧
        (g.latch = none →
          (s.scn.battery = false → t.chg.phase = .noBattery ∧ t.chg.cycle = none ∧ t.chg.iCmd = 0) ∧
          (s.scn.battery = true →
            (g.enable = false → t.chg.phase = .disabled ∧ t.chg.cycle = none ∧ t.chg.iCmd = 0) ∧
            (g.enable = true →
              (pauseEmpty p = false → t.chg.phase = .paused ∧ t.chg.cycle = g.cycle ∧ t.chg.iCmd = 0) ∧
              (pauseEmpty p = true →
                let goes (phase : Phase) (k : Cycle) : Prop := t.chg.phase = phase ∧ t.chg.cycle = some k
                let faults (cause : ChargeFault) : Prop :=
                  t.chg.phase = .fault ∧ t.chg.latch = some cause ∧ t.chg.cycle = none ∧ t.chg.iCmd = 0
                let new : Prop := t.chg.preTicks = 0 ∧ t.chg.fastTicks = 0 ∧ t.chg.term = 0 ∧
                  (vBat < 3000 → goes .precharge .precharge) ∧ (3000 ≤ vBat → goes .fastCc .fastCc)
                (g.cycle = none → new) ∧
                (g.cycle = some .done → vBat < target - 120 → new) ∧
                (g.cycle = some .done → target - 120 ≤ vBat → goes .done .done ∧ t.chg.term = g.term) ∧
                (g.cycle = some .precharge →
                  (7372800 ≤ g.preTicks → faults .prechargeTimer) ∧
                  (g.preTicks < 7372800 → target + 150 < vBat → faults .overvoltage) ∧
                  (g.preTicks < 7372800 → vBat ≤ target + 150 →
                    (vBat < 3000 → goes .precharge .precharge) ∧ (3000 ≤ vBat → goes .fastCc .fastCc))) ∧
                (g.cycle = some .fastCc →
                  (minutes ≤ g.fastTicks → faults .fastTimer) ∧
                  (g.fastTicks < minutes → target + 150 < vBat → faults .overvoltage) ∧
                  (g.fastTicks < minutes → vBat ≤ target + 150 →
                    (target - 20 ≤ vBat → goes .fastCv .fastCv ∧ t.chg.term = 0) ∧
                      (vBat < target - 20 → goes .fastCc .fastCc ∧ t.chg.term = g.term))) ∧
                (g.cycle = some .fastCv →
                  (minutes ≤ g.fastTicks → faults .fastTimer) ∧
                  (g.fastTicks < minutes → target + 150 < vBat → faults .overvoltage) ∧
                  (g.fastTicks < minutes → vBat ≤ target + 150 →
                    (g.termination ≤ iBat → goes .fastCv .fastCv ∧ t.chg.term = 0) ∧
                    (iBat < g.termination → g.term < 7 → goes .fastCv .fastCv ∧ t.chg.term = g.term + 1) ∧
                    (iBat < g.termination → 7 ≤ g.term → goes .done .done ∧ t.chg.iCmd = 0)))))))) ∧
      (¬ (t.ips.sel ≠ none ∧ g.latch = none ∧ s.scn.battery = true ∧ g.enable = true ∧ pauseEmpty p = true ∧
          (g.cycle = none ∨ (g.cycle = some .done ∧ vBat < target - 120))) →
        t.chg.preTicks = g.preTicks ∧ t.chg.fastTicks = g.fastTicks) ∧
      (let derated : Nat := targetAfter s.scn.batZone die.b70 t.chg.phase g.fast
        let pIn : Int := inputAvg s.scn.vIn * t.ips.iEff / 1000
        let pSys : Int := inputAvg s.scn.vSys * inputAvg s.scn.iSys / 1000
        let pAvail : Int := pIn * 90 / 100 - pSys
        t.chg.pIn = pIn ∧ t.chg.pSys = pSys ∧ t.chg.pAvail = pAvail ∧
          t.chg.iAvail = (if 0 < pAvail ∧ 0 < vBat then (pAvail * 1000 / vBat).toNat else 0) ∧
          (t.chg.supplement = true ↔ t.ips.sel ≠ none ∧ pAvail ≤ 0) ∧
          (t.chg.phase = .precharge ∨ t.chg.phase = .fastCc ∨ t.chg.phase = .fastCv →
            t.chg.derated = derated ∧ t.chg.iCmd = min derated t.chg.iAvail / 25 * 25) ∧
          (t.chg.phase ≠ .precharge → t.chg.phase ≠ .fastCc → t.chg.phase ≠ .fastCv → t.chg.iCmd = 0)) ∧
      (t.chg.phase = before → t.lnk.events.charge = mid) ∧
      (t.chg.phase ≠ before → s.lnk.recordMask.getLsbD 6 = true →
        t.lnk.events.charge = ⟨min 255 (mid.count + 1),
          some (.charge before t.chg.phase p t.chg.cycle (if t.chg.phase = .fault then t.chg.latch else none) vBat iBat
            t.chg.preTicks t.chg.fastTicks s.now)⟩) ∧
      (pauses → t.chg.term = 0) ∧
      exec (.chargeDone z) s = .next (if g.phase ≠ .done ∧ t.chg.phase = .done then t else s)

/-- R145, R147, R155, R156, R161, R171: CHARGE_SET, INPUT_SET and SUPPLY_SET store their values within their ranges
(target voltage on 10 mV, fast current on 25 mA) and answer CLAMPED when one was changed, OK otherwise, with the values
as applied; a field that is not listed is RANGE and changes nothing. A lowered limit of the selected source lowers
I_eff at once; enable off clears the fault latch, and ends the cycle in the phases of R156 with one CHARGE event. A
fast current that lowers the derated target lowers I_cmd at once to the target floored to 25 mA. The target voltage in
use stays until the next notice (R155). Where the rules leave a point of this open, the model's choice stands (logs 17,
52). -/
def Obligations.PowerSettingsAreStored : Prop :=
  (∀ (tag enable : Byte) (target fast termination fastTimer : Half) (s : State), Takes s →
    (1 < enable.toNat →
      exec (.chargeSet tag enable target fast termination fastTimer) s = .next (answer 0x30#8 tag .range [] s)) ∧
    (enable.toNat ≤ 1 →
      let a := max 4100 (min 4350 (target.toNat / 10 * 10))
      let b := max 100 (min 2000 (fast.toNat / 25 * 25))
      let c := max 25 (min 500 termination.toNat)
      let d := max 60 (min 480 fastTimer.toNat)
      let same : Prop := a = target.toNat ∧ b = fast.toNat ∧ c = termination.toNat ∧ d = fastTimer.toNat
      let current : Nat := targetAfter s.scn.batZone s.scn.die.b70 s.chg.phase b
      let charges : Prop := s.chg.phase = .precharge ∨ s.chg.phase = .fastCc ∨ s.chg.phase = .fastCv
      let ends : Prop := enable = 0#8 ∧ s.chg.phase ≠ .noInput ∧ s.chg.phase ≠ .noBattery ∧ s.chg.phase ≠ .disabled
      ∃ t st, exec (.chargeSet tag enable target fast termination fastTimer) s = .next t ∧ KeepsClock s t ∧
        KeepsMotion s t ∧ KeepsCard s t ∧ t.adu = s.adu ∧ t.scn = s.scn ∧ t.ips = s.ips ∧ t.ssv = s.ssv ∧
        t.lnk.reply = some ⟨0xB0#8, tag, st,
          [enable] ++ u16 a ++ u16 b ++ u16 c ++ u16 d ++ u8 (phaseCode t.chg.phase)⟩ ∧
        (same → st = .ok) ∧ (¬ same → st = .clamped) ∧
        t.chg.targetInUse = s.chg.targetInUse ∧ t.chg = { s.chg with
          enable := enable == 1#8
          target := a
          fast := b
          termination := c
          fastTimer := d
          phase := t.chg.phase
          cycle := t.chg.cycle
          latch := t.chg.latch
          iCmd := t.chg.iCmd
          derated := t.chg.derated } ∧
        (enable = 1#8 → t.chg.phase = s.chg.phase ∧ t.chg.cycle = s.chg.cycle ∧ t.chg.latch = s.chg.latch ∧
          t.lnk.events = s.lnk.events) ∧
        (enable = 0#8 → t.chg.latch = none) ∧
        (ends → t.chg.phase = .disabled ∧ t.chg.cycle = none ∧ t.chg.iCmd = 0 ∧
          t.lnk.events = eventsWith (chargeDetail s s.chg.phase .disabled s.chg.pause none none) s) ∧
        (¬ ends → t.chg.phase = s.chg.phase ∧ t.chg.cycle = s.chg.cycle ∧ t.lnk.events = s.lnk.events ∧
          t.chg.iCmd = if charges then min s.chg.iCmd (current / 25 * 25) else s.chg.iCmd) ∧
        t.chg.derated = (if charges then min s.chg.derated current else s.chg.derated) ∧
        (charging t.chg.phase = true → t.chg.iCmd ≤ deratedTarget t))) ∧
    (∀ (tag preference : Byte) (usbLimit usbFloor auxLimit auxFloor : Half) (s : State), Takes s →
      (preference ≠ 1#8 → preference ≠ 2#8 →
        exec (.inputSet tag preference usbLimit usbFloor auxLimit auxFloor) s =
          .next (answer 0x31#8 tag .range [] s)) ∧
      ∀ pref : Src, preference.toNat = srcCode pref →
        let a := max 100 (min 3000 usbLimit.toNat)
        let b := max 4000 (min 5000 usbFloor.toNat)
        let c := max 100 (min 3000 auxLimit.toNat)
        let d := max 5000 (min 12000 auxFloor.toNat)
        exec (.inputSet tag preference usbLimit usbFloor auxLimit auxFloor) s =
          .next (answer 0x31#8 tag
            (if a = usbLimit.toNat ∧ b = usbFloor.toNat ∧ c = auxLimit.toNat ∧ d = auxFloor.toNat then .ok else .clamped)
            ([preference] ++ u16 a ++ u16 b ++ u16 c ++ u16 d)
            { s with ips := { s.ips with
                pref := pref
                usbLimit := a
                usbFloor := b
                auxLimit := c
                auxFloor := d
                iEff := match s.ips.sel with
                  | none => s.ips.iEff
                  | some .usb => min s.ips.iEff a
                  | some .aux => min s.ips.iEff c } })) ∧
    ∀ (tag ride budget : Byte) (s : State), Takes s →
      let r := max 1 (min 32 ride.toNat)
      let b := max 8 budget.toNat
      exec (.supplySet tag ride budget) s =
        .next (answer 0x32#8 tag (if r = ride.toNat ∧ b = budget.toNat then .ok else .clamped) (u8 r ++ u8 b)
          { s with ssv := { s.ssv with rideMs := r, budget := b } })

/-- Ninth law (R161): every command keeps the charge command 0 outside the charging phases, and in them within the
derated target and the available current. -/
def Obligations.ChargeLawIsKept : Prop :=
  ∀ (s t : State), ChargeLaw s → step s = .next t → ChargeLaw t

/-- Tenth law (R60, R150, R161): every command keeps SUPPLY a park and a pause reason exactly outside NORMAL, a channel
with a reason from being ACTIVE, and a charger with a reason from charging. -/
def Obligations.SupplyLawIsKept : Prop :=
  ∀ (s t : State), SupplyLaw s → step s = .next t → SupplyLaw t

/-! ## Card requests (spec/06, spec/07, spec/08) -/

/-- R96, R97, R116: MOUNT answers the first case that applies, and when accepted stores the geometry (slot size 1 + 128
U + M, at most 256 slots, Q at most half of them), enters MOUNTING and begins bring-up. UNMOUNT is STATE unless the
writer is READY; there it ends at once with no header update to write and none under way, discarding the card's state;
it is otherwise held, while the port finishes its transfer and serves the queue, and ends when the last header update is
on card and no other is needed. Where the rules leave a point of this open, the model's choice stands (logs 18, 19; the
arbiter's run count, which a MOUNT leaves as it stands, is log 45; the clip buffer's assigned total and admitted counts
at the end of an UNMOUNT are log 55). -/
def Obligations.MountAndUnmount : Prop :=
  (∀ (tag : Byte) (base len regionId : Word) (units motion : Half) (quota format : Byte) (s : State), Takes s →
    let size := 1 + 128 * units.toNat + motion.toNat
    let count := min 256 (len.toNat / size)
    let q := min (count / 2) quota.toNat
    let g : Geometry :=
      { base := base.toNat
        len := len.toNat
        regionId := regionId
        units := units.toNat
        motion := motion.toNat
        quota := q
        format := format == 1#8
        slotSize := size
        slotCount := count }
    let does (x : State) : Prop := exec (.mount tag base len regionId units motion quota format) s = .next x
    (1 < format.toNat → does (answer 0x20#8 tag .range [] s)) ∧
    (format.toNat ≤ 1 →
      (s.cwr.writer ≠ .unmounted → s.cwr.writer ≠ .fault → does (answer 0x20#8 tag .state [] s)) ∧
      (s.cwr.writer = .unmounted ∨ s.cwr.writer = .fault →
        (s.cwr.present = false → does (answer 0x20#8 tag .noCard [] s)) ∧
        (s.cwr.present = true →
          let bad : Prop := units = 0#16 ∨ motion = 0#16 ∨ 4096 < motion.toNat ∨
            4294967296 < base.toNat + len.toNat ∨ count < 2
          (bad → does (answer 0x20#8 tag .range [] s)) ∧
          (¬ bad →
            does (answer 0x20#8 tag .accepted (u16 count ++ u32 size ++ u8 q)
              { s with
                sdr := { Sdr.reset with geo := some g }
                cwr := { s.cwr with writer := .mounting, port := some ⟨.identify, 0, 0, [], 1, s.now⟩ } })))))) ∧
    (∀ (tag : Byte) (s : State), Takes s →
      let held : Lnk := { s.lnk with req := some (.unmount tag) }
      (s.cwr.writer ≠ .ready → exec (.unmount tag) s = .next (answer 0x21#8 tag .state [] s)) ∧
      (s.cwr.writer = .ready → CardIdle s → s.sdr.geo ≠ none →
        (s.cwr.port = none → (∀ j ∈ s.sdr.queue, needsUpdate s j = false) →
          ∃ t, exec (.unmount tag) s = .next t ∧ UnmountOver tag s t) ∧
        (s.cwr.port = none → (∃ j ∈ s.sdr.queue, needsUpdate s j = true) →
          ∃ t, exec (.unmount tag) s = .next t ∧ t.lnk = held ∧ KeepsCardButPort s t ∧
            ArbiterGrants (beforeGrant s t) t) ∧
        ∀ x, s.cwr.port = some x →
          (s.sdr.queue = [] → (∃ w, x.op = .hostRead w) →
            ∃ t, exec (.unmount tag) s = .next t ∧ UnmountOver tag s t) ∧
          (s.sdr.queue ≠ [] ∨ (∀ w, x.op ≠ .hostRead w) →
            ∃ t, exec (.unmount tag) s = .next t ∧ t.lnk = held ∧ KeepsCardButPort s t ∧ t.sdr = s.sdr ∧
              t.cwr.port = some x)) ∧
      (s.cwr.writer = .ready → s.sdr.queue = [] → s.cwr.port = none → openSlot s = none → closingSlot s = none →
        s.cbf.segs = [] → s.cbf.pend = [] →
        ∃ t, exec (.unmount tag) s = .next t ∧ KeepsClock s t ∧ KeepsMotion s t ∧ t.adu = s.adu ∧ t.scn = s.scn ∧
          t.chg = s.chg ∧ t.ips = s.ips ∧ t.cwr.writer = .unmounted ∧ t.cwr.port = none ∧ t.cwr.cursor = none ∧
          t.cwr.stopMark = none ∧ t.sdr = Sdr.reset ∧ t.cbf = Cbf.reset ∧ t.lnk.req = none ∧
          t.lnk.reply = some ⟨0xA1#8, tag, .ok, []⟩ ∧ t.lnk.events = eventsWith .cardUnmounted s) ∧
      ∀ g i e rest, s.cwr.writer = .ready → s.sdr.queue = i :: rest → s.cwr.port = none → s.sdr.geo = some g →
        entryAt s i = some e → e.st = .closed ∨ e.st = .recovered →
        ∃ t, exec (.unmount tag) s = .next t ∧ t.lnk = { s.lnk with req := some (.unmount tag) } ∧
          t.cwr.writer = .ready ∧ t.sdr.queue = rest ∧
          t.cwr.port = some ⟨.headerUpdate i, g.base + i * g.slotSize, 1,
            closedHeader g.regionId (optReasonCode e.reason) e, 1, s.now⟩) ∧
    ∀ (tag : Byte) (s : State) (x : Transfer) (i : Nat), Awake s → s.cwr.writer = .ready →
      s.lnk.req = some (.unmount tag) → s.cwr.port = some x → x.op = .headerUpdate i → s.sdr.geo ≠ none → CardIdle s →
      ∃ t, exec .headerUpdateDone s = .next t ∧ KeepsClock s t ∧ KeepsMotion s t ∧
        ((∀ j ∈ s.sdr.queue, needsUpdate s j = false) → UnmountOver tag s t) ∧
        ((∃ j ∈ s.sdr.queue, needsUpdate s j = true) →
          t.lnk = s.lnk ∧ KeepsCardButPort s t ∧ ArbiterGrants (beforeGrant s t) t)

/-- R106, R107, R120, R121, R131, R132, R169: REC_START is STATE outside READY and NO_SLOT without a slot to choose (no
FREE entry and no unlocked recorded one, or the sequences exhausted); otherwise it opens the FREE slot of lowest index,
or else the unlocked recorded slot of lowest sequence, with the next sequence and recording id, and records, its
opening header being written once the port is free (in EMERGENCY the close begins at once, and goes on where the port
is free). REC_STOP in RECORDING closes the OPEN slot with STOP, and the post-roll mark becomes none (R112); in ROLLING
it sets the stop mark unless it is set, and is STATE otherwise. A free port is granted in the order of R125. Where the
rules leave a point of this open, the model's choice stands (logs 25, 33). -/
def Obligations.RecordingStartsAndStops : Prop :=
  (∀ (tag : Byte) (s : State), Takes s →
    let free (i : Nat) : Prop := (entryAt s i).map Entry.st = some .free
    let old (i : Nat) (q : Nat) : Prop := ∃ e, entryAt s i = some e ∧ (e.st = .closed ∨ e.st = .recovered) ∧
      e.locks.impact = false ∧ e.locks.keep = false ∧ e.sequence = some q
    let chosen (i : Nat) : Prop :=
      (free i ∧ ∀ j < i, ¬ free j) ∨
        ((∀ j, ¬ free j) ∧ ∃ q, old i q ∧ (∀ j p, old j p → q ≤ p) ∧ ∀ j < i, ¬ old j q)
    (s.cwr.writer ≠ .ready → exec (.recStart tag) s = .next (answer 0x22#8 tag .state [] s)) ∧
    (s.cwr.writer = .ready → (s.sdr.nextSeq = none ∨ ∀ i, ¬ chosen i) →
      exec (.recStart tag) s = .next (answer 0x22#8 tag .noSlot [] s)) ∧
    ∀ i q, s.cwr.writer = .ready → s.sdr.nextSeq = some q → chosen i → s.sdr.mark = none →
      let r := s.sdr.nextRec
      ∃ t, exec (.recStart tag) s = .next t ∧ KeepsClock s t ∧ KeepsMotion s t ∧ t.scn = s.scn ∧ t.ips = s.ips ∧
        t.lnk.reply = some ⟨0xA2#8, tag, .accepted, u16 i ++ u32 q ++ u16 r⟩ ∧
        t.sdr.nextSeq = (if 4294967295 ≤ q then none else some (q + 1)) ∧
        t.sdr.nextRec = (if 65535 ≤ r then 1 else r + 1) ∧
        (s.ssv.st ≠ .emergency →
          t.cwr.writer = .recording ∧ t.cwr.recId = some r ∧ t.cwr.lastSlot = some i ∧ t.cwr.stopMark = none ∧
            t.cwr.units = 0 ∧ t.cbf.assigned = 0 ∧ t.cbf.segs = s.cbf.segs ∧ t.lnk.events = s.lnk.events ∧
            (∀ j, (entryAt t j).map unqueued =
              if j = i then some { freeEntry with
                st := .opened
                sequence := some q
                recId := some r
                openTime := some s.now }
              else (entryAt s j).map unqueued) ∧
            (∀ c, s.cwr.cursor = some c → t.cwr.cursor = some { c with stale := c.stale || c.slot == i }) ∧
            (s.cwr.port ≠ none → t.cwr.port = s.cwr.port ∧ t.sdr.queue = s.sdr.queue ∧ t.cwr.run = s.cwr.run) ∧
            (s.cwr.port = none → ArbiterGrants (beforeGrant s t) t) ∧
            ∀ g, s.cwr.port = none → s.sdr.geo = some g → openSlot s = none → closingSlot s = none →
              (∀ j ∈ s.sdr.queue, needsUpdate t j = false) →
              t.cwr.port = some ⟨.openingHeader i, g.base + i * g.slotSize, 1,
                openHeader g.regionId { freeEntry with
                  st := .opened
                  sequence := some q
                  recId := some r
                  openTime := some s.now }, 1, s.now⟩) ∧
        (s.ssv.st = .emergency → s.cwr.port ≠ none → openSlot s = none → closingSlot s = none →
          t.cwr.writer = .emergencyClose ∧ t.cwr.recId = some r ∧ t.cwr.port = s.cwr.port ∧
            t.ssv.close = some ⟨s.ssv.budget, s.ssv.budget, .inherited, [i], false⟩) ∧
        (s.ssv.st = .emergency → s.cwr.port = none → openSlot s = none → closingSlot s = none →
          let c : EmergencyClose := ⟨s.ssv.budget, s.ssv.budget, .inherited, [i], false⟩
          t.cwr.writer = .emergencyClose ∧ t.cwr.recId = some r ∧ t.cwr.closeReason = some .emergency ∧
            CloseGoesOn c { s with
              sdr := { s.sdr with entries := rewritten i (fun e => { freeEntry with
                st := .closing
                sequence := some q
                recId := some r
                openTime := some s.now
                queued := e.queued }) s.sdr.entries }
              cbf := { s.cbf with assigned := 0, admitted := t.cbf.admitted }
              cwr := { s.cwr with writer := .emergencyClose, recId := some r, lastSlot := some i }
              ssv := { s.ssv with close := some c }
              lnk := { s.lnk with reply := t.lnk.reply } } t)) ∧
    ∀ (tag : Byte) (s : State), Takes s → PortLaw s →
      (s.cwr.writer ≠ .recording → s.cwr.writer ≠ .rolling →
        exec (.recStop tag) s = .next (answer 0x23#8 tag .state [] s)) ∧
      (∀ i, s.cwr.writer = .recording → openSlot s = some i →
        ∃ t, exec (.recStop tag) s = .next t ∧ KeepsClock s t ∧ KeepsMotion s t ∧ KeepsPower s t ∧ t.adu = s.adu ∧
          t.lnk = { s.lnk with reply := some ⟨0xA3#8, tag, .accepted, u16 i⟩ } ∧ t.cwr.writer = .stopping ∧
          t.cwr.closeReason = some .stop ∧ t.cbf = s.cbf ∧ t.sdr.mark = none ∧
          (s.cwr.port ≠ none → t.cwr.port = s.cwr.port ∧ t.sdr.queue = s.sdr.queue) ∧
          (s.cwr.port = none → ArbiterGrants (beforeGrant s t) t) ∧
          ∀ j, (entryAt t j).map unqueued =
            (entryAt s j).map fun e => if j = i then { unqueued e with st := .closing } else unqueued e) ∧
      ∀ i, s.cwr.writer = .rolling → openSlot s = some i →
        ∃ t, exec (.recStop tag) s = .next t ∧ KeepsClock s t ∧ KeepsMotion s t ∧ KeepsPower s t ∧ t.adu = s.adu ∧
          t.lnk = { s.lnk with reply := some ⟨0xA3#8, tag, .accepted, u16 i⟩ } ∧ t.cwr.writer = .rolling ∧
          t.cwr.stopMark = some (s.cwr.stopMark.getD .stop) ∧ t.cbf = s.cbf ∧ t.sdr.mark = s.sdr.mark ∧
          t.sdr.entries.map unqueued = s.sdr.entries.map unqueued ∧
          (s.cwr.port ≠ none → t.cwr.port = s.cwr.port ∧ t.sdr.queue = s.sdr.queue) ∧
          (s.cwr.port = none → ArbiterGrants (beforeGrant s t) t)

/-- R82 to R85, R131, R133: DATA. Outside RECORDING and ROLLING it is STATE. A payload that does not fit the free space,
or that would fill the OPEN slot while one is CLOSING, is FULL and counted lost. One that ends short of the capacity
joins the OPEN slot's bytes. One that reaches it fills the slot with the bytes it has room for, and the slot becomes
CLOSING; the next slot opens and its bytes begin with the remainder (ROLLING), or, with no slot to choose, the remainder
is lost and the writer is STOPPING with NO_SLOT. R112: at a crossing the post-roll mark becomes none, and within its
post-roll time the slot opened is locked under R110, SLOT(locked) following the releases; a MOTION_READ cursor on the
slot opened becomes stale (R107, R138). A free port is granted in the
order of R125. Where the rules leave a point of this open, the model's choice stands (logs 20, 25, 33). -/
def Obligations.DataIsTaken : Prop :=
  ∀ (tag : Byte) (bytes : List Byte) (s : State), Takes s → PortLaw s → 1 ≤ bytes.length → bytes.length ≤ 16384 →
    let n := bytes.length
    let free := 4194304 - fillOf s.cbf.segs
    let cap := slotCapacity s
    let held (i : Nat) (x : State) : List Byte := (x.cbf.segs.filter fun g => g.slot == i).flatMap Segment.bytes
    let reply (t : State) (st : Status) (taken : Nat) : Prop :=
      t.lnk.reply = some ⟨0xA4#8, tag, st, u16 taken ++ u32 (4194304 - fillOf t.cbf.segs) ++ u16 (optSlotCode (openSlot t))⟩
    let frame (t : State) : Prop := KeepsClock s t ∧ KeepsMotion s t ∧ KeepsPower s t ∧ t.adu = s.adu
    ((s.cwr.writer ≠ .recording ∧ s.cwr.writer ≠ .rolling) ∨ openSlot s = none →
      exec (.data tag bytes) s =
        .next (answer 0x24#8 tag .state (u16 0 ++ u32 free ++ u16 (optSlotCode (openSlot s))) s)) ∧
    ∀ i e, s.cwr.writer = .recording ∨ s.cwr.writer = .rolling → openSlot s = some i → entryAt s i = some e →
      (free < n ∨ (closingSlot s ≠ none ∧ cap ≤ s.cbf.assigned + n) →
        ∃ t, exec (.data tag bytes) s = .next t ∧ frame t ∧ t.cbf = s.cbf ∧ t.cwr = s.cwr ∧ reply t .full 0 ∧
          ∀ j, entryAt t j =
            if j = i then some { e with lostBytes := min 4294967295 (e.lostBytes + n) } else entryAt s j) ∧
      (n ≤ free → s.cbf.assigned + n < cap →
        ∃ t, exec (.data tag bytes) s = .next t ∧ frame t ∧ reply t .ok n ∧ t.cwr.writer = s.cwr.writer ∧
          t.cbf.assigned = s.cbf.assigned + n ∧ t.cbf.pend = s.cbf.pend ∧
          (∀ j, j ≠ i → held j t = held j s) ∧
          (s.cbf.segs.countP (fun g => g.slot == i) ≤ 1 → held i t = held i s ++ bytes) ∧
          (s.cwr.port ≠ none → t.cwr.port = s.cwr.port) ∧ (s.cwr.port = none → ArbiterGrants (beforeGrant s t) t) ∧
          t.sdr.entries.map unqueued = s.sdr.entries.map unqueued) ∧
      (n ≤ free → closingSlot s = none → s.cbf.assigned < cap → cap ≤ s.cbf.assigned + n →
        let room := cap - s.cbf.assigned
        ∃ t, exec (.data tag bytes) s = .next t ∧ frame t ∧
          ((entryAt t i).map Entry.st = some .closing) ∧ t.cbf.pend = s.cbf.pend ∧ t.sdr.mark = none ∧
          (s.cwr.port ≠ none → t.cwr.port = s.cwr.port) ∧
          (∀ j, chooseSlot (setSlotState .closing i s) = some j →
            let opens (queued : Bool) : Entry := { freeEntry with
              st := .opened
              sequence := s.sdr.nextSeq
              recId := some (s.cwr.recId.getD 0)
              openTime := some s.now
              queued := queued }
            let es := rewritten j (fun x => opens x.queued) (rewritten i (fun x => { x with st := .closing }) s.sdr.entries)
            let rolls : Option Mark := s.sdr.mark.filter fun m => decide ((s.now - m.time).toNat < m.post * 4096)
            let cands : List Nat := (rolls.map fun m => m.candidates ++ [j]).getD []
            let want : List Nat := if rolls = none then [] else [j]
            let on := impactAfter (quotaOf s) cands want es
            reply t .ok n ∧ t.cwr.writer = .rolling ∧ t.cwr.closeReason = some .full ∧ t.cwr.lastSlot = some j ∧
              (t.cwr.cursor = s.cwr.cursor.map fun c => { c with stale := c.stale || c.slot == j }) ∧
              t.cbf.assigned = n - room ∧ t.sdr.nextSeq = s.sdr.nextSeq.bind seqAfter ∧
              ((∀ k, s.cbf.segs.countP (fun g => g.slot == k) ≤ 1) →
                held i t = held i s ++ bytes.take room ∧ held j t = held j s ++ bytes.drop room ∧
                  ∀ k, k ≠ i → k ≠ j → held k t = held k s) ∧
              (rolls = none ∨ LocksSequenced es →
                (∀ k, (entryAt t k).map unqueued = (es[k]?).map fun x => unqueued { x with
                  locks := { x.locks with impact := on k } }) ∧
                (s.lnk.recordMask.getLsbD 1 = true →
                  ∃ y, ReleasesReported (releaseCount (quotaOf s) cands want es) (releasable cands es) es
                      s.lnk.events.slot y ∧
                    (∀ m, rolls = some m → on j = true →
                      t.lnk.events.slot = ⟨min 255 (y.count + 1), some (.slotLocked j m.time)⟩) ∧
                    (rolls = none ∨ on j = false → t.lnk.events.slot = y)) ∧
                ∃ q', Enqueued (fun k => on k != holdsImpact es k) s.sdr.queue q' ∧
                  (s.cwr.port ≠ none → t.sdr.queue = q') ∧
                  (s.cwr.port = none →
                    ArbiterGrants (beforeGrant { s with sdr := { s.sdr with queue := q' } } t) t))) ∧
          (chooseSlot (setSlotState .closing i s) = none →
            reply t .ok room ∧ t.cwr.writer = .stopping ∧ t.cwr.closeReason = some .noSlot ∧
              t.cwr.cursor = s.cwr.cursor ∧
              (s.cbf.segs.countP (fun g => g.slot == i) ≤ 1 → held i t = held i s ++ bytes.take room) ∧
              (∀ k, k ≠ i → held k t = held k s) ∧ (s.cwr.port = none → ArbiterGrants (beforeGrant s t) t) ∧
              (entryAt t i).map Entry.lostBytes = some (min 4294967295 (e.lostBytes + (n - room)))))

/-- R105, R108: SLOT_READ answers the directory's numbers and up to sixteen entries, each laid out as Figure 12.9 says,
and changes nothing. SLOT_LOCK on adds KEEP and never IMPACT, off removes either kind, on a slot with an entry that is
neither FREE nor BAD; a change enqueues the slot's header update, unless it is in the queue, and a free port is granted
in the order of R125. Without a directory both are STATE; what does not exist is RANGE. Where the rules leave a point
of this open, the model's choice stands (logs 9, 39). -/
def Obligations.DirectoryIsReadAndLocked : Prop :=
  (∀ (tag count : Byte) (first : Half) (s : State), Takes s →
    let up : Prop := s.cwr.writer ≠ .unmounted ∧ s.cwr.writer ≠ .mounting ∧ s.cwr.writer ≠ .fault
    let there : Prop := 1 ≤ count.toNat ∧ count.toNat ≤ 16 ∧ first.toNat < s.sdr.entries.length
    let es := (s.sdr.entries.drop first.toNat).take count.toNat
    let one (b : Bool) : Nat := if b = true then 1 else 0
    let entry (i : Nat) (e : Entry) : List Byte :=
      u16 i ++ u8 (slotStateCode e.st) ++ u8 (one e.locks.impact + 2 * one e.locks.keep)
        ++ u8 (one e.sequence.isSome + 2 * one e.recId.isSome + 4 * one e.openTime.isSome + 8 * one e.firstFrame.isSome)
        ++ u8 (one e.queued + 2 * one e.headerWritten) ++ u8 ((e.reason.map reasonCode).getD 0) ++ u8 e.impactCount
        ++ u32 (e.sequence.getD 0) ++ u16 (e.recId.getD 0) ++ u32 ((e.openTime.map BitVec.toNat).getD 0)
        ++ u32 e.streamBytes ++ u32 e.motionRecords ++ u32 e.motionDropped ++ u32 e.lostBytes
        ++ u32 ((e.firstFrame.map BitVec.toNat).getD 0)
    (¬ up → exec (.slotRead tag first count) s = .next (answer 0x25#8 tag .state [] s)) ∧
    (up → ¬ there → exec (.slotRead tag first count) s = .next (answer 0x25#8 tag .range [] s)) ∧
    (up → there → ∀ g, s.sdr.geo = some g →
      exec (.slotRead tag first count) s = .next (answer 0x25#8 tag .ok
        (u16 s.sdr.entries.length ++ u8 g.quota ++ u16 (s.sdr.entries.countP fun e => e.locks.impact)
          ++ u32 (s.sdr.nextSeq.getD Config.exhaustedSequence.toNat) ++ [if s.sdr.nextSeq = none then 1#8 else 0#8]
          ++ u8 es.length ++ (es.zipIdx first.toNat).flatMap fun x => entry x.2 x.1) s))) ∧
    ∀ (tag kind : Byte) (slot : Half) (s : State), Takes s → PortLaw s →
      let up : Prop := s.cwr.writer ≠ .unmounted ∧ s.cwr.writer ≠ .mounting ∧ s.cwr.writer ≠ .fault
      let i := slot.toNat
      let locks (k : LockKind) (on : Bool) (l : LockSet) : LockSet :=
        match k with
        | .impact => { l with impact := on }
        | .keep => { l with keep := on }
      (kind ≠ 1#8 → kind ≠ 2#8 →
        exec (.slotLockOn tag slot kind) s = .next (answer 0x26#8 tag .range [] s) ∧
          exec (.slotLockOff tag slot kind) s = .next (answer 0x27#8 tag .range [] s)) ∧
      (kind = 1#8 ∨ kind = 2#8 →
        (¬ up → exec (.slotLockOn tag slot kind) s = .next (answer 0x26#8 tag .state [] s) ∧
          exec (.slotLockOff tag slot kind) s = .next (answer 0x27#8 tag .state [] s)) ∧
        (up → kind = 1#8 → exec (.slotLockOn tag slot kind) s = .next (answer 0x26#8 tag .range [] s)) ∧
        (up → entryAt s i = none → exec (.slotLockOn tag slot kind) s = .next (answer 0x26#8 tag .range [] s) ∧
          exec (.slotLockOff tag slot kind) s = .next (answer 0x27#8 tag .range [] s)) ∧
        ∀ e, up → entryAt s i = some e →
          (e.st = .free ∨ e.st = .bad →
            (kind = 2#8 → exec (.slotLockOn tag slot kind) s = .next (answer 0x26#8 tag .state [] s)) ∧
              exec (.slotLockOff tag slot kind) s = .next (answer 0x27#8 tag .state [] s)) ∧
          (e.st ≠ .free → e.st ≠ .bad → ∀ (on : Bool) (k : LockKind), kind = (if k = .impact then 1#8 else 2#8) →
            ¬ (on = true ∧ k = .impact) →
            let l := locks k on e.locks
            ∃ t, exec (if on = true then .slotLockOn tag slot kind else .slotLockOff tag slot kind) s = .next t ∧
              KeepsClock s t ∧ KeepsMotion s t ∧ KeepsPower s t ∧ t.adu = s.adu ∧ t.cbf = s.cbf ∧
              t.lnk = { s.lnk with reply := some ⟨if on = true then 0xA6#8 else 0xA7#8, tag, .ok, u8 (lockCode l)⟩ } ∧
              t.cwr.writer = s.cwr.writer ∧
              (∀ j, (entryAt t j).map unqueued =
                if j = i then some (unqueued { e with locks := l }) else (entryAt s j).map unqueued) ∧
              let q' : List Nat := if l = e.locks ∨ i ∈ s.sdr.queue then s.sdr.queue else s.sdr.queue ++ [i]
              (s.cwr.port ≠ none → t.cwr.port = s.cwr.port ∧ t.sdr.queue = q') ∧
              (s.cwr.port = none → ArbiterGrants (beforeGrant { s with sdr := { s.sdr with queue := q' } } t) t)))

/-- R138 to R140: MOTION_READ. The first case of R138 that applies gives the reply; a start sets the cursor to the
slot's first record, and a read is held for the lesser of the count and the records left; its one or two blocks are read
when the port is granted to it, and a free port is granted again after it. A read that succeeds answers them with
WRAPPED when the slot's end is reached, and the cursor moves on, to 0 at the end; a read of the wrong length stops the
model (log 24). 1 s (4,096 ticks) after the request it is answered BUSY and its data is no longer wanted; a read that
nobody wants any more only frees the port. Where the rules leave a point of this open, the model's choice stands (logs
3, 40; the clip buffer's assigned total and admitted counts at the end of an UNMOUNT are log 55). -/
def Obligations.MotionReadsRecords : Prop :=
  (∀ (tag mode count : Byte) (slot : Half) (s : State), Takes s → PortLaw s →
    let i := slot.toNat
    let replies (st : Status) (x : State) : Prop := exec (.motionRead tag slot mode count) s = .next (answer 0x28#8 tag st [] x)
    let withCursor (c : Option Cursor) : State := { s with cwr := { s.cwr with cursor := c } }
    let begins (k n : Nat) (c : Cursor) : Prop :=
      ∃ t, exec (.motionRead tag slot mode count) s = .next t ∧ KeepsClock s t ∧ KeepsMotion s t ∧ KeepsPower s t ∧
        t.adu = s.adu ∧ t.cbf = s.cbf ∧ t.cwr.writer = s.cwr.writer ∧ t.cwr.cursor = some c ∧
        t.lnk = { s.lnk with req := some (.motionRead tag i k n s.now) } ∧
        (s.cwr.port ≠ none → t.cwr.port = s.cwr.port ∧ t.sdr = s.sdr) ∧
        (s.cwr.port = none → arbitrating s.cwr.writer = true → ArbiterGrants (beforeGrant s t) t) ∧
        ∀ g, s.cwr.port = none → s.cwr.writer = .ready → s.sdr.geo = some g → CardIdle s →
          (∀ j ∈ s.sdr.queue, needsUpdate s j = false) →
          t.cwr.port = some ⟨.hostRead true, g.base + i * g.slotSize + 1 + 128 * g.units + k / 32,
            if k % 32 + n ≤ 32 then 1 else 2, [], 1, s.now⟩
    let barred : Prop := s.cwr.writer = .unmounted ∨ s.cwr.writer = .mounting ∨ s.cwr.writer = .emergencyClose ∨
      s.cwr.writer = .fault
    (1 < mode.toNat → replies .range s) ∧
    (mode.toNat ≤ 1 →
      (barred → replies .state s) ∧
      (¬ barred →
        (count = 0#8 ∨ 32 < count.toNat ∨ entryAt s i = none → replies .range s) ∧
        ∀ e, count ≠ 0#8 → count.toNat ≤ 32 → entryAt s i = some e →
          (mode = 0#8 → e.st ≠ .closed → e.st ≠ .recovered → replies .state s) ∧
          (mode = 0#8 → e.st = .closed ∨ e.st = .recovered → e.motionRecords = 0 → replies .gone (withCursor none)) ∧
          (mode = 0#8 → e.st = .closed ∨ e.st = .recovered → 0 < e.motionRecords →
            begins 0 (min count.toNat e.motionRecords) ⟨i, 0, false⟩) ∧
          (mode = 1#8 → s.cwr.cursor = none → replies .state s) ∧
          ∀ c, mode = 1#8 → s.cwr.cursor = some c →
            (c.slot ≠ i → replies .state s) ∧
            (c.slot = i → c.stale = true → replies .stale (withCursor none)) ∧
            (c.slot = i → c.stale = false → begins c.index (min count.toNat (e.motionRecords - c.index)) c)))) ∧
    (∀ (s : State) (tag : Byte) (i k n : Nat) (taken began : Word) (addr nb att : Nat) (blocks : List Byte) (e : Entry),
      Awake s → s.cwr.writer ≠ .emergencyClose → s.cwr.port = some ⟨.hostRead true, addr, nb, [], att, began⟩ →
      s.lnk.req = some (.motionRead tag i k n taken) → entryAt s i = some e →
      (blocks.length ≠ 512 * nb → exec (.hostReadDone blocks) s = .fault .badBlockLength) ∧
      (blocks.length = 512 * nb →
        ∃ t, exec (.hostReadDone blocks) s = .next t ∧ KeepsClock s t ∧ KeepsMotion s t ∧ KeepsPower s t ∧
          t.cwr.writer = s.cwr.writer ∧
          t.cwr.cursor = some ⟨i, if e.motionRecords ≤ k + n then 0 else k + n, false⟩ ∧
          t.lnk = { s.lnk with
            req := none
            reply := some ⟨0xA8#8, tag, .ok, u16 i ++ u32 k ++ u8 n ++ [if e.motionRecords ≤ k + n then 1#8 else 0#8] ++
              (blocks.drop (16 * (k % 32))).take (16 * n)⟩ } ∧
          (arbitrating s.cwr.writer = true → ArbiterGrants (beforeGrant s t) t))) ∧
    (∀ (s : State) (x : Transfer) (blocks : List Byte), Awake s → s.cwr.port = some x → x.op = .hostRead false →
      (blocks.length ≠ 512 * x.blocks → exec (.hostReadDone blocks) s = .fault .badBlockLength) ∧
      (blocks.length = 512 * x.blocks →
        ∃ t, exec (.hostReadDone blocks) s = .next t ∧ KeepsClock s t ∧ KeepsMotion s t ∧ PortFreed s t)) ∧
    ∀ (s : State) (tag : Byte) (i k n : Nat) (taken : Word), Awake s → s.lnk.req = some (.motionRead tag i k n taken) →
      (4096 ≤ (s.now - taken).toNat →
        ∃ p, exec .motionReadTimeout s = .next { s with
            cwr := { s.cwr with port := p }
            lnk := { s.lnk with req := none, reply := some ⟨0xA8#8, tag, .busy, []⟩ } } ∧
          (s.cwr.port = none → p = none) ∧
          ∀ x, s.cwr.port = some x →
            ((∀ w, x.op ≠ .hostRead w) → p = some x) ∧ ∀ w, x.op = .hostRead w → p = some { x with op := .hostRead false }) ∧
        ((s.now - taken).toNat < 4096 → exec .motionReadTimeout s = .next s)

/-! ## The card's answers -/

/-- R97 to R102: bring-up on a card too small for the region ends the mount with CARD(fault); on another the pass
begins at slot 0. A blank header written makes its slot FREE and a header read classifies its slot; the next slot
follows, and after the last the mount completes in READY with CARD(mounted), a format pass leaving the next sequence
and recording id 1, a scan one more than the greatest. After a scan, of the slots with one sequence the first keeps
its class and the others become FREE, counted as conflicts; and while more slots carry IMPACT than the quota, that of
the lowest sequence is released, in ascending sequence, with SLOT(released) and a header update. A block of the wrong
length stops the model (log 24). -/
def Obligations.MountPassesSlots : Prop :=
  (∀ (s : State) (g : Geometry) (x : Transfer) (capacity : Nat), Awake s → s.cwr.writer = .mounting →
    s.sdr.geo = some g → s.cwr.port = some x → x.op = .identify → 2 ≤ g.slotCount →
    (capacity < g.base + g.len →
      ∃ t, exec (.bringUpDone capacity) s = .next t ∧ t.cwr.writer = .unmounted ∧ t.cwr.port = none ∧
        t.sdr = Sdr.reset ∧ t.lnk.events = eventsWith (.cardFault .range none) s) ∧
    (g.base + g.len ≤ capacity →
      ∃ t, exec (.bringUpDone capacity) s = .next t ∧
        t = { s with cwr := { s.cwr with port := t.cwr.port } } ∧
        t.cwr.port = some (if g.format = true then ⟨.formatHeader 0, g.base, 1, blankHeader g.regionId, 1, s.now⟩
          else ⟨.scanRead 0, g.base, 1, [], 1, s.now⟩))) ∧
  (∀ (s : State) (g : Geometry) (x : Transfer) (i : Nat), Awake s → PortLaw s → s.cwr.writer = .mounting →
    s.sdr.geo = some g → s.cwr.port = some x → x.op = .formatHeader i → g.format = true →
    i + 1 = s.sdr.entries.length + 1 →
    (i + 1 < g.slotCount →
      ∃ t, exec .formatHeaderDone s = .next t ∧ t.cwr.writer = .mounting ∧
        t.sdr = { s.sdr with entries := s.sdr.entries ++ [freeEntry] } ∧
        t.cwr.port = some ⟨.formatHeader (i + 1), g.base + (i + 1) * g.slotSize, 1, blankHeader g.regionId, 1, s.now⟩ ∧
        t.lnk = s.lnk ∧ t.cbf = s.cbf) ∧
    (i + 1 = g.slotCount → (∀ e ∈ s.sdr.entries, e.st = .free ∨ e.st = .bad) →
      (∀ e ∈ s.sdr.entries, e.locks.impact = false) →
      ∃ t, exec .formatHeaderDone s = .next t ∧ t.cwr.writer = .ready ∧ t.sdr.nextSeq = some 1 ∧ t.sdr.nextRec = 1 ∧
        t.sdr.entries.map unqueued = (s.sdr.entries ++ [freeEntry]).map unqueued ∧
        (s.lnk.recordMask.getLsbD 3 = true →
          t.lnk.events.card = ⟨min 255 (s.lnk.events.card.count + 1), some (.cardMounted g.slotCount
            (countSlots .free (s.sdr.entries ++ [freeEntry])) 0 0 (countSlots .bad (s.sdr.entries ++ [freeEntry])) 0 0
            g.quota (some 1) 1)⟩) ∧ ArbiterGrants (beforeGrant s t) t)) ∧
  ∀ (s : State) (g : Geometry) (x : Transfer) (i : Nat) (block : List Byte), Awake s → PortLaw s →
    s.cwr.writer = .mounting → s.sdr.geo = some g → s.cwr.port = some x → x.op = .scanRead i → g.format = false →
    i = s.sdr.entries.length →
    (block.length ≠ 512 → exec (.scanReadDone block) s = .fault .badBlockLength) ∧
    (block.length = 512 →
      (i + 1 < g.slotCount →
        ∃ t, exec (.scanReadDone block) s = .next t ∧ t.cwr.writer = .mounting ∧
          t.sdr = { s.sdr with entries := s.sdr.entries ++ [classify g block] } ∧
          t.cwr.port = some ⟨.scanRead (i + 1), g.base + (i + 1) * g.slotSize, 1, [], 1, s.now⟩ ∧
          t.lnk = s.lnk ∧ t.cbf = s.cbf) ∧
      (i + 1 = g.slotCount →
        let read := s.sdr.entries ++ [classify g block]
        (∀ e ∈ read, e.locks.impact = true → e.sequence ≠ none) → s.sdr.queue = [] →
        let es := withoutRepeats read
        let n := impactLocks es - g.quota
        let gone := amongLowest n (releasable [] es) es
        ∃ t, exec (.scanReadDone block) s = .next t ∧ t.cwr.writer = .ready ∧
          t.cbf = s.cbf ∧
          (∀ k, (entryAt t k).map unqueued =
            (es[k]?).map fun x => unqueued { x with locks := { x.locks with impact := x.locks.impact && !gone k } }) ∧
          (s.lnk.recordMask.getLsbD 1 = true →
            ReleasesReported n (releasable [] es) es s.lnk.events.slot t.lnk.events.slot) ∧
          (s.lnk.recordMask.getLsbD 3 = true →
            t.lnk.events.card = ⟨min 255 (s.lnk.events.card.count + 1), some (.cardMounted g.slotCount
              (countSlots .free es) (countSlots .closed es) (countSlots .recovered es) (countSlots .bad es)
              ((List.range read.length).countP (repeated read)) n g.quota t.sdr.nextSeq t.sdr.nextRec)⟩) ∧
          (∃ q' : List Nat, (∀ k, k ∈ q' ↔ gone k = true) ∧ q'.Pairwise (fun a b => seqAt es a < seqAt es b) ∧
            ArbiterGrants (beforeGrant { s with sdr := { s.sdr with queue := q' } } t) t) ∧
          ((∀ e ∈ es, e.sequence = none) → t.sdr.nextSeq = some 1 ∧ t.sdr.nextRec = 1) ∧
          ∀ (j q : Nat) (e : Entry), es[j]? = some e → e.sequence = some q →
            (∀ x ∈ es, ∀ p, x.sequence = some p → p ≤ q) →
            t.sdr.nextSeq = (if 4294967295 ≤ q then none else some (q + 1)) ∧
              t.sdr.nextRec = if 65535 ≤ e.recId.getD 0 then 1 else e.recId.getD 0 + 1))

/-- R86, R92: what the ring and the list offer, with its slot, its number in the slot's area, its real count and
whether it is the slot's last: a unit of 65,536 bytes at the head, or, of a CLOSING slot, of what is left; a block of
32 records at the head, or, of a CLOSING slot, of those at the head. R87, R93, R123: while recording, a write unit on
card takes its real bytes from the head of the ring and adds them to its slot's stream bytes, and every sixteenth unit
of the OPEN slot asks for a checkpoint, a header update; a motion block takes its records from the head of the list
and adds them to its slot's motion records. The port is then granted in the order of R125. Where the rules leave a
point of this open, the model's choice stands (log 2). -/
def Obligations.UnitsAndBlocksComplete : Prop :=
  (∀ s : State,
    (s.cbf.segs = [] → offeredUnit s = none) ∧ (s.cbf.pend = [] → offeredBlock s = none) ∧
    (∀ g rest e, s.cbf.segs = g :: rest → entryAt s g.slot = some e →
      let held := g.bytes.length
      (65536 ≤ held → offeredUnit s =
        some ⟨g.slot, e.streamBytes / 65536, 65536, decide (e.st = .closing ∧ held = 65536)⟩) ∧
      (held < 65536 → e.st = .closing → offeredUnit s = some ⟨g.slot, e.streamBytes / 65536, held, true⟩) ∧
      (held < 65536 → e.st ≠ .closing → offeredUnit s = none)) ∧
    ∀ r rest e, s.cbf.pend = r :: rest → entryAt s r.slot = some e →
      let head := ((r :: rest).takeWhile fun x => x.slot == r.slot).length
      let all := (r :: rest).countP fun x => x.slot == r.slot
      (32 ≤ head → offeredBlock s =
        some ⟨r.slot, e.motionRecords / 32, 32, decide (e.st = .closing ∧ all = 32)⟩) ∧
      (head < 32 → e.st = .closing → offeredBlock s =
        some ⟨r.slot, e.motionRecords / 32, head, decide (all = head)⟩) ∧
      (head < 32 → e.st ≠ .closing → offeredBlock s = none)) ∧
  ∀ (s : State) (x : Transfer) (i n : Nat) (e : Entry), Awake s → PortLaw s →
    s.cwr.writer = .recording ∨ s.cwr.writer = .rolling ∨ s.cwr.writer = .stopping →
    s.cwr.port = some x → entryAt s i = some e →
    let frame (t : State) : Prop := KeepsClock s t ∧ KeepsMotion s t ∧ KeepsPower s t ∧ t.adu = s.adu ∧ t.lnk = s.lnk ∧
      t.cwr.writer = s.cwr.writer ∧ t.sdr.mark = s.sdr.mark ∧ t.cwr.cursor = s.cwr.cursor
    (x.op = .streamUnit i n →
      let due : Prop := openSlot s = some i ∧ (s.cwr.units + 1) % 16 = 0
      let q' : List Nat :=
        if openSlot s = some i ∧ (s.cwr.units + 1) % 16 = 0 ∧ i ∉ s.sdr.queue then s.sdr.queue ++ [i] else s.sdr.queue
      ∃ t, exec .unitWriteDone s = .next t ∧ frame t ∧
        exec .checkpoint s = .next (if openSlot s = some i ∧ (s.cwr.units + 1) % 16 = 0 then t else s) ∧
        (∀ g rest, s.cbf.segs = g :: rest →
          t.cbf = { s.cbf with segs :=
            if g.bytes.length ≤ n then rest else ⟨g.slot, g.bytes.drop n⟩ :: rest }) ∧
        t.cwr.units = (if openSlot s = some i then s.cwr.units + 1 else s.cwr.units) ∧
        (∀ j, (entryAt t j).map unqueued =
          if j = i then some (unqueued { e with streamBytes := e.streamBytes + n })
          else (entryAt s j).map unqueued) ∧
        (due → s.sdr.geo ≠ none → s.sdr.queue = [] → e.headerWritten = true →
          (t.cwr.port.map Transfer.op = some (.headerUpdate i))) ∧
        ArbiterGrants (beforeGrant { s with
          sdr := { s.sdr with queue := q' }
          cwr := { s.cwr with offUnit := false } } t) t) ∧
    (x.op = .motionBlock i n →
      ∃ t, exec .blockWriteDone s = .next t ∧ frame t ∧ t.cbf = { s.cbf with pend := s.cbf.pend.drop n } ∧
        t.cwr.units = s.cwr.units ∧
        ArbiterGrants (beforeGrant { s with cwr := { s.cwr with offBlock := false } } t) t ∧
        ∀ j, (entryAt t j).map unqueued =
          if j = i then some (unqueued { e with motionRecords := e.motionRecords + n })
          else (entryAt s j).map unqueued)

/-- R114, R121, R125, R128, R129, R132: a header update on card leaves the port, which is granted again in the order of
R125; in READY under a held UNMOUNT the queue goes on, and when nothing of it needs a write the UNMOUNT is answered OK
(R116); in EMERGENCY_CLOSE the close goes on (R173). While recording, an opening header makes its slot's header written
and raises SLOT(opened), and in ROLLING, for the OPEN slot, ends the rollover in RECORDING, or in STOPPING with the stop
mark's reason; a CLOSED header commits its slot CLOSED with its reason, what waits of its motion records dropped, and
raises SLOT(closed), and in STOPPING ends the recording with RECORD(stopped) in READY; the port is granted again. An
opening or CLOSED header that an emergency close inherited has the same effect on its slot, and the close goes on with
the slots still to be closed. Where the rules leave a point of this open, the model's choice stands (logs 25, 33; Header
written after a commit is log 43; an inherited CLOSED header is committed with 0 units spent and an empty list: log 22;
the clip buffer's assigned total and admitted counts at the end of an UNMOUNT are log 55). -/
def Obligations.HeadersComplete : Prop :=
  (∀ (s : State) (x : Transfer) (i : Nat), Awake s → s.cwr.port = some x → x.op = .headerUpdate i →
    ∃ t, exec .headerUpdateDone s = .next t ∧ KeepsClock s t ∧ KeepsMotion s t ∧ PortFreed s t) ∧
  (∀ (s : State) (x : Transfer) (c : EmergencyClose) (i : Nat) (e : Entry), Awake s → PortLaw s →
    s.cwr.writer = .emergencyClose → s.ssv.close = some c → s.cwr.port = some x → entryAt s i = some e →
    (x.op = .openingHeader i →
      ∃ t, exec .openingHeaderDone s = .next t ∧ KeepsClock s t ∧ KeepsMotion s t ∧
        CloseGoesOn c { s with
          sdr := { s.sdr with entries := rewritten i (fun y => { y with headerWritten := true }) s.sdr.entries }
          cwr := { s.cwr with port := none }
          lnk := { s.lnk with
            events := eventsWith (.slotOpened i (e.sequence.getD 0) (e.recId.getD 0) (e.openTime.getD 0)) s } } t) ∧
    ∀ reason, x.op = .closedHeader i reason →
      let dropped := min 4294967295 (e.motionDropped + pendingOf i s.cbf.pend)
      let rest : EmergencyClose := { c with todo := c.todo.filter fun k => k != i }
      let closed := rewritten i (fun y => { y with st := .closed, reason := some reason, motionDropped := dropped })
        s.sdr.entries
      ∃ t, exec .closedHeaderDone s = .next t ∧ KeepsClock s t ∧ KeepsMotion s t ∧
        CloseGoesOn rest { s with
          sdr := { s.sdr with entries := match rest.todo.head? with
            | none => closed
            | some k => rewritten k (fun y => { y with st := .closing }) closed }
          cbf := { s.cbf with pend := s.cbf.pend.filter fun r => r.slot != i }
          cwr := { s.cwr with port := none }
          ssv := { s.ssv with close := some rest }
          lnk := { s.lnk with events := eventsWith (.slotClosed i reason (e.sequence.getD 0) e.streamBytes e.lostBytes
            e.motionRecords dropped 0 []) s } } t) ∧
  ∀ (s : State) (x : Transfer) (i : Nat) (e : Entry), Awake s → PortLaw s →
    s.cwr.writer = .recording ∨ s.cwr.writer = .rolling ∨ s.cwr.writer = .stopping →
    s.cwr.port = some x → entryAt s i = some e →
    let frame (t : State) : Prop := KeepsClock s t ∧ KeepsMotion s t ∧ KeepsPower s t ∧ t.adu = s.adu ∧
      t.cwr.cursor = s.cwr.cursor ∧ t.lnk = { s.lnk with events := t.lnk.events } ∧ t.cbf.segs = s.cbf.segs
    (x.op = .headerUpdate i →
      ∃ t, exec .headerUpdateDone s = .next t ∧ frame t ∧ t.lnk = s.lnk ∧
        KeepsCardButPort s t) ∧
    (x.op = .openingHeader i →
      ∃ t, exec .openingHeaderDone s = .next t ∧ frame t ∧ t.cbf = s.cbf ∧ ArbiterGrants (beforeGrant s t) t ∧
        t.lnk.events = eventsWith (.slotOpened i (e.sequence.getD 0) (e.recId.getD 0) (e.openTime.getD 0)) s ∧
        (¬ (s.cwr.writer = .rolling ∧ openSlot s = some i) →
          t.cwr.writer = s.cwr.writer ∧
            (entryAt t i).map unqueued = some (unqueued { e with headerWritten := true })) ∧
        (s.cwr.writer = .rolling → openSlot s = some i →
          (s.cwr.stopMark = none → t.cwr.writer = .recording ∧ t.cwr.closeReason = none ∧
            (entryAt t i).map unqueued = some (unqueued { e with headerWritten := true })) ∧
          ∀ reason, s.cwr.stopMark = some reason →
            t.cwr.writer = .stopping ∧ t.cwr.closeReason = some reason ∧ t.cwr.stopMark = none ∧
              (entryAt t i).map unqueued = some (unqueued { e with headerWritten := true, st := .closing }))) ∧
    ∀ reason, x.op = .closedHeader i reason →
      let dropped := min 4294967295 (e.motionDropped + (s.cbf.pend.filter fun r => r.slot == i).length)
      let closed : Detail := .slotClosed i reason (e.sequence.getD 0) e.streamBytes e.lostBytes e.motionRecords dropped 0 []
      ∃ t, exec .closedHeaderDone s = .next t ∧ frame t ∧ ArbiterGrants (beforeGrant s t) t ∧
        t.cbf.pend = (s.cbf.pend.filter fun r => r.slot != i) ∧
        (entryAt t i).map unqueued =
          some (unqueued { e with st := .closed, reason := some reason, motionDropped := dropped }) ∧
        (s.cwr.writer ≠ .stopping → t.cwr.writer = s.cwr.writer ∧ t.cwr.recId = s.cwr.recId ∧
          t.lnk.events = eventsWith closed s) ∧
        (s.cwr.writer = .stopping →
          t.cwr.writer = .ready ∧ t.cwr.recId = none ∧
            ∀ r, s.cwr.recId = some r →
              t.lnk.events = eventsWith (.recordStopped r reason s.now s.cwr.lastSlot 0 0)
                { s with lnk := { s.lnk with events := eventsWith closed s } })

/-- R126, R130, R135, R140: a failed attempt is retried at once, up to three attempts; the time an attempt may take is
100 ms (410 ticks) for a read and 250 ms (1,024 ticks) for a write. The third failure of a write while recording (or of
a CLOSED header that an emergency close inherited) sends the writer to FAULT with CARD(fault) and RECORD(stopped), the
card's state discarded and a held MOTION_READ answered STATE; of a host read it answers NOT_READY and frees the port; of
a format or scan transfer it makes the slot BAD, and the pass goes on, or after the last slot completes the mount (R98,
R99, R102); of identification it ends the mount. Where the rules leave a point of this open, the model's choice stands
(logs 3, 34; the last slot in RECORD(stopped) is log 25, its budget and units spent in an emergency close log 46; the
clip buffer's assigned total and admitted counts at the end of an UNMOUNT are log 55). -/
def Obligations.AttemptsFail : Prop :=
  ∀ (s : State) (x : Transfer), Awake s → s.cwr.port = some x →
    let own : Prop := (∃ i, x.op = .emUpdate i) ∨ (∃ i n, x.op = .emUnit i n) ∨ (∃ i n, x.op = .emBlock i n) ∨
      ∃ i, x.op = .emClosed i
    let reads : Prop := x.op = .identify ∨ (∃ i, x.op = .scanRead i) ∨ ∃ w, x.op = .hostRead w
    let time (n : Nat) : Prop := n ≤ (s.now - x.began).toNat
    (¬ own → x.attempt < 3 →
      exec .cardAttemptFailed s =
        .next { s with cwr := { s.cwr with port := some { x with attempt := x.attempt + 1, began := s.now } } }) ∧
    ((reads → time 410) → (¬ reads → time 1024) → exec .cardAttemptTimeout s = exec .cardAttemptFailed s) ∧
    ((reads ∧ ¬ time 410) ∨ (¬ reads ∧ ¬ time 1024) → exec .cardAttemptTimeout s = .next s) ∧
    (3 ≤ x.attempt →
      (∀ i kind,
        (s.cwr.writer = .recording ∨ s.cwr.writer = .rolling ∨ s.cwr.writer = .stopping ∨ s.cwr.writer = .ready) ∨
          (s.cwr.writer = .emergencyClose ∧ ∃ r, x.op = .closedHeader i r) →
        ((x.op = .headerUpdate i ∨ x.op = .openingHeader i ∨ (∃ r, x.op = .closedHeader i r)) ∧ kind = .header) ∨
          ((∃ n, x.op = .streamUnit i n) ∧ kind = .streamUnit) ∨ ((∃ n, x.op = .motionBlock i n) ∧ kind = .motionBlock) →
        ∃ t, exec .cardAttemptFailed s = .next t ∧ KeepsClock s t ∧ KeepsMotion s t ∧ t.cwr.writer = .fault ∧
          t.cwr.port = none ∧ t.cwr.cursor = none ∧ t.cwr.stopMark = none ∧ t.cwr.recId = none ∧
          t.sdr = Sdr.reset ∧ t.cbf = Cbf.reset ∧
          (s.lnk.recordMask.getLsbD 3 = true →
            t.lnk.events.card = ⟨min 255 (s.lnk.events.card.count + 1), some (.cardFault .write (some (i, x.addr, kind)))⟩) ∧
          (∀ r, s.cwr.recId = some r → s.lnk.recordMask.getLsbD 2 = true →
            t.lnk.events.record = ⟨min 255 (s.lnk.events.record.count + 1),
              some (.recordStopped r .cardFault s.now s.cwr.lastSlot 0 0)⟩) ∧
          (∀ tag j k n taken, s.lnk.req = some (.motionRead tag j k n taken) →
            t.lnk.req = none ∧ t.lnk.reply = some ⟨0xA8#8, tag, .state, []⟩) ∧
          ∀ tag, s.lnk.req = some (.unmount tag) → t.lnk.req = none ∧ t.lnk.reply = some ⟨0xA1#8, tag, .state, []⟩) ∧
      (∀ tag i k n taken, x.op = .hostRead true → s.cwr.writer ≠ .emergencyClose →
        s.lnk.req = some (.motionRead tag i k n taken) →
        ∃ t, exec .cardAttemptFailed s = .next t ∧ t.cwr.cursor = s.cwr.cursor ∧ t.cwr.writer = s.cwr.writer ∧
          (arbitrating s.cwr.writer = true → ArbiterGrants (beforeGrant s t) t) ∧
          t.lnk = { s.lnk with req := none, reply := some ⟨0xA8#8, tag, .notReady, []⟩ }) ∧
      (x.op = .hostRead false →
        ∃ t, exec .cardAttemptFailed s = .next t ∧ KeepsClock s t ∧ KeepsMotion s t ∧ PortFreed s t) ∧
      (∀ i g, x.op = .formatHeader i ∨ x.op = .scanRead i → s.sdr.geo = some g → i + 1 < g.slotCount →
        ∃ t, exec .cardAttemptFailed s = .next t ∧ t.sdr = { s.sdr with entries := s.sdr.entries ++ [badEntry] } ∧
          t.cwr.writer = s.cwr.writer ∧ t.lnk = s.lnk ∧
          t.cwr.port.map Transfer.op = some (if g.format = true then .formatHeader (i + 1) else .scanRead (i + 1))) ∧
      (∀ i g, s.cwr.writer = .mounting → PortLaw s → s.sdr.geo = some g → i = s.sdr.entries.length →
        i + 1 = g.slotCount →
        let read := s.sdr.entries ++ [badEntry]
        (x.op = .formatHeader i → g.format = true → (∀ e ∈ s.sdr.entries, e.st = .free ∨ e.st = .bad) →
          (∀ e ∈ s.sdr.entries, e.locks.impact = false) →
          ∃ t, exec .cardAttemptFailed s = .next t ∧ FormatCompletes g read s t) ∧
        (x.op = .scanRead i → g.format = false → (∀ e ∈ read, e.locks.impact = true → e.sequence ≠ none) →
          s.sdr.queue = [] →
          ∃ t, exec .cardAttemptFailed s = .next t ∧ ScanCompletes g read s t)) ∧
      (x.op = .identify →
        ∃ t, exec .cardAttemptFailed s = .next t ∧ t.cwr.writer = .unmounted ∧ t.sdr = Sdr.reset ∧
          t.lnk.events = eventsWith (.cardFault .bringUp none) s))

/-- R136, R137, R116, R140: the card-detect input is timed while it differs from the presence; after 5 ms (20 ticks)
without a break a card is inserted, or removed: with a region mounted, or in FAULT or MOUNTING, the card's state is
discarded, the writer is UNMOUNTED, a held MOTION_READ is NO_CARD and a held UNMOUNT STATE, and a recording ends with
RECORD(stopped). Where the rules leave a point of this open, the model's choice stands (logs 3, 19, 25; the budget and
the units spent of a RECORD(stopped) that ends an emergency close are log 46; the clip buffer's assigned total and
admitted counts at a removal that ends a mount are log 55). -/
def Obligations.CardComesAndGoes : Prop :=
  (∀ (card : Bool) (s : State),
    exec (.cdetChange card) s = .next { s with cwr := { s.cwr with
      cdet := card
      cdetSince := if card = s.cwr.present then none else if card = s.cwr.cdet then s.cwr.cdetSince else some s.now } }) ∧
    ∀ (s : State) (since : Word), Awake s → s.cwr.cdetSince = some since →
      let time : Prop := 20 ≤ (s.now - since).toNat
      (¬ time → exec .cardInserted s = .next s ∧ exec .cardRemoved s = .next s) ∧
      (time → s.cwr.cdet = true → s.cwr.present = false →
        ∃ t, exec .cardInserted s = .next t ∧
          t = { s with
            cwr := { s.cwr with present := true, cdetSince := none }
            lnk := { s.lnk with events := eventsWith .cardInserted s } }) ∧
      (time → s.cwr.cdet = false → s.cwr.present = true →
        (s.cwr.writer = .unmounted →
          exec .cardRemoved s = .next { s with
            cwr := { s.cwr with present := false, cdetSince := none }
            lnk := { s.lnk with events := eventsWith .cardRemoved s } }) ∧
        (s.cwr.writer ≠ .unmounted →
          ∃ t, exec .cardRemoved s = .next t ∧ KeepsClock s t ∧ KeepsMotion s t ∧ t.cwr.present = false ∧
            t.cwr.writer = .unmounted ∧ t.cwr.port = none ∧ t.cwr.cursor = none ∧ t.cwr.stopMark = none ∧
            t.cwr.recId = none ∧ t.sdr = Sdr.reset ∧ t.cbf = Cbf.reset ∧ t.ssv.close = none ∧
            (s.lnk.recordMask.getLsbD 3 = true →
              t.lnk.events.card = ⟨min 255 (s.lnk.events.card.count + 1), some .cardRemoved⟩) ∧
            (∀ r, s.cwr.recId = some r → s.lnk.recordMask.getLsbD 2 = true →
              t.lnk.events.record = ⟨min 255 (s.lnk.events.record.count + 1),
                some (.recordStopped r .cardRemoved s.now s.cwr.lastSlot 0 0)⟩) ∧
            (∀ tag i k n taken, s.lnk.req = some (.motionRead tag i k n taken) →
              t.lnk.req = none ∧ t.lnk.reply = some ⟨0xA8#8, tag, .noCard, []⟩) ∧
            ∀ tag, s.lnk.req = some (.unmount tag) → t.lnk.req = none ∧ t.lnk.reply = some ⟨0xA1#8, tag, .state, []⟩))

/-! ## Supply supervision (spec/10) -/

/-- R166 to R169: in NORMAL a fall below warn is RIDE_THROUGH with its timer, SUPPLY joining every channel's set and
the charger's, which a charger in PRECHARGE, FAST_CC, FAST_CV or DONE is paused by at once with one CHARGE event
(R150); at or above recover in RIDE_THROUGH the state is NORMAL and SUPPLY leaves; at the timer's end it is
EMERGENCY, and a recording's emergency close begins, whose first write begins at once where the port is free. The
stable time begins at the rise to recover (R165) and there is none below it; 64 ms (262 ticks) of it without a close
running bring EMERGENCY to NORMAL, and it runs on. The settings stand through every change. Each change raises one
SUPPLY event. Where the rules leave a point of this open, the model's choice stands (logs 3, 21, 37). -/
def Obligations.RailMovesSupplyState : Prop :=
  let restored (kind : SupplyKind) (rail : Rail) (stable : Option Nat) (s t : State) : Prop :=
    t.ssv = { s.ssv with st := .normal, timerEnd := none, rail := rail, stable := stable } ∧
      t.chg = { s.chg with pause := { s.chg.pause with supply := false } } ∧
      (∀ c, chanGet t.adu c = unparkedBy .supply s.now (chanGet s.adu c)) ∧
      t.lnk = { s.lnk with
        events := eventsWith (.supply kind s.ssv.st .normal s.scn.vSys.latest s.now false 0) s }
  let frame (s t : State) : Prop := KeepsClock s t ∧ t.msu = s.msu ∧ t.ctx = s.ctx ∧ t.scn = s.scn ∧ t.ips = s.ips
  (∀ s : State, Awake s →
    (s.ssv.st ≠ .normal →
      exec .railBelowWarn s = .next { s with ssv := { s.ssv with rail := .belowWarn, stable := none } }) ∧
    (s.ssv.st = .normal →
      ∃ t, exec .railBelowWarn s = .next t ∧ frame s t ∧ KeepsCard s t ∧
        t.ssv = { s.ssv with
          rail := .belowWarn
          stable := none
          st := .rideThrough
          timerEnd := some (later s.now (ticksOfMs s.ssv.rideMs)) } ∧
        (∀ c, chanGet t.adu c = parkedBy .supply (chanGet s.adu c)) ∧
        ReasonsBecome { s.chg.pause with supply := true } { s.chg with pause := { s.chg.pause with supply := true } } s t ∧
        (s.lnk.recordMask.getLsbD 8 = true →
          t.lnk.events.supply = ⟨min 255 (s.lnk.events.supply.count + 1),
            some (.supply .rideThrough .normal .rideThrough s.scn.vSys.latest s.now false 0)⟩))) ∧
  (∀ s : State, Awake s →
    (s.ssv.rail = .atRecover → exec .railRecover s = .next s ∧
      exec .railBelowRecover s = .next { s with ssv := { s.ssv with rail := .belowRecover, stable := none } }) ∧
    (s.ssv.rail ≠ .atRecover → exec .railBelowRecover s = .next s ∧
      (s.ssv.st ≠ .rideThrough →
        exec .railRecover s = .next { s with ssv := { s.ssv with rail := .atRecover, stable := some 0 } }) ∧
      (s.ssv.st = .rideThrough →
        ∃ t, exec .railRecover s = .next t ∧ frame s t ∧ KeepsCard s t ∧ t.csu = s.csu ∧
          restored .recovered .atRecover (some 0) s t))) ∧
  (∀ (s : State) (e : Word), Awake s → s.ssv.st = .rideThrough → s.ssv.timerEnd = some e →
    (2147483648 ≤ (s.now - e).toNat → exec .rideThroughExpiry s = .next s) ∧
    ((s.now - e).toNat < 2147483648 →
      let records : Prop := s.cwr.writer = .recording ∨ s.cwr.writer = .rolling ∨ s.cwr.writer = .stopping
      (¬ records →
        let l := eventsWith (.supply .emergency .rideThrough .emergency s.scn.vSys.latest s.now false 0) s
        exec .rideThroughExpiry s = .next { s with
          ssv := { s.ssv with st := .emergency, timerEnd := none }
          lnk := { s.lnk with events := l } }) ∧
      (records → s.cwr.port ≠ none →
        ∃ t, exec .rideThroughExpiry s = .next t ∧ frame s t ∧ t.csu = s.csu ∧ t.adu = s.adu ∧ t.chg = s.chg ∧
          t.cwr.writer = .emergencyClose ∧ t.cwr.stopMark = none ∧ t.cwr.closeReason = some .emergency ∧
          t.ssv = { s.ssv with
            st := .emergency
            timerEnd := none
            close := some ⟨s.ssv.budget, s.ssv.budget, .inherited,
              (closingSlot s).toList ++ (openSlot s).toList, false⟩ } ∧
          t.lnk.events =
            eventsWith (.supply .emergency .rideThrough .emergency s.scn.vSys.latest s.now true s.ssv.budget) s ∧
          (∀ tag i k n taken, s.lnk.req = some (.motionRead tag i k n taken) →
            t.lnk.req = none ∧ t.lnk.reply = some ⟨0xA8#8, tag, .state, []⟩) ∧
          (closingSlot s = none → ∀ i, openSlot s = some i → (entryAt t i).map Entry.st = some .closing)) ∧
      (records → s.cwr.port = none → PortLaw s →
        let c : EmergencyClose :=
          ⟨s.ssv.budget, s.ssv.budget, .inherited, (closingSlot s).toList ++ (openSlot s).toList, false⟩
        let es := s.sdr.entries
        let l : Lnk := { s.lnk with
          events := eventsWith
            (.supply .emergency .rideThrough .emergency s.scn.vSys.latest s.now true s.ssv.budget) s }
        ∃ t, exec .rideThroughExpiry s = .next t ∧ frame s t ∧ t.cwr.stopMark = none ∧
          CloseGoesOn c { s with
            sdr := { s.sdr with entries := match closingSlot s, openSlot s with
              | none, some j => rewritten j (fun e => { e with st := .closing }) es
              | _, _ => es }
            cwr := { s.cwr with writer := .emergencyClose }
            ssv := { s.ssv with st := .emergency, timerEnd := none, close := some c }
            lnk := match s.lnk.req with
              | some (.motionRead tag _ _ _ _) => { l with req := none, reply := some ⟨0xA8#8, tag, .state, []⟩ }
              | _ => l } t))) ∧
  ∀ s : State, Awake s →
    (s.ssv.st = .emergency → (∃ n, s.ssv.stable = some n ∧ 262 ≤ n) → s.cwr.writer ≠ .emergencyClose →
      ∃ t, exec .stableTimeReached s = .next t ∧ frame s t ∧ KeepsCard s t ∧ t.csu = s.csu ∧
        restored .normal s.ssv.rail s.ssv.stable s t) ∧
    (s.ssv.st ≠ .emergency ∨ s.cwr.writer = .emergencyClose ∨ s.ssv.stable = none ∨
      (∃ n, s.ssv.stable = some n ∧ n < 262) → exec .stableTimeReached s = .next s)

/-- R173 to R179, R181: the writes of an emergency close. When a write completes, with its effect on its slot, the close
goes on: a header update while its first part lasts and 2 units fit above the reserve, else a unit of the first slot
while 7 fit, else a block while 1 fits, else the slot's CLOSED header, what is left of the slot's bytes and records
counted lost; the units are charged as the write begins. When the CLOSED header of a slot is on card the slot is CLOSED
with EMERGENCY and what was spent, and the next slot is CLOSING; after the last the writer is READY and RECORD(stopped)
carries the budget and what was spent. Of a slot whose header was never written, the CLOSED header alone is written. A
failed write, or an inherited one that failed its third time, leaves only the CLOSED headers to be written, a failed
header update joining the queue again; a failed CLOSED header sends the writer to FAULT. Where the rules leave a point
of this open, the model's choice stands (log 22; the last slot in RECORD(stopped) is log 25, its budget and units spent
at a FAULT log 46). -/
def Obligations.EmergencyCloseWrites : Prop :=
  (∀ (s : State) (x : Transfer) (c : EmergencyClose) (i r : Nat) (e : Entry), Awake s → s.cwr.writer = .emergencyClose →
    s.cwr.port = some x → x.op = .emClosed i → s.ssv.close = some c → c.part = .header → c.todo = [i] →
    s.cwr.recId = some r → entryAt s i = some e → s.lnk.req = none → s.ssv.stable = none →
    (∀ k, pendingOf k s.cbf.pend = 0) → s.lnk.recordMask.getLsbD 1 = true → s.lnk.recordMask.getLsbD 2 = true →
    ∃ t, exec .emergencyWriteDone s = .next t ∧ KeepsClock s t ∧ KeepsMotion s t ∧ t.adu = s.adu ∧ t.chg = s.chg ∧
      t.cwr.writer = .ready ∧ t.cwr.recId = none ∧ t.ssv.close = none ∧ t.ssv.st = s.ssv.st ∧
      (entryAt t i).map Entry.st = some .closed ∧ (entryAt t i).map Entry.reason = some (some .emergency) ∧
      t.lnk.events.slot = ⟨min 255 (s.lnk.events.slot.count + 1),
        some (.slotClosed i .emergency (e.sequence.getD 0) e.streamBytes e.lostBytes e.motionRecords
          (min 4294967295 e.motionDropped) (c.budget - c.left) s.sdr.queue)⟩ ∧
      t.lnk.events.record = ⟨min 255 (s.lnk.events.record.count + 1),
        some (.recordStopped r .emergency s.now s.cwr.lastSlot c.budget (c.budget - c.left))⟩) ∧
  (∀ (s : State) (x : Transfer) (c : EmergencyClose) (g : Geometry) (i : Nat) (e : Entry), Awake s →
    s.cwr.writer = .emergencyClose → s.cwr.port = some x →
    (∃ n, x.op = .emUnit i n) ∨ (∃ n, x.op = .emBlock i n) →
    s.ssv.close = some c → c.part = .stream ∨ c.part = .motion → c.todo = [i] → 2 ≤ c.left → s.sdr.geo = some g →
    1 ≤ x.attempt →
    entryAt s i = some e → s.lnk.req = none →
    ∃ t y, exec .emergencyWriteFailed s = .next t ∧ exec .cardAttemptFailed s = .next t ∧ KeepsClock s t ∧
      KeepsMotion s t ∧ t.adu = s.adu ∧ t.lnk = s.lnk ∧ t.cwr.writer = .emergencyClose ∧
      t.cwr.port = some y ∧ y.op = .emClosed i ∧ y.addr = g.base + i * g.slotSize ∧ y.blocks = 1 ∧
      t.ssv.close = some { c with left := c.left - 2, part := .header, failed := true } ∧
      (c.part = .stream → bytesOf i t.cbf.segs = 0) ∧ pendingOf i t.cbf.pend = 0) ∧
  (∀ (s : State) (x : Transfer) (c : EmergencyClose), Awake s → PortLaw s → s.cwr.writer = .emergencyClose →
    s.cwr.port = some x → s.ssv.close = some c →
    let es := s.sdr.entries
    let goesOn (i : Instr) (c : EmergencyClose) (u : State) : Prop :=
      ∃ t, exec i s = .next t ∧ KeepsClock s t ∧ KeepsMotion s t ∧
        CloseGoesOn c { u with cwr := { u.cwr with port := none }, ssv := { u.ssv with close := some c } } t
    let failed : EmergencyClose := { c with failed := true }
    ((∃ i, x.op = .emUpdate i) → goesOn .emergencyWriteDone c s) ∧
    (∀ i n g rest, openSlot s ≠ some i → s.cbf.segs = g :: rest →
      let u : State := { s with
        sdr := { s.sdr with entries := rewritten i (fun e => { e with streamBytes := e.streamBytes + n }) es }
        cbf := { s.cbf with segs := if g.bytes.length ≤ n then rest else ⟨g.slot, g.bytes.drop n⟩ :: rest }
        cwr := { s.cwr with offUnit := false } }
      (x.op = .emUnit i n → goesOn .emergencyWriteDone c u) ∧ (x.op = .streamUnit i n → goesOn .unitWriteDone c u)) ∧
    (∀ i n,
      let u : State := { s with
        sdr := { s.sdr with entries := rewritten i (fun e => { e with motionRecords := e.motionRecords + n }) es }
        cbf := { s.cbf with pend := s.cbf.pend.drop n }
        cwr := { s.cwr with offBlock := false } }
      (x.op = .emBlock i n → goesOn .emergencyWriteDone c u) ∧
        (x.op = .motionBlock i n → goesOn .blockWriteDone c u)) ∧
    (∀ i e, x.op = .emClosed i → entryAt s i = some e →
      let dropped := min 4294967295 (e.motionDropped + pendingOf i s.cbf.pend)
      let rest := c.todo.filter fun k => k != i
      let closed := rewritten i (fun y =>
        { y with st := .closed, reason := some .emergency, motionDropped := dropped }) es
      goesOn .emergencyWriteDone { c with todo := rest } { s with
        sdr := { s.sdr with entries := match rest.head? with
          | none => closed
          | some k => rewritten k (fun y => { y with st := .closing }) closed }
        cbf := { s.cbf with pend := s.cbf.pend.filter fun r => r.slot != i }
        lnk := { s.lnk with events := eventsWith (.slotClosed i .emergency (e.sequence.getD 0) e.streamBytes
          e.lostBytes e.motionRecords dropped (c.budget - c.left) s.sdr.queue) s } }) ∧
    ((∃ i n, x.op = .emUnit i n ∨ x.op = .emBlock i n) →
      goesOn .emergencyWriteFailed failed s ∧ (1 ≤ x.attempt → goesOn .cardAttemptFailed failed s)) ∧
    (3 ≤ x.attempt → (∃ i n, x.op = .streamUnit i n ∨ x.op = .motionBlock i n ∨ x.op = .openingHeader i) →
      goesOn .cardAttemptFailed failed s) ∧
    ∀ i,
      let q := if i ∈ s.sdr.queue then s.sdr.queue else s.sdr.queue ++ [i]
      let u : State := { s with sdr := { s.sdr with queue := q } }
      (x.op = .emUpdate i →
        goesOn .emergencyWriteFailed failed u ∧ (1 ≤ x.attempt → goesOn .cardAttemptFailed failed u)) ∧
        (x.op = .headerUpdate i → 3 ≤ x.attempt → goesOn .cardAttemptFailed failed u)) ∧
  (∀ (s : State) (x : Transfer) (c : EmergencyClose) (g : Geometry) (i k : Nat) (e : Entry), Awake s → PortLaw s →
    s.cwr.writer = .emergencyClose → s.cwr.port = some x → x.op = .emUpdate i → s.ssv.close = some c →
    c.part = .updates → c.todo = [k] → (∀ j ∈ s.sdr.queue, needsUpdate s j = false) → s.sdr.geo = some g →
    entryAt s k = some e → e.headerWritten = false →
    let lost : Entry := { e with
      lostBytes := min 4294967295 (e.lostBytes + bytesOf k s.cbf.segs)
      motionDropped := min 4294967295 (e.motionDropped + pendingOf k s.cbf.pend) }
    ∃ t, exec .emergencyWriteDone s = .next t ∧ t.cwr.writer = .emergencyClose ∧
      t.ssv.close = some { c with left := c.left - 2, part := .header } ∧
      t.cwr.port = some ⟨.emClosed k, g.base + k * g.slotSize, 1,
        closedHeader g.regionId (reasonCode .emergency) lost, 1, s.now⟩ ∧
      (entryAt t k).map unqueued = some (unqueued lost) ∧
      bytesOf k t.cbf.segs = 0 ∧ pendingOf k t.cbf.pend = 0) ∧
  ∀ (s : State) (x : Transfer) (i r : Nat), Awake s → s.cwr.writer = .emergencyClose → s.cwr.port = some x →
    x.op = .emClosed i → s.cwr.recId = some r →
    ∃ t, exec .emergencyWriteFailed s = .next t ∧ t.cwr.writer = .fault ∧ t.ssv.close = none ∧ t.cwr.recId = none ∧
      t.sdr = Sdr.reset ∧ t.cbf = Cbf.reset ∧
      (s.lnk.recordMask.getLsbD 2 = true →
        t.lnk.events.record = ⟨min 255 (s.lnk.events.record.count + 1),
          some (.recordStopped r .cardFault s.now s.cwr.lastSlot 0 0)⟩)

/-! ## Resets (spec/11, section 11.7) -/

/-- R170, R197 to R199, R52, R141, R148, R164, R165: a fall below brownout, or RSTN low, begins a reset at that
moment: the link and work that takes time are cut off and the channels drive nothing. It ends when no cause is held,
with the power-on values after POWER_ON and BROWNOUT and the warm ones after LINE: part time 0, the supply state, the
charger's latch and timers, the sources' presence and the battery's state kept; I_eff is held within the power-on
limit of the kept selection, the pause reasons are those of the kept zone and supply state, a ride-through timer runs
on with the time it had left, and the stable time is kept while the rail stands at or above recover. A power-on reset
that ends, by the rail or by RSTN, with the rail below warn starts a ride-through at once; with the rail between warn
and recover, or at or above recover, it starts none, and the stable time is none or begins. A rail that has risen to
warn before RSTN ends the reset, which POWER_ON_RESET_END then reports, starts none. Below 1,000 mV in a brownout the
cause is POWER_ON. A second cause joins the reset under way, which lasts until every cause held has ended: RSTN going
low leaves the cause of a brownout, and RSTN that is low already, or high already, changes nothing. The other rail
crossings move the rail's place alone while RSTN holds the part, and nothing while the rail does. Where the rules leave
a point of this open, the model's choice stands (logs 12, 23, 28, 31, 35, 37). -/
def Obligations.ResetsBeginAndEnd : Prop :=
  let quiet (ch : Channel) : Channel := { ch with waiting := none, applied := 0, duty := 0, finalPeriod := false }
  let off (s : State) (supply : Bool) (c : Chan) : Channel :=
    { Channel.reset with comparator := (chanGet s.adu c).comparator, park := ⟨false, supply, false, false⟩ }
  let stands (rail : Rail) : Prop := rail = .belowWarn ∨ rail = .belowRecover ∨ rail = .atRecover
  (∀ s : State, Awake s →
    let begins (r : Rst) (rail : Rail) (t : State) : Prop :=
      t = { s with
        ctx := { s.ctx with pendingSwitch := none }
        adu := t.adu
        cwr := { s.cwr with port := none, recId := none, lastSlot := none, stopMark := none }
        ssv := { s.ssv with close := none, rail := rail }
        lnk := Lnk.reset
        rst := r } ∧
      ∀ c, chanGet t.adu c = quiet (chanGet s.adu c)
    (s.rst.supplyLow = false →
      ∃ t, exec .brownout s = .next t ∧ begins ⟨true, true, s.rst.lineLow, .brownout⟩ .belowBrownout t) ∧
    (s.rst.lineLow = false →
      ∃ t, exec .rstnLow s = .next t ∧ begins ⟨true, s.rst.supplyLow, true, .line⟩ s.ssv.rail t)) ∧
  (∀ s : State, s.rst.active = true →
    (s.rst.supplyLow = true → exec .brownout s = .next s ∧
      exec .railBelowPowerOnLevel s =
        .next { s with rst := { s.rst with cause := .powerOn }, ssv := { s.ssv with rail := .belowPowerOn } } ∧
      (∀ rail, ¬ stands rail → exec (.powerOnResetEnd rail) s = .next s) ∧
      exec .railBelowWarn s = .next s ∧ exec .railRecover s = .next s ∧ exec .railBelowRecover s = .next s) ∧
    (s.rst.supplyLow = true → s.rst.lineLow = false → s.rst.cause = .powerOn ∨ s.rst.cause = .brownout →
      exec .rstnLow s = .next { s with rst := { s.rst with lineLow := true } }) ∧
    (s.rst.supplyLow = false →
      exec .railBelowWarn s = .next { s with ssv := { s.ssv with rail := .belowWarn } } ∧
        exec .railRecover s = .next { s with ssv := { s.ssv with rail := .atRecover } } ∧
        exec .railBelowRecover s = .next { s with ssv := { s.ssv with rail := .belowRecover } }) ∧
    (s.rst.supplyLow = false → s.rst.lineLow = true →
      exec .brownout s = .next { s with
        rst := ⟨true, true, true, if s.rst.cause = .powerOn then .powerOn else .brownout⟩
        ssv := { s.ssv with rail := .belowBrownout } }) ∧
    (s.rst.supplyLow = true → s.rst.lineLow = true →
      exec .rstnHigh s = .next { s with rst := { s.rst with lineLow := false } } ∧
        ∀ rail, stands rail → exec (.powerOnResetEnd rail) s =
          .next { s with rst := { s.rst with supplyLow := false }, ssv := { s.ssv with rail := rail } })) ∧
  (∀ s : State, (s.rst.lineLow = true → exec .rstnLow s = .next s) ∧
    (s.rst.lineLow = false → exec .rstnHigh s = .next s)) ∧
  (∀ s : State, s.rst.active = true → s.rst.supplyLow = true → s.rst.lineLow = false →
    s.rst.cause = .powerOn ∨ s.rst.cause = .brownout →
    (∀ rail, rail = .belowRecover ∨ rail = .atRecover →
      ∃ t, exec (.powerOnResetEnd rail) s = .next t ∧
        t = { State.reset with
          adu := t.adu
          cwr := Cwr.reset s.cwr.cdet
          ssv :=
            { st := .normal
              timerEnd := none
              stable := if rail = .atRecover then some 0 else none
              rideMs := 8
              budget := 48
              rail := rail
              close := none }
          rst := ⟨false, false, false, s.rst.cause⟩
          pending := s.pending } ∧
        ∀ c, chanGet t.adu c = off s false c) ∧
    ∃ t, exec (.powerOnResetEnd .belowWarn) s = .next t ∧
      t = { State.reset with
        adu := t.adu
        cwr := Cwr.reset s.cwr.cdet
        chg := { Chg.reset with pause := ⟨false, false, false, true⟩ }
        ssv :=
          { st := .rideThrough
            timerEnd := some 33#32
            stable := none
            rideMs := 8
            budget := 48
            rail := .belowWarn
            close := none }
        lnk := { Lnk.reset with events := t.lnk.events }
        rst := ⟨false, false, false, s.rst.cause⟩
        pending := s.pending } ∧
      t.lnk.events.supply = ⟨1, some (.supply .rideThrough .normal .rideThrough 0 0 false 0)⟩ ∧
      ∀ c, chanGet t.adu c = off s true c) ∧
  (∀ s : State, s.rst.supplyLow = false → s.ssv.rail = .belowWarn →
    exec (.powerOnResetEnd .belowRecover) s = .next { s with ssv := { s.ssv with rail := .belowRecover } }) ∧
  (∀ s : State, s.rst.active = true → s.rst.supplyLow = false → s.rst.lineLow = true →
    s.rst.cause = .powerOn ∨ s.rst.cause = .brownout →
    let rail := s.ssv.rail
    ∃ t, exec .rstnHigh s = .next t ∧ t.now = 0 ∧ t.rst = ⟨false, false, false, s.rst.cause⟩ ∧
      (rail = .belowWarn →
        t.ssv.rail = rail ∧ t.ssv.st = .rideThrough ∧ t.ssv.timerEnd = some 33#32 ∧ t.ssv.stable = none ∧
          t.chg.pause = ⟨false, false, false, true⟩ ∧ ∀ c, chanGet t.adu c = off s true c) ∧
      (rail = .belowRecover ∨ rail = .atRecover →
        t.ssv.rail = rail ∧ t.ssv.st = .normal ∧ t.ssv.timerEnd = none ∧
          t.ssv.stable = (if rail = .atRecover then some 0 else none) ∧ t.chg.pause = ⟨false, false, false, false⟩ ∧
          ∀ c, chanGet t.adu c = off s false c)) ∧
  ∀ s : State, s.rst.active = true → s.rst.supplyLow = false → s.rst.lineLow = true →
    s.rst.cause = .line ∨ s.rst.cause = .request →
    let rail := s.ssv.rail
    ∃ t, exec .rstnHigh s = .next t ∧ t.now = 0 ∧ t.rst = ⟨false, false, false, s.rst.cause⟩ ∧ t.lnk = Lnk.reset ∧
      t.msu = Msu.reset ∧ t.csu = Csu.reset ∧ t.ctx = Ctx.reset ∧ t.cbf = Cbf.reset ∧ t.sdr = Sdr.reset ∧
      t.cwr = Cwr.reset s.cwr.cdet ∧ t.pending = s.pending ∧
      t.scn = { Scn.reset with
        slot1 := if s.ips.sel = some .aux then .aux else .usb
        battery := s.scn.battery
        batSides := s.scn.batSides
        batZone := s.scn.batZone } ∧
      t.ips = { Ips.reset with
        usb := ⟨s.ips.usb.present, 0, 0⟩
        aux := ⟨s.ips.aux.present, 0, 0⟩
        sel := s.ips.sel
        iEff := match s.ips.sel with
          | none => s.ips.iEff
          | some .usb => min s.ips.iEff 1500
          | some .aux => min s.ips.iEff 2000 } ∧
      t.chg = { Chg.reset with
        phase := if s.chg.latch = none then .noInput else .fault
        pause := ⟨s.scn.batZone == .cold, s.scn.batZone == .hot, false, decide (s.ssv.st ≠ .normal)⟩
        cycle := s.chg.cycle
        latch := s.chg.latch
        preTicks := s.chg.preTicks
        fastTicks := s.chg.fastTicks } ∧
      t.ssv.st = s.ssv.st ∧ t.ssv.rideMs = 8 ∧ t.ssv.budget = 48 ∧ t.ssv.close = none ∧
      t.ssv.timerEnd = (s.ssv.timerEnd.map fun e => if (s.now - e).toNat < 2147483648 then 0 else e - s.now) ∧
      (stands rail →
        t.ssv.rail = rail ∧ t.ssv.stable = if rail = .atRecover then some (s.ssv.stable.getD 0) else none) ∧
      ∀ c, chanGet t.adu c = off s (decide (s.ssv.st ≠ .normal)) c

/-! ## Laws of the device over every command -/

/-- R184, R187: no command leaves a request and a reply in the link together. -/
def Obligations.LinkLawIsKept : Prop :=
  ∀ (s t : State), LinkLaw s → step s = .next t → LinkLaw t

/-- Fifth law (R102, R110): no command leaves more IMPACT locks in the directory than the quota. -/
def Obligations.QuotaLawIsKept : Prop :=
  ∀ (s t : State), QuotaLaw s → step s = .next t → QuotaLaw t

/-- Eleventh law (R174): no command lets an emergency close spend more than its budget, or the reserve of the CLOSED
headers still to be begun. -/
def Obligations.BudgetLawIsKept : Prop :=
  ∀ (s t : State), BudgetLaw s → step s = .next t → BudgetLaw t

/-- R6, R7, R17, R55, R145, R155, R171 and R35, R74, R81, R90: every command keeps every setting in its range, and every
buffer, ring, list and history within its size. R113 to R115: it keeps the Queued fields in step with the header update
queue, which holds each slot at most once; R104, the fourth law: at most one slot OPEN and one CLOSING, both only in
ROLLING or an emergency close; R107, the seventh: the sequences distinct, the OPEN slot's the greatest. -/
def Obligations.SettingsAndSizesAreKept : Prop :=
  (∀ (s t : State), SettingsLaw s → step s = .next t → SettingsLaw t) ∧
    (∀ (s t : State), SizeLaw s → step s = .next t → SizeLaw t) ∧
    ∀ (s t : State), DirectoryLaw s → step s = .next t → DirectoryLaw t

/-- The laws hold right after a power-on reset (R52, R79, R103, R141, R148, R165, R201; the pins and the values without
effect stand as the model chose, log 12). -/
def Obligations.LawsHoldAfterReset : Prop :=
  LinkLaw State.reset ∧ StepLaw State.reset ∧ PathLaw State.reset ∧ QuotaLaw State.reset ∧ ChargeLaw State.reset ∧
    SupplyLaw State.reset ∧ BudgetLaw State.reset ∧ SizeLaw State.reset ∧ SettingsLaw State.reset ∧
    DirectoryLaw State.reset

/-- R98, R99, R205: a slot header written for an entry is 512 bytes, and a mount of the same region reads the entry
back from it: a CLOSED header as CLOSED with its reason (a code above 5 as none), an OPEN header as RECOVERED; a blank
header, and a header of another region, as FREE. R114: the header update of a slot without a reason, such as a
RECOVERED one, is a CLOSED header with reason code 0, and is read back as CLOSED with none. A header block whose CRC-32
is not its stored one, whose marker or region id is another, whose state code is neither 1 nor 2 (0 is BLANK), or whose
stream bytes or motion records exceed the region's areas, is read as FREE; any other gives its entry from the fields of
Figure 12.10. (The Header written field of what a mount reads is the model's choice, log 43; the lock byte's bits above
bit 1, not looked at, log 44; the First frame written without one, log 53.) -/
def Obligations.HeadersReadBack : Prop :=
  ∀ (g : Geometry) (e : Entry) (q r : Nat) (t : Word) (reason : CloseReason),
    e.sequence = some q → q < 4294967296 → e.recId = some r → r < 65536 → e.openTime = some t →
    e.streamBytes ≤ g.units * 65536 → e.streamBytes < 4294967296 → e.motionRecords ≤ 32 * g.motion →
    e.motionRecords < 4294967296 → e.motionDropped < 4294967296 → e.lostBytes < 4294967296 → e.impactCount < 256 →
    (closedHeader g.regionId (reasonCode reason) e).length = 512 ∧ (openHeader g.regionId e).length = 512 ∧
      classify g (closedHeader g.regionId (reasonCode reason) e) =
        { e with
          st := .closed
          headerWritten := false
          reason := if reasonCode reason ≤ 5 then some reason else none
          queued := false } ∧
      classify g (openHeader g.regionId e) =
        { e with st := .recovered, headerWritten := false, reason := none, queued := false } ∧
      (closedHeader g.regionId 0 e).length = 512 ∧
      classify g (closedHeader g.regionId 0 e) =
        { e with st := .closed, headerWritten := false, reason := none, queued := false } ∧
      (e.st = .closed ∨ e.st = .recovered → e.reason = none → updateHeader g e = closedHeader g.regionId 0 e) ∧
      (e.st = .closed → e.reason = some reason → updateHeader g e = closedHeader g.regionId (reasonCode reason) e) ∧
      (e.st = .opened → updateHeader g e = openHeader g.regionId e) ∧
      classify g (blankHeader g.regionId) = freeEntry ∧
      (∀ other : Word, other ≠ g.regionId →
        classify g (closedHeader other (reasonCode reason) e) = freeEntry ∧
          classify g (openHeader other e) = freeEntry) ∧
      (crc32 [0x31#8, 0x32#8, 0x33#8, 0x34#8, 0x35#8, 0x36#8, 0x37#8, 0x38#8, 0x39#8] = 0xCBF43926#32) ∧
      ∀ block : List Byte, block.length = 512 →
        let byte (k : Nat) : Nat := (block[k]?.getD 0#8).toNat
        let half (k : Nat) : Nat := byte k + 256 * byte (k + 1)
        let word (k : Nat) : Nat := half k + 65536 * half (k + 2)
        let locked (b : Nat) : Bool := byte 9 / 2 ^ b % 2 == 1
        let vouched : Prop := (crc32 (block.take 508)).toNat = word 508 ∧ word 0 = 0x4C485750 ∧
          word 4 = g.regionId.toNat ∧ (byte 8 = 1 ∨ byte 8 = 2) ∧ word 28 ≤ g.units * 65536 ∧ word 32 ≤ 32 * g.motion
        (¬ vouched → classify g block = freeEntry) ∧
          (vouched → classify g block =
            { st := if byte 8 = 2 then .closed else .recovered
              sequence := some (word 12)
              recId := some (half 16)
              locks := ⟨locked 0, locked 1⟩
              openTime := some (BitVec.ofNat 32 (word 20))
              headerWritten := false
              streamBytes := word 28
              motionRecords := word 32
              motionDropped := word 36
              lostBytes := word 40
              firstFrame := if byte 18 % 2 = 1 then some (BitVec.ofNat 32 (word 24)) else none
              impactCount := byte 11
              reason := if byte 8 = 2 then
                [CloseReason.full, .stop, .guard, .noSlot, .emergency][byte 10 - 1]?.filter fun _ => decide (byte 10 ≠ 0)
              else none
              queued := false })
end

