-- ==== Sys2Proof/Laws/State.lean ====
section
/-! SUPPORT. The fields of State after each update the shared operations make, true by `rfl`, so that no proof unfolds a
record update. -/

set_option linter.unusedTactic false
set_option linter.unnecessarySeqFocus false
set_option linter.unreachableTactic false

namespace Sys2Proof.Machine

/-! ## The queue -/

@[simp] theorem withPending_pending (s : State) (q : List Instr) : (s.withPending q).pending = q := rfl
@[simp] theorem withPending_now (s : State) (q : List Instr) : (s.withPending q).now = s.now := rfl
@[simp] theorem withPending_msu (s : State) (q : List Instr) : (s.withPending q).msu = s.msu := rfl
@[simp] theorem withPending_csu (s : State) (q : List Instr) : (s.withPending q).csu = s.csu := rfl
@[simp] theorem withPending_ctx (s : State) (q : List Instr) : (s.withPending q).ctx = s.ctx := rfl
@[simp] theorem withPending_adu (s : State) (q : List Instr) : (s.withPending q).adu = s.adu := rfl
@[simp] theorem withPending_scn (s : State) (q : List Instr) : (s.withPending q).scn = s.scn := rfl
@[simp] theorem withPending_cbf (s : State) (q : List Instr) : (s.withPending q).cbf = s.cbf := rfl
@[simp] theorem withPending_sdr (s : State) (q : List Instr) : (s.withPending q).sdr = s.sdr := rfl
@[simp] theorem withPending_cwr (s : State) (q : List Instr) : (s.withPending q).cwr = s.cwr := rfl
@[simp] theorem withPending_ips (s : State) (q : List Instr) : (s.withPending q).ips = s.ips := rfl
@[simp] theorem withPending_chg (s : State) (q : List Instr) : (s.withPending q).chg = s.chg := rfl
@[simp] theorem withPending_ssv (s : State) (q : List Instr) : (s.withPending q).ssv = s.ssv := rfl
@[simp] theorem withPending_lnk (s : State) (q : List Instr) : (s.withPending q).lnk = s.lnk := rfl
@[simp] theorem withPending_rst (s : State) (q : List Instr) : (s.withPending q).rst = s.rst := rfl

/-! ## The target voltage in use (R155, R157) -/

@[simp] theorem useTarget_chg (s : State) : (useTarget s).chg = { s.chg with targetInUse := s.chg.target } := rfl
@[simp] theorem enterPhase_chg (s : State) : (enterPhase s).chg = noticePhase s := rfl
@[simp] theorem clampCharge_targetInUse (a b c d : Half) (e : Bool) (g : Chg) :
    (clampCharge a b c d e g).targetInUse = g.targetInUse := rfl
/-- From the notice on, the effective target voltage is that of the stored setting. -/
theorem effTarget_useTarget (s : State) :
    effTarget (useTarget s) = if s.scn.batZone = .warm then s.chg.target - 100 else s.chg.target := rfl
/-- A notice leaves both target voltages as they are but for `useTarget`. -/
@[simp] theorem noticePhase_targets (s : State) :
    (noticePhase s).target = s.chg.target ∧ (noticePhase s).targetInUse = s.chg.targetInUse := by
  simp only [noticePhase, cyclePhase, newCycle, moveCycle, setCycle]
  (repeat' split) <;> exact ⟨rfl, rfl⟩
/-- CHARGE_SET leaves the target voltage in use (R155). -/
theorem applyCharge_targetInUse (enable : Bool) (a b c d : Half) (s : State) :
    (applyCharge enable a b c d s).chg.targetInUse = s.chg.targetInUse := by
  simp only [applyCharge, chargeDisable, chargeEvent, raise, lowerCommand]
  (repeat' split) <;> rfl

/-! ## The link -/

@[simp] theorem raise_lnk (d : Detail) (s : State) : (raise d s).lnk = raiseIn s.lnk d := rfl
@[simp] theorem answer_reply (k t : Byte) (st : Status) (d : List Byte) (s : State) :
    (answer k t st d s).lnk.reply = some ⟨k + 0x80#8, t, st, d⟩ := rfl
@[simp] theorem answer_lnk (k t : Byte) (st : Status) (d : List Byte) (s : State) :
    (answer k t st d s).lnk = { s.lnk with reply := some ⟨k + 0x80#8, t, st, d⟩ } := rfl
@[simp] theorem keepLanes_lnk (c : List LaneClock) (s : State) :
    (keepLanes c s).lnk = { s.lnk with lanes := c } := rfl
@[simp] theorem keepLanes_now (c : List LaneClock) (s : State) : (keepLanes c s).now = s.now := rfl
@[simp] theorem keepLanes_msu (c : List LaneClock) (s : State) : (keepLanes c s).msu = s.msu := rfl
@[simp] theorem keepLanes_csu (c : List LaneClock) (s : State) : (keepLanes c s).csu = s.csu := rfl
@[simp] theorem keepLanes_ctx (c : List LaneClock) (s : State) : (keepLanes c s).ctx = s.ctx := rfl
@[simp] theorem keepLanes_adu (c : List LaneClock) (s : State) : (keepLanes c s).adu = s.adu := rfl
@[simp] theorem keepLanes_scn (c : List LaneClock) (s : State) : (keepLanes c s).scn = s.scn := rfl
@[simp] theorem keepLanes_cbf (c : List LaneClock) (s : State) : (keepLanes c s).cbf = s.cbf := rfl
@[simp] theorem keepLanes_sdr (c : List LaneClock) (s : State) : (keepLanes c s).sdr = s.sdr := rfl
@[simp] theorem keepLanes_cwr (c : List LaneClock) (s : State) : (keepLanes c s).cwr = s.cwr := rfl
@[simp] theorem keepLanes_ips (c : List LaneClock) (s : State) : (keepLanes c s).ips = s.ips := rfl
@[simp] theorem keepLanes_chg (c : List LaneClock) (s : State) : (keepLanes c s).chg = s.chg := rfl
@[simp] theorem keepLanes_ssv (c : List LaneClock) (s : State) : (keepLanes c s).ssv = s.ssv := rfl
@[simp] theorem keepLanes_rst (c : List LaneClock) (s : State) : (keepLanes c s).rst = s.rst := rfl
@[simp] theorem keepLanes_pending (c : List LaneClock) (s : State) : (keepLanes c s).pending = s.pending := rfl
@[simp] theorem hold_lnk (h : Held) (s : State) : (hold h s).lnk = { s.lnk with req := some h } := rfl
@[simp] theorem endHold_lnk (h : Held) (st : Status) (d : List Byte) (s : State) :
    (endHold h st d s).lnk =
      { s.lnk with req := none, reply := some ⟨heldKind h + 0x80#8, heldTag h, st, d⟩ } := rfl

/-- An event touches the event set alone. -/
@[simp] theorem raiseIn_frame (l : Lnk) (d : Detail) :
    (raiseIn l d).req = l.req ∧ (raiseIn l d).reply = l.reply ∧ (raiseIn l d).refused = l.refused ∧
      (raiseIn l d).recordMask = l.recordMask ∧ (raiseIn l d).alertMask = l.alertMask ∧
      (raiseIn l d).guard = l.guard ∧ (raiseIn l d).trip = l.trip ∧ (raiseIn l d).quiet = l.quiet ∧
      (raiseIn l d).window = l.window ∧ (raiseIn l d).guardEnd = l.guardEnd ∧
      (raiseIn l d).resetTaken = l.resetTaken ∧ (raiseIn l d).lanes = l.lanes := by
  simp only [raiseIn]; split <;> simp

/-! ## Channels -/

@[simp] theorem putChan_adu (c : Chan) (ch : Channel) (s : State) : (putChan c ch s).adu = chanSet s.adu c ch := rfl

@[simp] theorem chanGet_set {α : Type} (t : PerChan α) (c : Chan) (x : α) : chanGet (chanSet t c x) c = x := by
  cases c <;> rfl

@[simp] theorem chanGet_set_ne {α : Type} (t : PerChan α) {c d : Chan} (x : α) (h : d ≠ c) :
    chanGet (chanSet t c x) d = chanGet t d := by
  cases c <;> cases d <;> simp_all [chanGet, chanSet]

@[simp] theorem setStep_step (c : Chan) (v a : Int) (s : State) : (setStep c v a s).csu.step = chanSet s.csu.step c v :=
  rfl
@[simp] theorem setStep_absorbed (c : Chan) (v a : Int) (s : State) :
    (setStep c v a s).csu.absorbed = chanSet s.csu.absorbed c a := rfl
@[simp] theorem setStep_adu (c : Chan) (v a : Int) (s : State) :
    (setStep c v a s).adu = chanSet s.adu c (handStep v (chanGet s.adu c)) := rfl

/-- A step handed to a channel never changes its state. -/
@[simp] theorem handStep_st (v : Int) (ch : Channel) : (handStep v ch).st = ch.st := by
  simp only [handStep]; split <;> rfl

/-- A step handed to a channel never changes its park-reason set. -/
@[simp] theorem handStep_park (v : Int) (ch : Channel) : (handStep v ch).park = ch.park := by
  simp only [handStep]; split <;> rfl

/-! ## The card -/

@[simp] theorem setPort_port (t : Option Transfer) (s : State) : (setPort t s).cwr.port = t := rfl
@[simp] theorem setWriter_writer (w : Writer) (s : State) : (setWriter w s).cwr.writer = w := rfl
@[simp] theorem discardDirectory_sdr (s : State) : (discardDirectory s).sdr = Sdr.reset := rfl
@[simp] theorem discardBuffer_cbf (s : State) : (discardBuffer s).cbf = Cbf.reset := rfl
@[simp] theorem giveUpCard_writer (w : Writer) (s : State) : (giveUpCard w s).cwr.writer = w := rfl
@[simp] theorem giveUpCard_port (w : Writer) (s : State) : (giveUpCard w s).cwr.port = none := rfl
@[simp] theorem giveUpCard_close (w : Writer) (s : State) : (giveUpCard w s).ssv.close = none := rfl
@[simp] theorem giveUpCard_cbf (w : Writer) (s : State) : (giveUpCard w s).cbf = Cbf.reset := rfl
@[simp] theorem giveUpCard_entries (w : Writer) (s : State) : (giveUpCard w s).sdr.entries = [] := rfl

/-! ## The motion sampling unit -/

/-- Emptying the stillness window touches its count and sums alone. -/
@[simp] theorem emptyWindow_frame (m : Msu) :
    (emptyWindow m).stab = m.stab ∧ (emptyWindow m).angle = m.angle ∧ (emptyWindow m).path = m.path ∧
      (emptyWindow m).fault = m.fault ∧ (emptyWindow m).bias = m.bias ∧ (emptyWindow m).read = m.read ∧
      (emptyWindow m).imp = m.imp ∧
      (emptyWindow m).tickBias = m.tickBias ∧ (emptyWindow m).tickImp = m.tickImp ∧ (emptyWindow m).last = m.last ∧
      (emptyWindow m).missing = m.missing ∧
      (emptyWindow m).goodRun = m.goodRun ∧ (emptyWindow m).rearmEnd = m.rearmEnd ∧
      (emptyWindow m).parkEnd = m.parkEnd := by
  simp [emptyWindow]

/-- The re-arm hold touches the qualifying count, its peak and its own end alone. -/
@[simp] theorem holdRearm_frame (m : Msu) (now : Word) :
    (holdRearm m now).stab = m.stab ∧ (holdRearm m now).angle = m.angle ∧ (holdRearm m now).path = m.path ∧
      (holdRearm m now).fault = m.fault ∧ (holdRearm m now).bias = m.bias ∧ (holdRearm m now).read = m.read ∧
      (holdRearm m now).imp = m.imp ∧
      (holdRearm m now).tickBias = m.tickBias ∧ (holdRearm m now).tickImp = m.tickImp ∧
      (holdRearm m now).missing = m.missing ∧
      (holdRearm m now).goodRun = m.goodRun ∧ (holdRearm m now).parkEnd = m.parkEnd := by
  simp [holdRearm]

/-- Counting towards an impact touches the qualifying count and its peak alone. -/
@[simp] theorem countImpact_frame (m : Msu) :
    (countImpact m).stab = m.stab ∧ (countImpact m).bias = m.bias ∧ (countImpact m).read = m.read ∧
      (countImpact m).imp = m.imp ∧
      (countImpact m).tickBias = m.tickBias ∧ (countImpact m).tickImp = m.tickImp ∧
      (countImpact m).learn = m.learn ∧ (countImpact m).still = m.still ∧
      (countImpact m).rearmEnd = m.rearmEnd ∧ (countImpact m).parkEnd = m.parkEnd ∧
      (countImpact m).angle = m.angle ∧ (countImpact m).path = m.path ∧ (countImpact m).fault = m.fault ∧
      (countImpact m).last = m.last ∧ (countImpact m).missing = m.missing ∧ (countImpact m).goodRun = m.goodRun ∧
      (countImpact m).winCount = m.winCount ∧ (countImpact m).winSum = m.winSum := by
  simp only [countImpact]; (repeat' split) <;> simp

/-- The stillness window of a tick touches its count and sums alone. -/
@[simp] theorem windowStep_frame (m : Msu) :
    (windowStep m).stab = m.stab ∧ (windowStep m).bias = m.bias ∧ (windowStep m).read = m.read ∧
      (windowStep m).imp = m.imp ∧
      (windowStep m).tickBias = m.tickBias ∧ (windowStep m).tickImp = m.tickImp ∧ (windowStep m).learn = m.learn ∧
      (windowStep m).still = m.still ∧
      (windowStep m).rearmEnd = m.rearmEnd ∧ (windowStep m).parkEnd = m.parkEnd ∧
      (windowStep m).angle = m.angle ∧ (windowStep m).path = m.path ∧ (windowStep m).fault = m.fault ∧
      (windowStep m).last = m.last ∧ (windowStep m).missing = m.missing ∧ (windowStep m).goodRun = m.goodRun ∧
      (windowStep m).qCount = m.qCount ∧ (windowStep m).qPeak = m.qPeak := by
  simp only [windowStep, addStill, emptyWindow]; (repeat' split) <;> simp

/-- Counting a sample touches the last good values, the counters and the fault alone. -/
@[simp] theorem countSample_frame (m : Msu) :
    (countSample m).stab = m.stab ∧ (countSample m).bias = m.bias ∧ (countSample m).read = m.read ∧
      (countSample m).imp = m.imp ∧
      (countSample m).tickBias = m.tickBias ∧ (countSample m).tickImp = m.tickImp ∧
      (countSample m).learn = m.learn ∧ (countSample m).still = m.still ∧
      (countSample m).rearmEnd = m.rearmEnd ∧ (countSample m).parkEnd = m.parkEnd ∧
      (countSample m).angle = m.angle ∧ (countSample m).path = m.path ∧ (countSample m).winCount = m.winCount ∧
      (countSample m).winSum = m.winSum ∧ (countSample m).qCount = m.qCount ∧
      (countSample m).qPeak = m.qPeak := by
  simp only [countSample]; (repeat' split) <;> simp

/-- Integration touches A and P alone. -/
@[simp] theorem integrateAll_frame (r : PerAxis Int) (m : Msu) :
    (integrateAll r m).stab = m.stab ∧ (integrateAll r m).bias = m.bias ∧ (integrateAll r m).read = m.read ∧
      (integrateAll r m).imp = m.imp ∧
      (integrateAll r m).tickBias = m.tickBias ∧ (integrateAll r m).tickImp = m.tickImp ∧
      (integrateAll r m).learn = m.learn ∧ (integrateAll r m).still = m.still ∧
      (integrateAll r m).rearmEnd = m.rearmEnd ∧ (integrateAll r m).parkEnd = m.parkEnd ∧
      (integrateAll r m).fault = m.fault ∧ (integrateAll r m).last = m.last ∧
      (integrateAll r m).missing = m.missing ∧ (integrateAll r m).goodRun = m.goodRun ∧
      (integrateAll r m).winCount = m.winCount ∧ (integrateAll r m).winSum = m.winSum ∧
      (integrateAll r m).qCount = m.qCount ∧ (integrateAll r m).qPeak = m.qPeak := by
  simp [integrateAll]

/-- The path step touches P alone. -/
@[simp] theorem pathStep_frame (f : Option CtxFields) (b : Bool) (m : Msu) :
    ((pathStep f b m).1).stab = m.stab ∧ ((pathStep f b m).1).bias = m.bias ∧
      ((pathStep f b m).1).read = m.read ∧ ((pathStep f b m).1).imp = m.imp ∧
      ((pathStep f b m).1).tickBias = m.tickBias ∧ ((pathStep f b m).1).tickImp = m.tickImp ∧
      ((pathStep f b m).1).learn = m.learn ∧ ((pathStep f b m).1).still = m.still ∧
      ((pathStep f b m).1).rearmEnd = m.rearmEnd ∧ ((pathStep f b m).1).parkEnd = m.parkEnd ∧
      ((pathStep f b m).1).angle = m.angle ∧ ((pathStep f b m).1).fault = m.fault ∧
      ((pathStep f b m).1).last = m.last ∧ ((pathStep f b m).1).missing = m.missing ∧
      ((pathStep f b m).1).goodRun = m.goodRun ∧ ((pathStep f b m).1).winCount = m.winCount ∧
      ((pathStep f b m).1).winSum = m.winSum ∧ ((pathStep f b m).1).qCount = m.qCount ∧
      ((pathStep f b m).1).qPeak = m.qPeak := by
  simp only [pathStep]; (repeat' split) <;> simp

/-- A tick's arithmetic leaves the settings, the bias, the stabilization state and the read as they are. -/
@[simp] theorem tickMsu_frame (f : Option CtxFields) (m : Msu) :
    ((tickMsu f m).1).stab = m.stab ∧ ((tickMsu f m).1).bias = m.bias ∧ ((tickMsu f m).1).read = m.read ∧
      ((tickMsu f m).1).imp = m.imp ∧
      ((tickMsu f m).1).tickBias = m.tickBias ∧ ((tickMsu f m).1).tickImp = m.tickImp ∧
      ((tickMsu f m).1).learn = m.learn ∧ ((tickMsu f m).1).still = m.still ∧
      ((tickMsu f m).1).rearmEnd = m.rearmEnd ∧ ((tickMsu f m).1).parkEnd = m.parkEnd := by
  simp [tickMsu]

/-! ## Supply and guard -/

@[simp] theorem setRail_ssv (r : Rail) (t : Option Nat) (s : State) :
    (setRail r t s).ssv = { s.ssv with rail := r, stable := t } := rfl
@[simp] theorem setGuard_lnk (g : Guard) (t : Option Trip) (e : Option Word) (s : State) :
    (setGuard g t e s).lnk = { s.lnk with guard := g, trip := t, guardEnd := e } := rfl

end Sys2Proof.Machine
end

