-- ==== Sys2Proof/Laws/Frames1.lean ====
section
/-! SUPPORT. What each shared operation leaves unchanged: one lemma an operation (blocks 1 to 9), for `simp`. -/

set_option linter.unusedTactic false
set_option linter.unnecessarySeqFocus false
set_option linter.unreachableTactic false

namespace Sys2Proof.Machine

@[simp] theorem raise_frame (d : Detail) (s : State) :
    (raise d s).now = s.now ∧ (raise d s).msu = s.msu ∧ (raise d s).csu = s.csu ∧ (raise d s).ctx = s.ctx ∧
      (raise d s).adu = s.adu ∧ (raise d s).scn = s.scn ∧ (raise d s).cbf = s.cbf ∧ (raise d s).sdr = s.sdr ∧
      (raise d s).cwr = s.cwr ∧ (raise d s).ips = s.ips ∧ (raise d s).chg = s.chg ∧ (raise d s).ssv = s.ssv ∧
      (raise d s).lnk.req = s.lnk.req ∧ (raise d s).lnk.reply = s.lnk.reply ∧
      (raise d s).lnk.refused = s.lnk.refused ∧ (raise d s).lnk.recordMask = s.lnk.recordMask ∧
      (raise d s).lnk.alertMask = s.lnk.alertMask ∧ (raise d s).lnk.guard = s.lnk.guard ∧
      (raise d s).lnk.resetTaken = s.lnk.resetTaken ∧ (raise d s).rst = s.rst ∧
      (raise d s).pending = s.pending := by
  simp only [raise]; (repeat' split) <;> simp

@[simp] theorem answer_frame (kind tag : Byte) (status : Status) (data : List Byte) (s : State) :
    (answer kind tag status data s).now = s.now ∧ (answer kind tag status data s).msu = s.msu ∧
      (answer kind tag status data s).csu = s.csu ∧ (answer kind tag status data s).ctx = s.ctx ∧
      (answer kind tag status data s).adu = s.adu ∧ (answer kind tag status data s).scn = s.scn ∧
      (answer kind tag status data s).cbf = s.cbf ∧ (answer kind tag status data s).sdr = s.sdr ∧
      (answer kind tag status data s).cwr = s.cwr ∧ (answer kind tag status data s).ips = s.ips ∧
      (answer kind tag status data s).chg = s.chg ∧ (answer kind tag status data s).ssv = s.ssv ∧
      (answer kind tag status data s).lnk.req = s.lnk.req ∧
      (answer kind tag status data s).lnk.refused = s.lnk.refused ∧
      (answer kind tag status data s).lnk.events = s.lnk.events ∧
      (answer kind tag status data s).lnk.recordMask = s.lnk.recordMask ∧
      (answer kind tag status data s).lnk.alertMask = s.lnk.alertMask ∧
      (answer kind tag status data s).lnk.guard = s.lnk.guard ∧
      (answer kind tag status data s).lnk.resetTaken = s.lnk.resetTaken ∧
      (answer kind tag status data s).rst = s.rst ∧ (answer kind tag status data s).pending = s.pending := by
  simp only [answer]; (repeat' split) <;> simp

@[simp] theorem hold_frame (h : Held) (s : State) :
    (hold h s).now = s.now ∧ (hold h s).msu = s.msu ∧ (hold h s).csu = s.csu ∧ (hold h s).ctx = s.ctx ∧
      (hold h s).adu = s.adu ∧ (hold h s).scn = s.scn ∧ (hold h s).cbf = s.cbf ∧ (hold h s).sdr = s.sdr ∧
      (hold h s).cwr = s.cwr ∧ (hold h s).ips = s.ips ∧ (hold h s).chg = s.chg ∧ (hold h s).ssv = s.ssv ∧
      (hold h s).lnk.reply = s.lnk.reply ∧ (hold h s).lnk.refused = s.lnk.refused ∧
      (hold h s).lnk.events = s.lnk.events ∧ (hold h s).lnk.recordMask = s.lnk.recordMask ∧
      (hold h s).lnk.alertMask = s.lnk.alertMask ∧ (hold h s).lnk.guard = s.lnk.guard ∧
      (hold h s).lnk.resetTaken = s.lnk.resetTaken ∧ (hold h s).rst = s.rst ∧ (hold h s).pending = s.pending := by
  simp only [hold]; (repeat' split) <;> simp

@[simp] theorem endHold_frame (h : Held) (status : Status) (data : List Byte) (s : State) :
    (endHold h status data s).now = s.now ∧ (endHold h status data s).msu = s.msu ∧
      (endHold h status data s).csu = s.csu ∧ (endHold h status data s).ctx = s.ctx ∧
      (endHold h status data s).adu = s.adu ∧ (endHold h status data s).scn = s.scn ∧
      (endHold h status data s).cbf = s.cbf ∧ (endHold h status data s).sdr = s.sdr ∧
      (endHold h status data s).cwr = s.cwr ∧ (endHold h status data s).ips = s.ips ∧
      (endHold h status data s).chg = s.chg ∧ (endHold h status data s).ssv = s.ssv ∧
      (endHold h status data s).lnk.refused = s.lnk.refused ∧ (endHold h status data s).lnk.events = s.lnk.events ∧
      (endHold h status data s).lnk.recordMask = s.lnk.recordMask ∧
      (endHold h status data s).lnk.alertMask = s.lnk.alertMask ∧
      (endHold h status data s).lnk.guard = s.lnk.guard ∧
      (endHold h status data s).lnk.resetTaken = s.lnk.resetTaken ∧ (endHold h status data s).rst = s.rst ∧
      (endHold h status data s).pending = s.pending := by
  simp only [endHold]; (repeat' split) <;> simp

@[simp] theorem endUnmount_frame (status : Status) (s : State) :
    (endUnmount status s).now = s.now ∧ (endUnmount status s).msu = s.msu ∧ (endUnmount status s).csu = s.csu ∧
      (endUnmount status s).ctx = s.ctx ∧ (endUnmount status s).adu = s.adu ∧ (endUnmount status s).scn = s.scn ∧
      (endUnmount status s).cbf = s.cbf ∧ (endUnmount status s).sdr = s.sdr ∧ (endUnmount status s).cwr = s.cwr ∧
      (endUnmount status s).ips = s.ips ∧ (endUnmount status s).chg = s.chg ∧ (endUnmount status s).ssv = s.ssv ∧
      (endUnmount status s).lnk.refused = s.lnk.refused ∧ (endUnmount status s).lnk.events = s.lnk.events ∧
      (endUnmount status s).lnk.recordMask = s.lnk.recordMask ∧
      (endUnmount status s).lnk.alertMask = s.lnk.alertMask ∧ (endUnmount status s).lnk.guard = s.lnk.guard ∧
      (endUnmount status s).lnk.resetTaken = s.lnk.resetTaken ∧ (endUnmount status s).rst = s.rst ∧
      (endUnmount status s).pending = s.pending := by
  simp only [endUnmount]; (repeat' split) <;> simp

@[simp] theorem endMotionRead_frame (status : Status) (s : State) :
    (endMotionRead status s).now = s.now ∧ (endMotionRead status s).msu = s.msu ∧
      (endMotionRead status s).csu = s.csu ∧ (endMotionRead status s).ctx = s.ctx ∧
      (endMotionRead status s).adu = s.adu ∧ (endMotionRead status s).scn = s.scn ∧
      (endMotionRead status s).cbf = s.cbf ∧ (endMotionRead status s).sdr = s.sdr ∧
      (endMotionRead status s).cwr.writer = s.cwr.writer ∧ (endMotionRead status s).cwr.recId = s.cwr.recId ∧
      (endMotionRead status s).cwr.cursor = s.cwr.cursor ∧ (endMotionRead status s).cwr.present = s.cwr.present ∧
      (endMotionRead status s).cwr.cdet = s.cwr.cdet ∧ (endMotionRead status s).ips = s.ips ∧
      (endMotionRead status s).chg = s.chg ∧ (endMotionRead status s).ssv = s.ssv ∧
      (endMotionRead status s).lnk.refused = s.lnk.refused ∧ (endMotionRead status s).lnk.events = s.lnk.events ∧
      (endMotionRead status s).lnk.recordMask = s.lnk.recordMask ∧
      (endMotionRead status s).lnk.alertMask = s.lnk.alertMask ∧ (endMotionRead status s).lnk.guard = s.lnk.guard ∧
      (endMotionRead status s).lnk.resetTaken = s.lnk.resetTaken ∧ (endMotionRead status s).rst = s.rst ∧
      (endMotionRead status s).pending = s.pending := by
  simp only [endMotionRead]; (repeat' split) <;> simp

@[simp] theorem endFrameGet_frame (status : Status) (s : State) :
    (endFrameGet status s).now = s.now ∧ (endFrameGet status s).msu = s.msu ∧ (endFrameGet status s).csu = s.csu ∧
      (endFrameGet status s).ctx = s.ctx ∧ (endFrameGet status s).adu = s.adu ∧
      (endFrameGet status s).scn = s.scn ∧ (endFrameGet status s).cbf = s.cbf ∧
      (endFrameGet status s).sdr = s.sdr ∧ (endFrameGet status s).cwr = s.cwr ∧
      (endFrameGet status s).ips = s.ips ∧ (endFrameGet status s).chg = s.chg ∧
      (endFrameGet status s).ssv = s.ssv ∧ (endFrameGet status s).lnk.refused = s.lnk.refused ∧
      (endFrameGet status s).lnk.events = s.lnk.events ∧ (endFrameGet status s).lnk.recordMask = s.lnk.recordMask ∧
      (endFrameGet status s).lnk.alertMask = s.lnk.alertMask ∧ (endFrameGet status s).lnk.guard = s.lnk.guard ∧
      (endFrameGet status s).lnk.resetTaken = s.lnk.resetTaken ∧ (endFrameGet status s).rst = s.rst ∧
      (endFrameGet status s).pending = s.pending := by
  simp only [endFrameGet]; (repeat' split) <;> simp

@[simp] theorem setStep_frame (c : Chan) (step absorbed : Int) (s : State) :
    (setStep c step absorbed s).now = s.now ∧ (setStep c step absorbed s).msu = s.msu ∧
      (setStep c step absorbed s).csu.offset = s.csu.offset ∧ (setStep c step absorbed s).csu.frame = s.csu.frame ∧
      (setStep c step absorbed s).csu.sample = s.csu.sample ∧
      (setStep c step absorbed s).csu.carried = s.csu.carried ∧ (setStep c step absorbed s).csu.ring = s.csu.ring ∧
      (setStep c step absorbed s).ctx = s.ctx ∧ (setStep c step absorbed s).scn = s.scn ∧
      (setStep c step absorbed s).cbf = s.cbf ∧ (setStep c step absorbed s).sdr = s.sdr ∧
      (setStep c step absorbed s).cwr = s.cwr ∧ (setStep c step absorbed s).ips = s.ips ∧
      (setStep c step absorbed s).chg = s.chg ∧ (setStep c step absorbed s).ssv = s.ssv ∧
      (setStep c step absorbed s).lnk = s.lnk ∧ (setStep c step absorbed s).rst = s.rst ∧
      (setStep c step absorbed s).pending = s.pending := by
  simp only [setStep]; (repeat' split) <;> simp

@[simp] theorem zeroStep_frame (c : Chan) (s : State) :
    (zeroStep c s).now = s.now ∧ (zeroStep c s).msu = s.msu ∧ (zeroStep c s).csu.offset = s.csu.offset ∧
      (zeroStep c s).csu.frame = s.csu.frame ∧ (zeroStep c s).csu.sample = s.csu.sample ∧
      (zeroStep c s).csu.carried = s.csu.carried ∧ (zeroStep c s).csu.ring = s.csu.ring ∧
      (zeroStep c s).ctx = s.ctx ∧ (zeroStep c s).scn = s.scn ∧ (zeroStep c s).cbf = s.cbf ∧
      (zeroStep c s).sdr = s.sdr ∧ (zeroStep c s).cwr = s.cwr ∧ (zeroStep c s).ips = s.ips ∧
      (zeroStep c s).chg = s.chg ∧ (zeroStep c s).ssv = s.ssv ∧ (zeroStep c s).lnk = s.lnk ∧
      (zeroStep c s).rst = s.rst ∧ (zeroStep c s).pending = s.pending := by
  simp only [zeroStep]; (repeat' split) <;> simp

@[simp] theorem zeroSteps_frame (s : State) :
    (zeroSteps s).now = s.now ∧ (zeroSteps s).msu = s.msu ∧ (zeroSteps s).csu.offset = s.csu.offset ∧
      (zeroSteps s).csu.frame = s.csu.frame ∧ (zeroSteps s).csu.sample = s.csu.sample ∧
      (zeroSteps s).csu.carried = s.csu.carried ∧ (zeroSteps s).csu.ring = s.csu.ring ∧ (zeroSteps s).ctx = s.ctx ∧
      (zeroSteps s).scn = s.scn ∧ (zeroSteps s).cbf = s.cbf ∧ (zeroSteps s).sdr = s.sdr ∧
      (zeroSteps s).cwr = s.cwr ∧ (zeroSteps s).ips = s.ips ∧ (zeroSteps s).chg = s.chg ∧
      (zeroSteps s).ssv = s.ssv ∧ (zeroSteps s).lnk = s.lnk ∧ (zeroSteps s).rst = s.rst ∧
      (zeroSteps s).pending = s.pending := by
  simp only [zeroSteps]; (repeat' split) <;> simp

@[simp] theorem splitChan_frame (r : PerAxis Int) (c : Chan) (s : State) :
    (splitChan r c s).now = s.now ∧ (splitChan r c s).msu = s.msu ∧ (splitChan r c s).csu.offset = s.csu.offset ∧
      (splitChan r c s).csu.frame = s.csu.frame ∧ (splitChan r c s).csu.sample = s.csu.sample ∧
      (splitChan r c s).csu.carried = s.csu.carried ∧ (splitChan r c s).csu.ring = s.csu.ring ∧
      (splitChan r c s).ctx = s.ctx ∧ (splitChan r c s).scn = s.scn ∧ (splitChan r c s).cbf = s.cbf ∧
      (splitChan r c s).sdr = s.sdr ∧ (splitChan r c s).cwr = s.cwr ∧ (splitChan r c s).ips = s.ips ∧
      (splitChan r c s).chg = s.chg ∧ (splitChan r c s).ssv = s.ssv ∧ (splitChan r c s).lnk = s.lnk ∧
      (splitChan r c s).rst = s.rst ∧ (splitChan r c s).pending = s.pending := by
  simp only [splitChan]; (repeat' split) <;> simp

@[simp] theorem splitTick_frame (r : PerAxis Int) (s : State) :
    (splitTick r s).now = s.now ∧ (splitTick r s).msu = s.msu ∧ (splitTick r s).csu.offset = s.csu.offset ∧
      (splitTick r s).csu.frame = s.csu.frame ∧ (splitTick r s).csu.sample = s.csu.sample ∧
      (splitTick r s).csu.carried = s.csu.carried ∧ (splitTick r s).csu.ring = s.csu.ring ∧
      (splitTick r s).ctx = s.ctx ∧ (splitTick r s).scn = s.scn ∧ (splitTick r s).cbf = s.cbf ∧
      (splitTick r s).sdr = s.sdr ∧ (splitTick r s).cwr = s.cwr ∧ (splitTick r s).ips = s.ips ∧
      (splitTick r s).chg = s.chg ∧ (splitTick r s).ssv = s.ssv ∧ (splitTick r s).lnk = s.lnk ∧
      (splitTick r s).rst = s.rst ∧ (splitTick r s).pending = s.pending := by
  simp only [splitTick]; (repeat' split) <;> simp

@[simp] theorem recommitChan_frame (f : CtxFields) (c : Chan) (s : State) :
    (recommitChan f c s).now = s.now ∧ (recommitChan f c s).msu = s.msu ∧
      (recommitChan f c s).csu.offset = s.csu.offset ∧ (recommitChan f c s).csu.frame = s.csu.frame ∧
      (recommitChan f c s).csu.sample = s.csu.sample ∧ (recommitChan f c s).csu.carried = s.csu.carried ∧
      (recommitChan f c s).csu.ring = s.csu.ring ∧ (recommitChan f c s).ctx = s.ctx ∧
      (recommitChan f c s).scn = s.scn ∧ (recommitChan f c s).cbf = s.cbf ∧ (recommitChan f c s).sdr = s.sdr ∧
      (recommitChan f c s).cwr = s.cwr ∧ (recommitChan f c s).ips = s.ips ∧ (recommitChan f c s).chg = s.chg ∧
      (recommitChan f c s).ssv = s.ssv ∧ (recommitChan f c s).lnk = s.lnk ∧ (recommitChan f c s).rst = s.rst ∧
      (recommitChan f c s).pending = s.pending := by
  simp only [recommitChan]; (repeat' split) <;> simp

@[simp] theorem recommitSteps_frame (f : CtxFields) (s : State) :
    (recommitSteps f s).now = s.now ∧ (recommitSteps f s).msu = s.msu ∧
      (recommitSteps f s).csu.offset = s.csu.offset ∧ (recommitSteps f s).csu.frame = s.csu.frame ∧
      (recommitSteps f s).csu.sample = s.csu.sample ∧ (recommitSteps f s).csu.carried = s.csu.carried ∧
      (recommitSteps f s).csu.ring = s.csu.ring ∧ (recommitSteps f s).ctx = s.ctx ∧
      (recommitSteps f s).scn = s.scn ∧ (recommitSteps f s).cbf = s.cbf ∧ (recommitSteps f s).sdr = s.sdr ∧
      (recommitSteps f s).cwr = s.cwr ∧ (recommitSteps f s).ips = s.ips ∧ (recommitSteps f s).chg = s.chg ∧
      (recommitSteps f s).ssv = s.ssv ∧ (recommitSteps f s).lnk = s.lnk ∧ (recommitSteps f s).rst = s.rst ∧
      (recommitSteps f s).pending = s.pending := by
  simp only [recommitSteps]; (repeat' split) <;> simp

@[simp] theorem carry_frame (c : Carried) (s : State) :
    (carry c s).now = s.now ∧ (carry c s).msu = s.msu ∧ (carry c s).csu.step = s.csu.step ∧
      (carry c s).csu.offset = s.csu.offset ∧ (carry c s).csu.frame = s.csu.frame ∧
      (carry c s).csu.sample = s.csu.sample ∧ (carry c s).csu.ring = s.csu.ring ∧ (carry c s).ctx = s.ctx ∧
      (carry c s).adu = s.adu ∧ (carry c s).scn = s.scn ∧ (carry c s).cbf = s.cbf ∧ (carry c s).sdr = s.sdr ∧
      (carry c s).cwr = s.cwr ∧ (carry c s).ips = s.ips ∧ (carry c s).chg = s.chg ∧ (carry c s).ssv = s.ssv ∧
      (carry c s).lnk = s.lnk ∧ (carry c s).rst = s.rst ∧ (carry c s).pending = s.pending := by
  simp only [carry]; (repeat' split) <;> simp

@[simp] theorem putChan_frame (c : Chan) (ch : Channel) (s : State) :
    (putChan c ch s).now = s.now ∧ (putChan c ch s).msu = s.msu ∧ (putChan c ch s).csu = s.csu ∧
      (putChan c ch s).ctx = s.ctx ∧ (putChan c ch s).scn = s.scn ∧ (putChan c ch s).cbf = s.cbf ∧
      (putChan c ch s).sdr = s.sdr ∧ (putChan c ch s).cwr = s.cwr ∧ (putChan c ch s).ips = s.ips ∧
      (putChan c ch s).chg = s.chg ∧ (putChan c ch s).ssv = s.ssv ∧ (putChan c ch s).lnk = s.lnk ∧
      (putChan c ch s).rst = s.rst ∧ (putChan c ch s).pending = s.pending := by
  simp only [putChan]; (repeat' split) <;> simp

@[simp] theorem moveChannel_frame (c : Chan) (ch : Channel) (s : State) :
    (moveChannel c ch s).now = s.now ∧ (moveChannel c ch s).msu = s.msu ∧
      (moveChannel c ch s).csu.offset = s.csu.offset ∧ (moveChannel c ch s).csu.frame = s.csu.frame ∧
      (moveChannel c ch s).csu.sample = s.csu.sample ∧ (moveChannel c ch s).csu.carried = s.csu.carried ∧
      (moveChannel c ch s).csu.ring = s.csu.ring ∧ (moveChannel c ch s).ctx = s.ctx ∧
      (moveChannel c ch s).scn = s.scn ∧ (moveChannel c ch s).cbf = s.cbf ∧ (moveChannel c ch s).sdr = s.sdr ∧
      (moveChannel c ch s).cwr = s.cwr ∧ (moveChannel c ch s).ips = s.ips ∧ (moveChannel c ch s).chg = s.chg ∧
      (moveChannel c ch s).ssv = s.ssv ∧ (moveChannel c ch s).lnk = s.lnk ∧ (moveChannel c ch s).rst = s.rst ∧
      (moveChannel c ch s).pending = s.pending := by
  simp only [moveChannel]; (repeat' split) <;> simp

@[simp] theorem addPark_frame (r : ParkReason) (c : Chan) (s : State) :
    (addPark r c s).now = s.now ∧ (addPark r c s).msu = s.msu ∧ (addPark r c s).csu.offset = s.csu.offset ∧
      (addPark r c s).csu.frame = s.csu.frame ∧ (addPark r c s).csu.sample = s.csu.sample ∧
      (addPark r c s).csu.carried = s.csu.carried ∧ (addPark r c s).csu.ring = s.csu.ring ∧
      (addPark r c s).ctx = s.ctx ∧ (addPark r c s).scn = s.scn ∧ (addPark r c s).cbf = s.cbf ∧
      (addPark r c s).sdr = s.sdr ∧ (addPark r c s).cwr = s.cwr ∧ (addPark r c s).ips = s.ips ∧
      (addPark r c s).chg = s.chg ∧ (addPark r c s).ssv = s.ssv ∧ (addPark r c s).lnk = s.lnk ∧
      (addPark r c s).rst = s.rst ∧ (addPark r c s).pending = s.pending := by
  simp only [addPark]; (repeat' split) <;> simp

@[simp] theorem removePark_frame (r : ParkReason) (c : Chan) (s : State) :
    (removePark r c s).now = s.now ∧ (removePark r c s).msu = s.msu ∧ (removePark r c s).csu = s.csu ∧
      (removePark r c s).ctx = s.ctx ∧ (removePark r c s).scn = s.scn ∧ (removePark r c s).cbf = s.cbf ∧
      (removePark r c s).sdr = s.sdr ∧ (removePark r c s).cwr = s.cwr ∧ (removePark r c s).ips = s.ips ∧
      (removePark r c s).chg = s.chg ∧ (removePark r c s).ssv = s.ssv ∧ (removePark r c s).lnk = s.lnk ∧
      (removePark r c s).rst = s.rst ∧ (removePark r c s).pending = s.pending := by
  simp only [removePark]; (repeat' split) <;> simp

@[simp] theorem addParkAll_frame (r : ParkReason) (s : State) :
    (addParkAll r s).now = s.now ∧ (addParkAll r s).msu = s.msu ∧ (addParkAll r s).csu.offset = s.csu.offset ∧
      (addParkAll r s).csu.frame = s.csu.frame ∧ (addParkAll r s).csu.sample = s.csu.sample ∧
      (addParkAll r s).csu.carried = s.csu.carried ∧ (addParkAll r s).csu.ring = s.csu.ring ∧
      (addParkAll r s).ctx = s.ctx ∧ (addParkAll r s).scn = s.scn ∧ (addParkAll r s).cbf = s.cbf ∧
      (addParkAll r s).sdr = s.sdr ∧ (addParkAll r s).cwr = s.cwr ∧ (addParkAll r s).ips = s.ips ∧
      (addParkAll r s).chg = s.chg ∧ (addParkAll r s).ssv = s.ssv ∧ (addParkAll r s).lnk = s.lnk ∧
      (addParkAll r s).rst = s.rst ∧ (addParkAll r s).pending = s.pending := by
  simp only [addParkAll]; (repeat' split) <;> simp

@[simp] theorem removeParkAll_frame (r : ParkReason) (s : State) :
    (removeParkAll r s).now = s.now ∧ (removeParkAll r s).msu = s.msu ∧ (removeParkAll r s).csu = s.csu ∧
      (removeParkAll r s).ctx = s.ctx ∧ (removeParkAll r s).scn = s.scn ∧ (removeParkAll r s).cbf = s.cbf ∧
      (removeParkAll r s).sdr = s.sdr ∧ (removeParkAll r s).cwr = s.cwr ∧ (removeParkAll r s).ips = s.ips ∧
      (removeParkAll r s).chg = s.chg ∧ (removeParkAll r s).ssv = s.ssv ∧ (removeParkAll r s).lnk = s.lnk ∧
      (removeParkAll r s).rst = s.rst ∧ (removeParkAll r s).pending = s.pending := by
  simp only [removeParkAll]; (repeat' split) <;> simp

@[simp] theorem thermalShutdown_frame (temp : Int) (s : State) :
    (thermalShutdown temp s).now = s.now ∧ (thermalShutdown temp s).msu = s.msu ∧
      (thermalShutdown temp s).csu.offset = s.csu.offset ∧ (thermalShutdown temp s).csu.frame = s.csu.frame ∧
      (thermalShutdown temp s).csu.sample = s.csu.sample ∧ (thermalShutdown temp s).csu.carried = s.csu.carried ∧
      (thermalShutdown temp s).csu.ring = s.csu.ring ∧ (thermalShutdown temp s).ctx = s.ctx ∧
      (thermalShutdown temp s).scn = s.scn ∧ (thermalShutdown temp s).cbf = s.cbf ∧
      (thermalShutdown temp s).sdr = s.sdr ∧ (thermalShutdown temp s).cwr = s.cwr ∧
      (thermalShutdown temp s).ips = s.ips ∧ (thermalShutdown temp s).chg = s.chg ∧
      (thermalShutdown temp s).ssv = s.ssv ∧ (thermalShutdown temp s).lnk.req = s.lnk.req ∧
      (thermalShutdown temp s).lnk.reply = s.lnk.reply ∧ (thermalShutdown temp s).lnk.refused = s.lnk.refused ∧
      (thermalShutdown temp s).lnk.recordMask = s.lnk.recordMask ∧
      (thermalShutdown temp s).lnk.alertMask = s.lnk.alertMask ∧ (thermalShutdown temp s).lnk.guard = s.lnk.guard ∧
      (thermalShutdown temp s).lnk.resetTaken = s.lnk.resetTaken ∧ (thermalShutdown temp s).rst = s.rst ∧
      (thermalShutdown temp s).pending = s.pending := by
  simp only [thermalShutdown, forMask]; (repeat' split) <;> simp

@[simp] theorem qualifyFault_frame (c : Chan) (s : State) :
    (qualifyFault c s).now = s.now ∧ (qualifyFault c s).msu = s.msu ∧
      (qualifyFault c s).csu.offset = s.csu.offset ∧ (qualifyFault c s).csu.frame = s.csu.frame ∧
      (qualifyFault c s).csu.sample = s.csu.sample ∧ (qualifyFault c s).csu.carried = s.csu.carried ∧
      (qualifyFault c s).csu.ring = s.csu.ring ∧ (qualifyFault c s).ctx = s.ctx ∧ (qualifyFault c s).scn = s.scn ∧
      (qualifyFault c s).cbf = s.cbf ∧ (qualifyFault c s).sdr = s.sdr ∧ (qualifyFault c s).cwr = s.cwr ∧
      (qualifyFault c s).ips = s.ips ∧ (qualifyFault c s).chg = s.chg ∧ (qualifyFault c s).ssv = s.ssv ∧
      (qualifyFault c s).lnk.req = s.lnk.req ∧ (qualifyFault c s).lnk.reply = s.lnk.reply ∧
      (qualifyFault c s).lnk.refused = s.lnk.refused ∧ (qualifyFault c s).lnk.recordMask = s.lnk.recordMask ∧
      (qualifyFault c s).lnk.alertMask = s.lnk.alertMask ∧ (qualifyFault c s).lnk.guard = s.lnk.guard ∧
      (qualifyFault c s).lnk.resetTaken = s.lnk.resetTaken ∧ (qualifyFault c s).rst = s.rst ∧
      (qualifyFault c s).pending = s.pending := by
  simp only [qualifyFault]; (repeat' split) <;> simp

@[simp] theorem enableChannel_frame (c : Chan) (s : State) :
    (enableChannel c s).now = s.now ∧ (enableChannel c s).msu = s.msu ∧ (enableChannel c s).csu = s.csu ∧
      (enableChannel c s).ctx = s.ctx ∧ (enableChannel c s).scn = s.scn ∧ (enableChannel c s).cbf = s.cbf ∧
      (enableChannel c s).sdr = s.sdr ∧ (enableChannel c s).cwr = s.cwr ∧ (enableChannel c s).ips = s.ips ∧
      (enableChannel c s).chg = s.chg ∧ (enableChannel c s).ssv = s.ssv ∧ (enableChannel c s).lnk = s.lnk ∧
      (enableChannel c s).rst = s.rst ∧ (enableChannel c s).pending = s.pending := by
  simp only [enableChannel]; (repeat' split) <;> simp

@[simp] theorem disableChannel_frame (c : Chan) (s : State) :
    (disableChannel c s).now = s.now ∧ (disableChannel c s).msu = s.msu ∧
      (disableChannel c s).csu.offset = s.csu.offset ∧ (disableChannel c s).csu.frame = s.csu.frame ∧
      (disableChannel c s).csu.sample = s.csu.sample ∧ (disableChannel c s).csu.carried = s.csu.carried ∧
      (disableChannel c s).csu.ring = s.csu.ring ∧ (disableChannel c s).ctx = s.ctx ∧
      (disableChannel c s).scn = s.scn ∧ (disableChannel c s).cbf = s.cbf ∧ (disableChannel c s).sdr = s.sdr ∧
      (disableChannel c s).cwr = s.cwr ∧ (disableChannel c s).ips = s.ips ∧ (disableChannel c s).chg = s.chg ∧
      (disableChannel c s).ssv = s.ssv ∧ (disableChannel c s).lnk = s.lnk ∧ (disableChannel c s).rst = s.rst ∧
      (disableChannel c s).pending = s.pending := by
  simp only [disableChannel]; (repeat' split) <;> simp

@[simp] theorem storeGroup_frame (prescaler period : Nat) (c : Chan) (s : State) :
    (storeGroup prescaler period c s).now = s.now ∧ (storeGroup prescaler period c s).msu = s.msu ∧
      (storeGroup prescaler period c s).csu = s.csu ∧ (storeGroup prescaler period c s).ctx = s.ctx ∧
      (storeGroup prescaler period c s).scn = s.scn ∧ (storeGroup prescaler period c s).cbf = s.cbf ∧
      (storeGroup prescaler period c s).sdr = s.sdr ∧ (storeGroup prescaler period c s).cwr = s.cwr ∧
      (storeGroup prescaler period c s).ips = s.ips ∧ (storeGroup prescaler period c s).chg = s.chg ∧
      (storeGroup prescaler period c s).ssv = s.ssv ∧ (storeGroup prescaler period c s).lnk = s.lnk ∧
      (storeGroup prescaler period c s).rst = s.rst ∧ (storeGroup prescaler period c s).pending = s.pending := by
  simp only [storeGroup]; (repeat' split) <;> simp

@[simp] theorem overcurrentStep_frame (c : Chan) (cycles : Nat) (s : State) :
    (overcurrentStep c cycles s).now = s.now ∧ (overcurrentStep c cycles s).msu = s.msu ∧
      (overcurrentStep c cycles s).csu.offset = s.csu.offset ∧
      (overcurrentStep c cycles s).csu.frame = s.csu.frame ∧
      (overcurrentStep c cycles s).csu.sample = s.csu.sample ∧
      (overcurrentStep c cycles s).csu.carried = s.csu.carried ∧
      (overcurrentStep c cycles s).csu.ring = s.csu.ring ∧ (overcurrentStep c cycles s).ctx = s.ctx ∧
      (overcurrentStep c cycles s).scn = s.scn ∧ (overcurrentStep c cycles s).cbf = s.cbf ∧
      (overcurrentStep c cycles s).sdr = s.sdr ∧ (overcurrentStep c cycles s).cwr = s.cwr ∧
      (overcurrentStep c cycles s).ips = s.ips ∧ (overcurrentStep c cycles s).chg = s.chg ∧
      (overcurrentStep c cycles s).ssv = s.ssv ∧ (overcurrentStep c cycles s).lnk.req = s.lnk.req ∧
      (overcurrentStep c cycles s).lnk.reply = s.lnk.reply ∧
      (overcurrentStep c cycles s).lnk.refused = s.lnk.refused ∧
      (overcurrentStep c cycles s).lnk.recordMask = s.lnk.recordMask ∧
      (overcurrentStep c cycles s).lnk.alertMask = s.lnk.alertMask ∧
      (overcurrentStep c cycles s).lnk.guard = s.lnk.guard ∧
      (overcurrentStep c cycles s).lnk.resetTaken = s.lnk.resetTaken ∧ (overcurrentStep c cycles s).rst = s.rst ∧
      (overcurrentStep c cycles s).pending = s.pending := by
  simp only [overcurrentStep]; (repeat' split) <;> simp

@[simp] theorem retryExpiry_frame (c : Chan) (s : State) :
    (retryExpiry c s).now = s.now ∧ (retryExpiry c s).msu = s.msu ∧ (retryExpiry c s).csu = s.csu ∧
      (retryExpiry c s).ctx = s.ctx ∧ (retryExpiry c s).scn = s.scn ∧ (retryExpiry c s).cbf = s.cbf ∧
      (retryExpiry c s).sdr = s.sdr ∧ (retryExpiry c s).cwr = s.cwr ∧ (retryExpiry c s).ips = s.ips ∧
      (retryExpiry c s).chg = s.chg ∧ (retryExpiry c s).ssv = s.ssv ∧ (retryExpiry c s).lnk = s.lnk ∧
      (retryExpiry c s).rst = s.rst ∧ (retryExpiry c s).pending = s.pending := by
  simp only [retryExpiry]; (repeat' split) <;> simp

@[simp] theorem cleanExpiry_frame (c : Chan) (s : State) :
    (cleanExpiry c s).now = s.now ∧ (cleanExpiry c s).msu = s.msu ∧ (cleanExpiry c s).csu = s.csu ∧
      (cleanExpiry c s).ctx = s.ctx ∧ (cleanExpiry c s).scn = s.scn ∧ (cleanExpiry c s).cbf = s.cbf ∧
      (cleanExpiry c s).sdr = s.sdr ∧ (cleanExpiry c s).cwr = s.cwr ∧ (cleanExpiry c s).ips = s.ips ∧
      (cleanExpiry c s).chg = s.chg ∧ (cleanExpiry c s).ssv = s.ssv ∧ (cleanExpiry c s).lnk = s.lnk ∧
      (cleanExpiry c s).rst = s.rst ∧ (cleanExpiry c s).pending = s.pending := by
  simp only [cleanExpiry]; (repeat' split) <;> simp

@[simp] theorem chargeEvent_frame (before : Phase) (s : State) :
    (chargeEvent before s).now = s.now ∧ (chargeEvent before s).msu = s.msu ∧ (chargeEvent before s).csu = s.csu ∧
      (chargeEvent before s).ctx = s.ctx ∧ (chargeEvent before s).adu = s.adu ∧
      (chargeEvent before s).scn = s.scn ∧ (chargeEvent before s).cbf = s.cbf ∧
      (chargeEvent before s).sdr = s.sdr ∧ (chargeEvent before s).cwr = s.cwr ∧
      (chargeEvent before s).ips = s.ips ∧ (chargeEvent before s).chg = s.chg ∧
      (chargeEvent before s).ssv = s.ssv ∧ (chargeEvent before s).lnk.req = s.lnk.req ∧
      (chargeEvent before s).lnk.reply = s.lnk.reply ∧ (chargeEvent before s).lnk.refused = s.lnk.refused ∧
      (chargeEvent before s).lnk.recordMask = s.lnk.recordMask ∧
      (chargeEvent before s).lnk.alertMask = s.lnk.alertMask ∧ (chargeEvent before s).lnk.guard = s.lnk.guard ∧
      (chargeEvent before s).lnk.resetTaken = s.lnk.resetTaken ∧ (chargeEvent before s).rst = s.rst ∧
      (chargeEvent before s).pending = s.pending := by
  simp only [chargeEvent]; (repeat' split) <;> simp

@[simp] theorem setPause_frame (p : PauseSet) (s : State) :
    (setPause p s).now = s.now ∧ (setPause p s).msu = s.msu ∧ (setPause p s).csu = s.csu ∧
      (setPause p s).ctx = s.ctx ∧ (setPause p s).adu = s.adu ∧ (setPause p s).scn = s.scn ∧
      (setPause p s).cbf = s.cbf ∧ (setPause p s).sdr = s.sdr ∧ (setPause p s).cwr = s.cwr ∧
      (setPause p s).ips = s.ips ∧ (setPause p s).ssv = s.ssv ∧ (setPause p s).lnk.req = s.lnk.req ∧
      (setPause p s).lnk.reply = s.lnk.reply ∧ (setPause p s).lnk.refused = s.lnk.refused ∧
      (setPause p s).lnk.recordMask = s.lnk.recordMask ∧ (setPause p s).lnk.alertMask = s.lnk.alertMask ∧
      (setPause p s).lnk.guard = s.lnk.guard ∧ (setPause p s).lnk.resetTaken = s.lnk.resetTaken ∧
      (setPause p s).rst = s.rst ∧ (setPause p s).pending = s.pending := by
  simp only [setPause]; (repeat' split) <;> simp

@[simp] theorem pauseSupply_frame (b : Bool) (s : State) :
    (pauseSupply b s).now = s.now ∧ (pauseSupply b s).msu = s.msu ∧ (pauseSupply b s).csu = s.csu ∧
      (pauseSupply b s).ctx = s.ctx ∧ (pauseSupply b s).adu = s.adu ∧ (pauseSupply b s).scn = s.scn ∧
      (pauseSupply b s).cbf = s.cbf ∧ (pauseSupply b s).sdr = s.sdr ∧ (pauseSupply b s).cwr = s.cwr ∧
      (pauseSupply b s).ips = s.ips ∧ (pauseSupply b s).ssv = s.ssv ∧ (pauseSupply b s).lnk.req = s.lnk.req ∧
      (pauseSupply b s).lnk.reply = s.lnk.reply ∧ (pauseSupply b s).lnk.refused = s.lnk.refused ∧
      (pauseSupply b s).lnk.recordMask = s.lnk.recordMask ∧ (pauseSupply b s).lnk.alertMask = s.lnk.alertMask ∧
      (pauseSupply b s).lnk.guard = s.lnk.guard ∧ (pauseSupply b s).lnk.resetTaken = s.lnk.resetTaken ∧
      (pauseSupply b s).rst = s.rst ∧ (pauseSupply b s).pending = s.pending := by
  simp only [pauseSupply]; (repeat' split) <;> simp

@[simp] theorem lowerCommand_frame (s : State) :
    (lowerCommand s).now = s.now ∧ (lowerCommand s).msu = s.msu ∧ (lowerCommand s).csu = s.csu ∧
      (lowerCommand s).ctx = s.ctx ∧ (lowerCommand s).adu = s.adu ∧ (lowerCommand s).scn = s.scn ∧
      (lowerCommand s).cbf = s.cbf ∧ (lowerCommand s).sdr = s.sdr ∧ (lowerCommand s).cwr = s.cwr ∧
      (lowerCommand s).ips = s.ips ∧ (lowerCommand s).ssv = s.ssv ∧ (lowerCommand s).lnk = s.lnk ∧
      (lowerCommand s).rst = s.rst ∧ (lowerCommand s).pending = s.pending := by
  simp only [lowerCommand]; (repeat' split) <;> simp

@[simp] theorem chargerZones_frame (s : State) :
    (chargerZones s).now = s.now ∧ (chargerZones s).msu = s.msu ∧ (chargerZones s).csu = s.csu ∧
      (chargerZones s).ctx = s.ctx ∧ (chargerZones s).adu = s.adu ∧ (chargerZones s).scn = s.scn ∧
      (chargerZones s).cbf = s.cbf ∧ (chargerZones s).sdr = s.sdr ∧ (chargerZones s).cwr = s.cwr ∧
      (chargerZones s).ips = s.ips ∧ (chargerZones s).ssv = s.ssv ∧ (chargerZones s).lnk.req = s.lnk.req ∧
      (chargerZones s).lnk.reply = s.lnk.reply ∧ (chargerZones s).lnk.refused = s.lnk.refused ∧
      (chargerZones s).lnk.recordMask = s.lnk.recordMask ∧ (chargerZones s).lnk.alertMask = s.lnk.alertMask ∧
      (chargerZones s).lnk.guard = s.lnk.guard ∧ (chargerZones s).lnk.resetTaken = s.lnk.resetTaken ∧
      (chargerZones s).rst = s.rst ∧ (chargerZones s).pending = s.pending := by
  simp only [chargerZones]; (repeat' split) <;> simp

@[simp] theorem useTarget_frame (s : State) :
    (useTarget s).now = s.now ∧ (useTarget s).msu = s.msu ∧ (useTarget s).csu = s.csu ∧
      (useTarget s).ctx = s.ctx ∧ (useTarget s).adu = s.adu ∧ (useTarget s).scn = s.scn ∧
      (useTarget s).cbf = s.cbf ∧ (useTarget s).sdr = s.sdr ∧ (useTarget s).cwr = s.cwr ∧
      (useTarget s).ips = s.ips ∧ (useTarget s).ssv = s.ssv ∧ (useTarget s).lnk = s.lnk ∧
      (useTarget s).rst = s.rst ∧ (useTarget s).pending = s.pending := by
  simp [useTarget]

@[simp] theorem enterPhase_frame (s : State) :
    (enterPhase s).now = s.now ∧ (enterPhase s).msu = s.msu ∧ (enterPhase s).csu = s.csu ∧
      (enterPhase s).ctx = s.ctx ∧ (enterPhase s).adu = s.adu ∧ (enterPhase s).scn = s.scn ∧
      (enterPhase s).cbf = s.cbf ∧ (enterPhase s).sdr = s.sdr ∧ (enterPhase s).cwr = s.cwr ∧
      (enterPhase s).ips = s.ips ∧ (enterPhase s).ssv = s.ssv ∧ (enterPhase s).lnk = s.lnk ∧
      (enterPhase s).rst = s.rst ∧ (enterPhase s).pending = s.pending := by
  simp [enterPhase]

@[simp] theorem chargerBudget_frame (s : State) :
    (chargerBudget s).now = s.now ∧ (chargerBudget s).msu = s.msu ∧ (chargerBudget s).csu = s.csu ∧
      (chargerBudget s).ctx = s.ctx ∧ (chargerBudget s).adu = s.adu ∧ (chargerBudget s).scn = s.scn ∧
      (chargerBudget s).cbf = s.cbf ∧ (chargerBudget s).sdr = s.sdr ∧ (chargerBudget s).cwr = s.cwr ∧
      (chargerBudget s).ips = s.ips ∧ (chargerBudget s).ssv = s.ssv ∧ (chargerBudget s).lnk = s.lnk ∧
      (chargerBudget s).rst = s.rst ∧ (chargerBudget s).pending = s.pending := by
  simp only [chargerBudget]; (repeat' split) <;> simp

@[simp] theorem chargerNotice_frame (s : State) :
    (chargerNotice s).now = s.now ∧ (chargerNotice s).msu = s.msu ∧ (chargerNotice s).csu = s.csu ∧
      (chargerNotice s).ctx = s.ctx ∧ (chargerNotice s).adu = s.adu ∧ (chargerNotice s).scn = s.scn ∧
      (chargerNotice s).cbf = s.cbf ∧ (chargerNotice s).sdr = s.sdr ∧ (chargerNotice s).cwr = s.cwr ∧
      (chargerNotice s).ips = s.ips ∧ (chargerNotice s).ssv = s.ssv ∧ (chargerNotice s).lnk.req = s.lnk.req ∧
      (chargerNotice s).lnk.reply = s.lnk.reply ∧ (chargerNotice s).lnk.refused = s.lnk.refused ∧
      (chargerNotice s).lnk.recordMask = s.lnk.recordMask ∧ (chargerNotice s).lnk.alertMask = s.lnk.alertMask ∧
      (chargerNotice s).lnk.guard = s.lnk.guard ∧ (chargerNotice s).lnk.resetTaken = s.lnk.resetTaken ∧
      (chargerNotice s).rst = s.rst ∧ (chargerNotice s).pending = s.pending := by
  simp only [chargerNotice]; (repeat' split) <;> simp

@[simp] theorem chargeDisable_frame (s : State) :
    (chargeDisable s).now = s.now ∧ (chargeDisable s).msu = s.msu ∧ (chargeDisable s).csu = s.csu ∧
      (chargeDisable s).ctx = s.ctx ∧ (chargeDisable s).adu = s.adu ∧ (chargeDisable s).scn = s.scn ∧
      (chargeDisable s).cbf = s.cbf ∧ (chargeDisable s).sdr = s.sdr ∧ (chargeDisable s).cwr = s.cwr ∧
      (chargeDisable s).ips = s.ips ∧ (chargeDisable s).ssv = s.ssv ∧ (chargeDisable s).lnk.req = s.lnk.req ∧
      (chargeDisable s).lnk.reply = s.lnk.reply ∧ (chargeDisable s).lnk.refused = s.lnk.refused ∧
      (chargeDisable s).lnk.recordMask = s.lnk.recordMask ∧ (chargeDisable s).lnk.alertMask = s.lnk.alertMask ∧
      (chargeDisable s).lnk.guard = s.lnk.guard ∧ (chargeDisable s).lnk.resetTaken = s.lnk.resetTaken ∧
      (chargeDisable s).rst = s.rst ∧ (chargeDisable s).pending = s.pending := by
  simp only [chargeDisable]; (repeat' split) <;> simp

@[simp] theorem applyCharge_frame (enable : Bool) (target fast termination fastTimer : Half) (s : State) :
    (applyCharge enable target fast termination fastTimer s).now = s.now ∧
      (applyCharge enable target fast termination fastTimer s).msu = s.msu ∧
      (applyCharge enable target fast termination fastTimer s).csu = s.csu ∧
      (applyCharge enable target fast termination fastTimer s).ctx = s.ctx ∧
      (applyCharge enable target fast termination fastTimer s).adu = s.adu ∧
      (applyCharge enable target fast termination fastTimer s).scn = s.scn ∧
      (applyCharge enable target fast termination fastTimer s).cbf = s.cbf ∧
      (applyCharge enable target fast termination fastTimer s).sdr = s.sdr ∧
      (applyCharge enable target fast termination fastTimer s).cwr = s.cwr ∧
      (applyCharge enable target fast termination fastTimer s).ips = s.ips ∧
      (applyCharge enable target fast termination fastTimer s).ssv = s.ssv ∧
      (applyCharge enable target fast termination fastTimer s).lnk.req = s.lnk.req ∧
      (applyCharge enable target fast termination fastTimer s).lnk.reply = s.lnk.reply ∧
      (applyCharge enable target fast termination fastTimer s).lnk.refused = s.lnk.refused ∧
      (applyCharge enable target fast termination fastTimer s).lnk.recordMask = s.lnk.recordMask ∧
      (applyCharge enable target fast termination fastTimer s).lnk.alertMask = s.lnk.alertMask ∧
      (applyCharge enable target fast termination fastTimer s).lnk.guard = s.lnk.guard ∧
      (applyCharge enable target fast termination fastTimer s).lnk.resetTaken = s.lnk.resetTaken ∧
      (applyCharge enable target fast termination fastTimer s).rst = s.rst ∧
      (applyCharge enable target fast termination fastTimer s).pending = s.pending := by
  simp only [applyCharge]; (repeat' split) <;> simp

@[simp] theorem inputEvent_frame (before : Ips) (s : State) :
    (inputEvent before s).now = s.now ∧ (inputEvent before s).msu = s.msu ∧ (inputEvent before s).csu = s.csu ∧
      (inputEvent before s).ctx = s.ctx ∧ (inputEvent before s).adu = s.adu ∧ (inputEvent before s).scn = s.scn ∧
      (inputEvent before s).cbf = s.cbf ∧ (inputEvent before s).sdr = s.sdr ∧ (inputEvent before s).cwr = s.cwr ∧
      (inputEvent before s).ips = s.ips ∧ (inputEvent before s).chg = s.chg ∧ (inputEvent before s).ssv = s.ssv ∧
      (inputEvent before s).lnk.req = s.lnk.req ∧ (inputEvent before s).lnk.reply = s.lnk.reply ∧
      (inputEvent before s).lnk.refused = s.lnk.refused ∧ (inputEvent before s).lnk.recordMask = s.lnk.recordMask ∧
      (inputEvent before s).lnk.alertMask = s.lnk.alertMask ∧ (inputEvent before s).lnk.guard = s.lnk.guard ∧
      (inputEvent before s).lnk.resetTaken = s.lnk.resetTaken ∧ (inputEvent before s).rst = s.rst ∧
      (inputEvent before s).pending = s.pending := by
  simp only [inputEvent]; (repeat' split) <;> simp

@[simp] theorem powerNotice_frame (s : State) :
    (powerNotice s).now = s.now ∧ (powerNotice s).msu = s.msu ∧ (powerNotice s).csu = s.csu ∧
      (powerNotice s).ctx = s.ctx ∧ (powerNotice s).adu = s.adu ∧ (powerNotice s).scn = s.scn ∧
      (powerNotice s).cbf = s.cbf ∧ (powerNotice s).sdr = s.sdr ∧ (powerNotice s).cwr = s.cwr ∧
      (powerNotice s).chg = s.chg ∧ (powerNotice s).ssv = s.ssv ∧ (powerNotice s).lnk.req = s.lnk.req ∧
      (powerNotice s).lnk.reply = s.lnk.reply ∧ (powerNotice s).lnk.refused = s.lnk.refused ∧
      (powerNotice s).lnk.recordMask = s.lnk.recordMask ∧ (powerNotice s).lnk.alertMask = s.lnk.alertMask ∧
      (powerNotice s).lnk.guard = s.lnk.guard ∧ (powerNotice s).lnk.resetTaken = s.lnk.resetTaken ∧
      (powerNotice s).rst = s.rst ∧ (powerNotice s).pending = s.pending := by
  simp only [powerNotice]; (repeat' split) <;> simp

@[simp] theorem batteryChanged_frame (before : BatZone) (s : State) :
    (batteryChanged before s).now = s.now ∧ (batteryChanged before s).msu = s.msu ∧
      (batteryChanged before s).csu = s.csu ∧ (batteryChanged before s).ctx = s.ctx ∧
      (batteryChanged before s).adu = s.adu ∧ (batteryChanged before s).scn = s.scn ∧
      (batteryChanged before s).cbf = s.cbf ∧ (batteryChanged before s).sdr = s.sdr ∧
      (batteryChanged before s).cwr = s.cwr ∧ (batteryChanged before s).ips = s.ips ∧
      (batteryChanged before s).ssv = s.ssv ∧ (batteryChanged before s).lnk.req = s.lnk.req ∧
      (batteryChanged before s).lnk.reply = s.lnk.reply ∧ (batteryChanged before s).lnk.refused = s.lnk.refused ∧
      (batteryChanged before s).lnk.recordMask = s.lnk.recordMask ∧
      (batteryChanged before s).lnk.alertMask = s.lnk.alertMask ∧
      (batteryChanged before s).lnk.guard = s.lnk.guard ∧
      (batteryChanged before s).lnk.resetTaken = s.lnk.resetTaken ∧ (batteryChanged before s).rst = s.rst ∧
      (batteryChanged before s).pending = s.pending := by
  simp only [batteryChanged]; (repeat' split) <;> simp

@[simp] theorem dieChanged_frame (before : DieZone) (s : State) :
    (dieChanged before s).now = s.now ∧ (dieChanged before s).msu = s.msu ∧
      (dieChanged before s).csu.offset = s.csu.offset ∧ (dieChanged before s).csu.frame = s.csu.frame ∧
      (dieChanged before s).csu.sample = s.csu.sample ∧ (dieChanged before s).csu.carried = s.csu.carried ∧
      (dieChanged before s).csu.ring = s.csu.ring ∧ (dieChanged before s).ctx = s.ctx ∧
      (dieChanged before s).scn = s.scn ∧ (dieChanged before s).cbf = s.cbf ∧ (dieChanged before s).sdr = s.sdr ∧
      (dieChanged before s).cwr = s.cwr ∧ (dieChanged before s).ips = s.ips ∧ (dieChanged before s).ssv = s.ssv ∧
      (dieChanged before s).lnk.req = s.lnk.req ∧ (dieChanged before s).lnk.reply = s.lnk.reply ∧
      (dieChanged before s).lnk.refused = s.lnk.refused ∧ (dieChanged before s).lnk.recordMask = s.lnk.recordMask ∧
      (dieChanged before s).lnk.alertMask = s.lnk.alertMask ∧ (dieChanged before s).lnk.guard = s.lnk.guard ∧
      (dieChanged before s).lnk.resetTaken = s.lnk.resetTaken ∧ (dieChanged before s).rst = s.rst ∧
      (dieChanged before s).pending = s.pending := by
  simp only [dieChanged]; (repeat' split) <;> simp

@[simp] theorem roundEnd_frame (s : State) :
    (roundEnd s).now = s.now ∧ (roundEnd s).msu = s.msu ∧ (roundEnd s).csu = s.csu ∧ (roundEnd s).ctx = s.ctx ∧
      (roundEnd s).adu = s.adu ∧ (roundEnd s).cbf = s.cbf ∧ (roundEnd s).sdr = s.sdr ∧ (roundEnd s).cwr = s.cwr ∧
      (roundEnd s).ssv = s.ssv ∧ (roundEnd s).lnk.req = s.lnk.req ∧ (roundEnd s).lnk.reply = s.lnk.reply ∧
      (roundEnd s).lnk.refused = s.lnk.refused ∧ (roundEnd s).lnk.recordMask = s.lnk.recordMask ∧
      (roundEnd s).lnk.alertMask = s.lnk.alertMask ∧ (roundEnd s).lnk.guard = s.lnk.guard ∧
      (roundEnd s).lnk.resetTaken = s.lnk.resetTaken ∧ (roundEnd s).rst = s.rst ∧
      (roundEnd s).pending = s.pending := by
  simp only [roundEnd]; (repeat' split) <;> simp

@[simp] theorem convertTBat_frame (r : Reading) (s : State) :
    (convertTBat r s).now = s.now ∧ (convertTBat r s).msu = s.msu ∧ (convertTBat r s).csu = s.csu ∧
      (convertTBat r s).ctx = s.ctx ∧ (convertTBat r s).adu = s.adu ∧ (convertTBat r s).cbf = s.cbf ∧
      (convertTBat r s).sdr = s.sdr ∧ (convertTBat r s).cwr = s.cwr ∧ (convertTBat r s).ips = s.ips ∧
      (convertTBat r s).ssv = s.ssv ∧ (convertTBat r s).lnk.req = s.lnk.req ∧
      (convertTBat r s).lnk.reply = s.lnk.reply ∧ (convertTBat r s).lnk.refused = s.lnk.refused ∧
      (convertTBat r s).lnk.recordMask = s.lnk.recordMask ∧ (convertTBat r s).lnk.alertMask = s.lnk.alertMask ∧
      (convertTBat r s).lnk.guard = s.lnk.guard ∧ (convertTBat r s).lnk.resetTaken = s.lnk.resetTaken ∧
      (convertTBat r s).rst = s.rst ∧ (convertTBat r s).pending = s.pending := by
  simp only [convertTBat]; (repeat' split) <;> simp

@[simp] theorem convertTDie_frame (r : Reading) (s : State) :
    (convertTDie r s).now = s.now ∧ (convertTDie r s).msu = s.msu ∧ (convertTDie r s).csu.offset = s.csu.offset ∧
      (convertTDie r s).csu.frame = s.csu.frame ∧ (convertTDie r s).csu.sample = s.csu.sample ∧
      (convertTDie r s).csu.carried = s.csu.carried ∧ (convertTDie r s).csu.ring = s.csu.ring ∧
      (convertTDie r s).ctx = s.ctx ∧ (convertTDie r s).cbf = s.cbf ∧ (convertTDie r s).sdr = s.sdr ∧
      (convertTDie r s).cwr = s.cwr ∧ (convertTDie r s).ssv = s.ssv ∧ (convertTDie r s).lnk.req = s.lnk.req ∧
      (convertTDie r s).lnk.reply = s.lnk.reply ∧ (convertTDie r s).lnk.refused = s.lnk.refused ∧
      (convertTDie r s).lnk.recordMask = s.lnk.recordMask ∧ (convertTDie r s).lnk.alertMask = s.lnk.alertMask ∧
      (convertTDie r s).lnk.guard = s.lnk.guard ∧ (convertTDie r s).lnk.resetTaken = s.lnk.resetTaken ∧
      (convertTDie r s).rst = s.rst ∧ (convertTDie r s).pending = s.pending := by
  simp only [convertTDie]; (repeat' split) <;> simp

@[simp] theorem convert_frame (r : Reading) (s : State) :
    (convert r s).now = s.now ∧ (convert r s).msu = s.msu ∧ (convert r s).csu.offset = s.csu.offset ∧
      (convert r s).csu.frame = s.csu.frame ∧ (convert r s).csu.sample = s.csu.sample ∧
      (convert r s).csu.carried = s.csu.carried ∧ (convert r s).csu.ring = s.csu.ring ∧ (convert r s).ctx = s.ctx ∧
      (convert r s).cbf = s.cbf ∧ (convert r s).sdr = s.sdr ∧ (convert r s).cwr = s.cwr ∧
      (convert r s).ssv = s.ssv ∧ (convert r s).lnk.req = s.lnk.req ∧ (convert r s).lnk.reply = s.lnk.reply ∧
      (convert r s).lnk.refused = s.lnk.refused ∧ (convert r s).lnk.recordMask = s.lnk.recordMask ∧
      (convert r s).lnk.alertMask = s.lnk.alertMask ∧ (convert r s).lnk.guard = s.lnk.guard ∧
      (convert r s).lnk.resetTaken = s.lnk.resetTaken ∧ (convert r s).rst = s.rst ∧
      (convert r s).pending = s.pending := by
  simp only [convert]; (repeat' split) <;> simp

@[simp] theorem scanStep_frame (r : Reading) (s : State) :
    (scanStep r s).now = s.now ∧ (scanStep r s).msu = s.msu ∧ (scanStep r s).csu.offset = s.csu.offset ∧
      (scanStep r s).csu.frame = s.csu.frame ∧ (scanStep r s).csu.sample = s.csu.sample ∧
      (scanStep r s).csu.carried = s.csu.carried ∧ (scanStep r s).csu.ring = s.csu.ring ∧
      (scanStep r s).ctx = s.ctx ∧ (scanStep r s).cbf = s.cbf ∧ (scanStep r s).sdr = s.sdr ∧
      (scanStep r s).cwr = s.cwr ∧ (scanStep r s).ssv = s.ssv ∧ (scanStep r s).lnk.req = s.lnk.req ∧
      (scanStep r s).lnk.reply = s.lnk.reply ∧ (scanStep r s).lnk.refused = s.lnk.refused ∧
      (scanStep r s).lnk.recordMask = s.lnk.recordMask ∧ (scanStep r s).lnk.alertMask = s.lnk.alertMask ∧
      (scanStep r s).lnk.guard = s.lnk.guard ∧ (scanStep r s).lnk.resetTaken = s.lnk.resetTaken ∧
      (scanStep r s).rst = s.rst ∧ (scanStep r s).pending = s.pending := by
  simp only [scanStep]; (repeat' split) <;> simp

@[simp] theorem modEntry_frame (i : Nat) (f : Entry → Entry) (s : State) :
    (modEntry i f s).now = s.now ∧ (modEntry i f s).msu = s.msu ∧ (modEntry i f s).csu = s.csu ∧
      (modEntry i f s).ctx = s.ctx ∧ (modEntry i f s).adu = s.adu ∧ (modEntry i f s).scn = s.scn ∧
      (modEntry i f s).cbf = s.cbf ∧ (modEntry i f s).sdr.geo = s.sdr.geo ∧
      (modEntry i f s).sdr.queue = s.sdr.queue ∧ (modEntry i f s).sdr.nextSeq = s.sdr.nextSeq ∧
      (modEntry i f s).sdr.nextRec = s.sdr.nextRec ∧ (modEntry i f s).sdr.mark = s.sdr.mark ∧
      (modEntry i f s).cwr = s.cwr ∧ (modEntry i f s).ips = s.ips ∧ (modEntry i f s).chg = s.chg ∧
      (modEntry i f s).ssv = s.ssv ∧ (modEntry i f s).lnk = s.lnk ∧ (modEntry i f s).rst = s.rst ∧
      (modEntry i f s).pending = s.pending := by
  simp only [modEntry]; (repeat' split) <;> simp

@[simp] theorem setSlotState_frame (st : SlotState) (i : Nat) (s : State) :
    (setSlotState st i s).now = s.now ∧ (setSlotState st i s).msu = s.msu ∧ (setSlotState st i s).csu = s.csu ∧
      (setSlotState st i s).ctx = s.ctx ∧ (setSlotState st i s).adu = s.adu ∧ (setSlotState st i s).scn = s.scn ∧
      (setSlotState st i s).cbf = s.cbf ∧ (setSlotState st i s).sdr.geo = s.sdr.geo ∧
      (setSlotState st i s).sdr.queue = s.sdr.queue ∧ (setSlotState st i s).sdr.nextSeq = s.sdr.nextSeq ∧
      (setSlotState st i s).sdr.nextRec = s.sdr.nextRec ∧ (setSlotState st i s).sdr.mark = s.sdr.mark ∧
      (setSlotState st i s).cwr = s.cwr ∧ (setSlotState st i s).ips = s.ips ∧ (setSlotState st i s).chg = s.chg ∧
      (setSlotState st i s).ssv = s.ssv ∧ (setSlotState st i s).lnk = s.lnk ∧ (setSlotState st i s).rst = s.rst ∧
      (setSlotState st i s).pending = s.pending := by
  simp only [setSlotState]; (repeat' split) <;> simp

@[simp] theorem enqueue_frame (i : Nat) (s : State) :
    (enqueue i s).now = s.now ∧ (enqueue i s).msu = s.msu ∧ (enqueue i s).csu = s.csu ∧ (enqueue i s).ctx = s.ctx ∧
      (enqueue i s).adu = s.adu ∧ (enqueue i s).scn = s.scn ∧ (enqueue i s).cbf = s.cbf ∧
      (enqueue i s).sdr.geo = s.sdr.geo ∧ (enqueue i s).sdr.nextSeq = s.sdr.nextSeq ∧
      (enqueue i s).sdr.nextRec = s.sdr.nextRec ∧ (enqueue i s).sdr.mark = s.sdr.mark ∧ (enqueue i s).cwr = s.cwr ∧
      (enqueue i s).ips = s.ips ∧ (enqueue i s).chg = s.chg ∧ (enqueue i s).ssv = s.ssv ∧
      (enqueue i s).lnk = s.lnk ∧ (enqueue i s).rst = s.rst ∧ (enqueue i s).pending = s.pending := by
  simp only [enqueue]; (repeat' split) <;> simp

@[simp] theorem dequeue_frame (i : Nat) (rest : List Nat) (s : State) :
    (dequeue i rest s).now = s.now ∧ (dequeue i rest s).msu = s.msu ∧ (dequeue i rest s).csu = s.csu ∧
      (dequeue i rest s).ctx = s.ctx ∧ (dequeue i rest s).adu = s.adu ∧ (dequeue i rest s).scn = s.scn ∧
      (dequeue i rest s).cbf = s.cbf ∧ (dequeue i rest s).sdr.geo = s.sdr.geo ∧
      (dequeue i rest s).sdr.nextSeq = s.sdr.nextSeq ∧ (dequeue i rest s).sdr.nextRec = s.sdr.nextRec ∧
      (dequeue i rest s).sdr.mark = s.sdr.mark ∧ (dequeue i rest s).cwr = s.cwr ∧ (dequeue i rest s).ips = s.ips ∧
      (dequeue i rest s).chg = s.chg ∧ (dequeue i rest s).ssv = s.ssv ∧ (dequeue i rest s).lnk = s.lnk ∧
      (dequeue i rest s).rst = s.rst ∧ (dequeue i rest s).pending = s.pending := by
  simp only [dequeue]; (repeat' split) <;> simp

@[simp] theorem skipQueue_frame (q : List Nat) (s : State) :
    (skipQueue q s).now = s.now ∧ (skipQueue q s).msu = s.msu ∧ (skipQueue q s).csu = s.csu ∧
      (skipQueue q s).ctx = s.ctx ∧ (skipQueue q s).adu = s.adu ∧ (skipQueue q s).scn = s.scn ∧
      (skipQueue q s).cbf = s.cbf ∧ (skipQueue q s).sdr.geo = s.sdr.geo ∧
      (skipQueue q s).sdr.nextSeq = s.sdr.nextSeq ∧ (skipQueue q s).sdr.nextRec = s.sdr.nextRec ∧
      (skipQueue q s).sdr.mark = s.sdr.mark ∧ (skipQueue q s).cwr = s.cwr ∧ (skipQueue q s).ips = s.ips ∧
      (skipQueue q s).chg = s.chg ∧ (skipQueue q s).ssv = s.ssv ∧ (skipQueue q s).lnk = s.lnk ∧
      (skipQueue q s).rst = s.rst ∧ (skipQueue q s).pending = s.pending := by
  induction q generalizing s with
  | nil => simp [skipQueue]
  | cons i rest ih => simp only [skipQueue]; (repeat' split) <;> simp [ih]

@[simp] theorem staleCursor_frame (i : Nat) (s : State) :
    (staleCursor i s).now = s.now ∧ (staleCursor i s).msu = s.msu ∧ (staleCursor i s).csu = s.csu ∧
      (staleCursor i s).ctx = s.ctx ∧ (staleCursor i s).adu = s.adu ∧ (staleCursor i s).scn = s.scn ∧
      (staleCursor i s).cbf = s.cbf ∧ (staleCursor i s).sdr = s.sdr ∧ (staleCursor i s).cwr.writer = s.cwr.writer ∧
      (staleCursor i s).cwr.recId = s.cwr.recId ∧ (staleCursor i s).cwr.present = s.cwr.present ∧
      (staleCursor i s).cwr.cdet = s.cwr.cdet ∧ (staleCursor i s).ips = s.ips ∧ (staleCursor i s).chg = s.chg ∧
      (staleCursor i s).ssv = s.ssv ∧ (staleCursor i s).lnk.refused = s.lnk.refused ∧
      (staleCursor i s).lnk.events = s.lnk.events ∧ (staleCursor i s).lnk.recordMask = s.lnk.recordMask ∧
      (staleCursor i s).lnk.alertMask = s.lnk.alertMask ∧ (staleCursor i s).lnk.guard = s.lnk.guard ∧
      (staleCursor i s).lnk.resetTaken = s.lnk.resetTaken ∧ (staleCursor i s).rst = s.rst ∧
      (staleCursor i s).pending = s.pending := by
  simp only [staleCursor]; (repeat' split) <;> simp

@[simp] theorem resetEntry_frame (i q recId : Nat) (s : State) :
    (resetEntry i q recId s).now = s.now ∧ (resetEntry i q recId s).msu = s.msu ∧
      (resetEntry i q recId s).csu = s.csu ∧ (resetEntry i q recId s).ctx = s.ctx ∧
      (resetEntry i q recId s).adu = s.adu ∧ (resetEntry i q recId s).scn = s.scn ∧
      (resetEntry i q recId s).cbf = s.cbf ∧ (resetEntry i q recId s).sdr.geo = s.sdr.geo ∧
      (resetEntry i q recId s).sdr.queue = s.sdr.queue ∧ (resetEntry i q recId s).sdr.nextRec = s.sdr.nextRec ∧
      (resetEntry i q recId s).sdr.mark = s.sdr.mark ∧ (resetEntry i q recId s).cwr.writer = s.cwr.writer ∧
      (resetEntry i q recId s).cwr.recId = s.cwr.recId ∧ (resetEntry i q recId s).cwr.present = s.cwr.present ∧
      (resetEntry i q recId s).cwr.cdet = s.cwr.cdet ∧ (resetEntry i q recId s).ips = s.ips ∧
      (resetEntry i q recId s).chg = s.chg ∧ (resetEntry i q recId s).ssv = s.ssv ∧
      (resetEntry i q recId s).lnk.refused = s.lnk.refused ∧ (resetEntry i q recId s).lnk.events = s.lnk.events ∧
      (resetEntry i q recId s).lnk.recordMask = s.lnk.recordMask ∧
      (resetEntry i q recId s).lnk.alertMask = s.lnk.alertMask ∧ (resetEntry i q recId s).lnk.guard = s.lnk.guard ∧
      (resetEntry i q recId s).lnk.resetTaken = s.lnk.resetTaken ∧ (resetEntry i q recId s).rst = s.rst ∧
      (resetEntry i q recId s).pending = s.pending := by
  simp only [resetEntry]; (repeat' split) <;> simp

@[simp] theorem setImpact_frame (b : Bool) (i : Nat) (s : State) :
    (setImpact b i s).now = s.now ∧ (setImpact b i s).msu = s.msu ∧ (setImpact b i s).csu = s.csu ∧
      (setImpact b i s).ctx = s.ctx ∧ (setImpact b i s).adu = s.adu ∧ (setImpact b i s).scn = s.scn ∧
      (setImpact b i s).cbf = s.cbf ∧ (setImpact b i s).sdr.geo = s.sdr.geo ∧
      (setImpact b i s).sdr.queue = s.sdr.queue ∧ (setImpact b i s).sdr.nextSeq = s.sdr.nextSeq ∧
      (setImpact b i s).sdr.nextRec = s.sdr.nextRec ∧ (setImpact b i s).sdr.mark = s.sdr.mark ∧
      (setImpact b i s).cwr = s.cwr ∧ (setImpact b i s).ips = s.ips ∧ (setImpact b i s).chg = s.chg ∧
      (setImpact b i s).ssv = s.ssv ∧ (setImpact b i s).lnk = s.lnk ∧ (setImpact b i s).rst = s.rst ∧
      (setImpact b i s).pending = s.pending := by
  simp only [setImpact]; (repeat' split) <;> simp

@[simp] theorem releaseSlot_frame (i : Nat) (s : State) :
    (releaseSlot i s).now = s.now ∧ (releaseSlot i s).msu = s.msu ∧ (releaseSlot i s).csu = s.csu ∧
      (releaseSlot i s).ctx = s.ctx ∧ (releaseSlot i s).adu = s.adu ∧ (releaseSlot i s).scn = s.scn ∧
      (releaseSlot i s).cbf = s.cbf ∧ (releaseSlot i s).sdr.geo = s.sdr.geo ∧
      (releaseSlot i s).sdr.nextSeq = s.sdr.nextSeq ∧ (releaseSlot i s).sdr.nextRec = s.sdr.nextRec ∧
      (releaseSlot i s).sdr.mark = s.sdr.mark ∧ (releaseSlot i s).cwr = s.cwr ∧ (releaseSlot i s).ips = s.ips ∧
      (releaseSlot i s).chg = s.chg ∧ (releaseSlot i s).ssv = s.ssv ∧ (releaseSlot i s).lnk.req = s.lnk.req ∧
      (releaseSlot i s).lnk.reply = s.lnk.reply ∧ (releaseSlot i s).lnk.refused = s.lnk.refused ∧
      (releaseSlot i s).lnk.recordMask = s.lnk.recordMask ∧ (releaseSlot i s).lnk.alertMask = s.lnk.alertMask ∧
      (releaseSlot i s).lnk.guard = s.lnk.guard ∧ (releaseSlot i s).lnk.resetTaken = s.lnk.resetTaken ∧
      (releaseSlot i s).rst = s.rst ∧ (releaseSlot i s).pending = s.pending := by
  simp only [releaseSlot]; (repeat' split) <;> simp

@[simp] theorem lockSlot_frame (i : Nat) (s : State) :
    (lockSlot i s).now = s.now ∧ (lockSlot i s).msu = s.msu ∧ (lockSlot i s).csu = s.csu ∧
      (lockSlot i s).ctx = s.ctx ∧ (lockSlot i s).adu = s.adu ∧ (lockSlot i s).scn = s.scn ∧
      (lockSlot i s).cbf = s.cbf ∧ (lockSlot i s).sdr.geo = s.sdr.geo ∧
      (lockSlot i s).sdr.nextSeq = s.sdr.nextSeq ∧ (lockSlot i s).sdr.nextRec = s.sdr.nextRec ∧
      (lockSlot i s).sdr.mark = s.sdr.mark ∧ (lockSlot i s).cwr = s.cwr ∧ (lockSlot i s).ips = s.ips ∧
      (lockSlot i s).chg = s.chg ∧ (lockSlot i s).ssv = s.ssv ∧ (lockSlot i s).lnk = s.lnk ∧
      (lockSlot i s).rst = s.rst ∧ (lockSlot i s).pending = s.pending := by
  simp only [lockSlot]; (repeat' split) <;> simp

@[simp] theorem lockList_frame (cands l : List Nat) (s : State) :
    (lockList cands l s).now = s.now ∧ (lockList cands l s).msu = s.msu ∧ (lockList cands l s).csu = s.csu ∧
      (lockList cands l s).ctx = s.ctx ∧ (lockList cands l s).adu = s.adu ∧ (lockList cands l s).scn = s.scn ∧
      (lockList cands l s).cbf = s.cbf ∧ (lockList cands l s).sdr.geo = s.sdr.geo ∧
      (lockList cands l s).sdr.nextSeq = s.sdr.nextSeq ∧ (lockList cands l s).sdr.nextRec = s.sdr.nextRec ∧
      (lockList cands l s).sdr.mark = s.sdr.mark ∧ (lockList cands l s).cwr = s.cwr ∧
      (lockList cands l s).ips = s.ips ∧ (lockList cands l s).chg = s.chg ∧ (lockList cands l s).ssv = s.ssv ∧
      (lockList cands l s).lnk.req = s.lnk.req ∧ (lockList cands l s).lnk.reply = s.lnk.reply ∧
      (lockList cands l s).lnk.refused = s.lnk.refused ∧ (lockList cands l s).lnk.recordMask = s.lnk.recordMask ∧
      (lockList cands l s).lnk.alertMask = s.lnk.alertMask ∧ (lockList cands l s).lnk.guard = s.lnk.guard ∧
      (lockList cands l s).lnk.resetTaken = s.lnk.resetTaken ∧ (lockList cands l s).rst = s.rst ∧
      (lockList cands l s).pending = s.pending := by
  induction l generalizing s with
  | nil => simp [lockList]
  | cons i rest ih => simp only [lockList]; (repeat' split) <;> simp [ih]

@[simp] theorem setMark_frame (time : Word) (cands : List Nat) (post : Nat) (s : State) :
    (setMark time cands post s).now = s.now ∧ (setMark time cands post s).msu = s.msu ∧
      (setMark time cands post s).csu = s.csu ∧ (setMark time cands post s).ctx = s.ctx ∧
      (setMark time cands post s).adu = s.adu ∧ (setMark time cands post s).scn = s.scn ∧
      (setMark time cands post s).cbf = s.cbf ∧ (setMark time cands post s).sdr.geo = s.sdr.geo ∧
      (setMark time cands post s).sdr.entries = s.sdr.entries ∧
      (setMark time cands post s).sdr.queue = s.sdr.queue ∧
      (setMark time cands post s).sdr.nextSeq = s.sdr.nextSeq ∧
      (setMark time cands post s).sdr.nextRec = s.sdr.nextRec ∧ (setMark time cands post s).cwr = s.cwr ∧
      (setMark time cands post s).ips = s.ips ∧ (setMark time cands post s).chg = s.chg ∧
      (setMark time cands post s).ssv = s.ssv ∧ (setMark time cands post s).lnk = s.lnk ∧
      (setMark time cands post s).rst = s.rst ∧ (setMark time cands post s).pending = s.pending := by
  simp only [setMark]; (repeat' split) <;> simp

@[simp] theorem lockRequest_frame (time : Word) (pre post : Nat) (s : State) :
    (lockRequest time pre post s).1.now = s.now ∧ (lockRequest time pre post s).1.msu = s.msu ∧
      (lockRequest time pre post s).1.csu = s.csu ∧ (lockRequest time pre post s).1.ctx = s.ctx ∧
      (lockRequest time pre post s).1.adu = s.adu ∧ (lockRequest time pre post s).1.scn = s.scn ∧
      (lockRequest time pre post s).1.cbf = s.cbf ∧ (lockRequest time pre post s).1.sdr.geo = s.sdr.geo ∧
      (lockRequest time pre post s).1.sdr.nextSeq = s.sdr.nextSeq ∧
      (lockRequest time pre post s).1.sdr.nextRec = s.sdr.nextRec ∧ (lockRequest time pre post s).1.cwr = s.cwr ∧
      (lockRequest time pre post s).1.ips = s.ips ∧ (lockRequest time pre post s).1.chg = s.chg ∧
      (lockRequest time pre post s).1.ssv = s.ssv ∧ (lockRequest time pre post s).1.lnk.req = s.lnk.req ∧
      (lockRequest time pre post s).1.lnk.reply = s.lnk.reply ∧
      (lockRequest time pre post s).1.lnk.refused = s.lnk.refused ∧
      (lockRequest time pre post s).1.lnk.recordMask = s.lnk.recordMask ∧
      (lockRequest time pre post s).1.lnk.alertMask = s.lnk.alertMask ∧
      (lockRequest time pre post s).1.lnk.guard = s.lnk.guard ∧
      (lockRequest time pre post s).1.lnk.resetTaken = s.lnk.resetTaken ∧
      (lockRequest time pre post s).1.rst = s.rst ∧ (lockRequest time pre post s).1.pending = s.pending := by
  simp only [lockRequest]; (repeat' split) <;> simp

@[simp] theorem postRoll_frame (i : Nat) (s : State) :
    (postRoll i s).now = s.now ∧ (postRoll i s).msu = s.msu ∧ (postRoll i s).csu = s.csu ∧
      (postRoll i s).ctx = s.ctx ∧ (postRoll i s).adu = s.adu ∧ (postRoll i s).scn = s.scn ∧
      (postRoll i s).cbf = s.cbf ∧ (postRoll i s).sdr.geo = s.sdr.geo ∧
      (postRoll i s).sdr.nextSeq = s.sdr.nextSeq ∧ (postRoll i s).sdr.nextRec = s.sdr.nextRec ∧
      (postRoll i s).cwr = s.cwr ∧ (postRoll i s).ips = s.ips ∧ (postRoll i s).chg = s.chg ∧
      (postRoll i s).ssv = s.ssv ∧ (postRoll i s).lnk.req = s.lnk.req ∧ (postRoll i s).lnk.reply = s.lnk.reply ∧
      (postRoll i s).lnk.refused = s.lnk.refused ∧ (postRoll i s).lnk.recordMask = s.lnk.recordMask ∧
      (postRoll i s).lnk.alertMask = s.lnk.alertMask ∧ (postRoll i s).lnk.guard = s.lnk.guard ∧
      (postRoll i s).lnk.resetTaken = s.lnk.resetTaken ∧ (postRoll i s).rst = s.rst ∧
      (postRoll i s).pending = s.pending := by
  simp only [postRoll]; (repeat' split) <;> simp

@[simp] theorem releaseExcess_frame (n : Nat) (s : State) :
    (releaseExcess n s).1.now = s.now ∧ (releaseExcess n s).1.msu = s.msu ∧ (releaseExcess n s).1.csu = s.csu ∧
      (releaseExcess n s).1.ctx = s.ctx ∧ (releaseExcess n s).1.adu = s.adu ∧ (releaseExcess n s).1.scn = s.scn ∧
      (releaseExcess n s).1.cbf = s.cbf ∧ (releaseExcess n s).1.sdr.geo = s.sdr.geo ∧
      (releaseExcess n s).1.sdr.nextSeq = s.sdr.nextSeq ∧ (releaseExcess n s).1.sdr.nextRec = s.sdr.nextRec ∧
      (releaseExcess n s).1.sdr.mark = s.sdr.mark ∧ (releaseExcess n s).1.cwr = s.cwr ∧
      (releaseExcess n s).1.ips = s.ips ∧ (releaseExcess n s).1.chg = s.chg ∧ (releaseExcess n s).1.ssv = s.ssv ∧
      (releaseExcess n s).1.lnk.req = s.lnk.req ∧ (releaseExcess n s).1.lnk.reply = s.lnk.reply ∧
      (releaseExcess n s).1.lnk.refused = s.lnk.refused ∧ (releaseExcess n s).1.lnk.recordMask = s.lnk.recordMask ∧
      (releaseExcess n s).1.lnk.alertMask = s.lnk.alertMask ∧ (releaseExcess n s).1.lnk.guard = s.lnk.guard ∧
      (releaseExcess n s).1.lnk.resetTaken = s.lnk.resetTaken ∧ (releaseExcess n s).1.rst = s.rst ∧
      (releaseExcess n s).1.pending = s.pending := by
  induction n generalizing s with
  | zero => simp [releaseExcess]
  | succ m ih => simp only [releaseExcess]; (repeat' split) <;> simp [ih]

@[simp] theorem discardDirectory_frame (s : State) :
    (discardDirectory s).now = s.now ∧ (discardDirectory s).msu = s.msu ∧ (discardDirectory s).csu = s.csu ∧
      (discardDirectory s).ctx = s.ctx ∧ (discardDirectory s).adu = s.adu ∧ (discardDirectory s).scn = s.scn ∧
      (discardDirectory s).cbf = s.cbf ∧ (discardDirectory s).cwr.writer = s.cwr.writer ∧
      (discardDirectory s).cwr.recId = s.cwr.recId ∧ (discardDirectory s).cwr.port = s.cwr.port ∧
      (discardDirectory s).cwr.present = s.cwr.present ∧ (discardDirectory s).cwr.cdet = s.cwr.cdet ∧
      (discardDirectory s).ips = s.ips ∧ (discardDirectory s).chg = s.chg ∧ (discardDirectory s).ssv = s.ssv ∧
      (discardDirectory s).lnk = s.lnk ∧ (discardDirectory s).rst = s.rst ∧
      (discardDirectory s).pending = s.pending := by
  simp only [discardDirectory]; (repeat' split) <;> simp

@[simp] theorem admitRecord_frame (slot : Nat) (r : FrameRecord) (s : State) :
    (admitRecord slot r s).now = s.now ∧ (admitRecord slot r s).msu = s.msu ∧ (admitRecord slot r s).csu = s.csu ∧
      (admitRecord slot r s).ctx = s.ctx ∧ (admitRecord slot r s).adu = s.adu ∧
      (admitRecord slot r s).scn = s.scn ∧ (admitRecord slot r s).cbf.segs = s.cbf.segs ∧
      (admitRecord slot r s).sdr.geo = s.sdr.geo ∧ (admitRecord slot r s).sdr.queue = s.sdr.queue ∧
      (admitRecord slot r s).sdr.nextSeq = s.sdr.nextSeq ∧ (admitRecord slot r s).sdr.nextRec = s.sdr.nextRec ∧
      (admitRecord slot r s).sdr.mark = s.sdr.mark ∧ (admitRecord slot r s).cwr = s.cwr ∧
      (admitRecord slot r s).ips = s.ips ∧ (admitRecord slot r s).chg = s.chg ∧
      (admitRecord slot r s).ssv = s.ssv ∧ (admitRecord slot r s).lnk = s.lnk ∧
      (admitRecord slot r s).rst = s.rst ∧ (admitRecord slot r s).pending = s.pending := by
  simp only [admitRecord]; (repeat' split) <;> simp

@[simp] theorem dropRecord_frame (slot : Nat) (s : State) :
    (dropRecord slot s).now = s.now ∧ (dropRecord slot s).msu = s.msu ∧ (dropRecord slot s).csu = s.csu ∧
      (dropRecord slot s).ctx = s.ctx ∧ (dropRecord slot s).adu = s.adu ∧ (dropRecord slot s).scn = s.scn ∧
      (dropRecord slot s).cbf = s.cbf ∧ (dropRecord slot s).sdr.geo = s.sdr.geo ∧
      (dropRecord slot s).sdr.queue = s.sdr.queue ∧ (dropRecord slot s).sdr.nextSeq = s.sdr.nextSeq ∧
      (dropRecord slot s).sdr.nextRec = s.sdr.nextRec ∧ (dropRecord slot s).sdr.mark = s.sdr.mark ∧
      (dropRecord slot s).cwr = s.cwr ∧ (dropRecord slot s).ips = s.ips ∧ (dropRecord slot s).chg = s.chg ∧
      (dropRecord slot s).ssv = s.ssv ∧ (dropRecord slot s).lnk = s.lnk ∧ (dropRecord slot s).rst = s.rst ∧
      (dropRecord slot s).pending = s.pending := by
  simp only [dropRecord]; (repeat' split) <;> simp

@[simp] theorem intake_frame (r : FrameRecord) (s : State) :
    (intake r s).now = s.now ∧ (intake r s).msu = s.msu ∧ (intake r s).csu = s.csu ∧ (intake r s).ctx = s.ctx ∧
      (intake r s).adu = s.adu ∧ (intake r s).scn = s.scn ∧ (intake r s).cbf.segs = s.cbf.segs ∧
      (intake r s).sdr.geo = s.sdr.geo ∧ (intake r s).sdr.queue = s.sdr.queue ∧
      (intake r s).sdr.nextSeq = s.sdr.nextSeq ∧ (intake r s).sdr.nextRec = s.sdr.nextRec ∧
      (intake r s).sdr.mark = s.sdr.mark ∧ (intake r s).cwr = s.cwr ∧ (intake r s).ips = s.ips ∧
      (intake r s).chg = s.chg ∧ (intake r s).ssv = s.ssv ∧ (intake r s).lnk = s.lnk ∧ (intake r s).rst = s.rst ∧
      (intake r s).pending = s.pending := by
  simp only [intake]; (repeat' split) <;> simp

@[simp] theorem unitWritten_frame (slot real : Nat) (s : State) :
    (unitWritten slot real s).now = s.now ∧ (unitWritten slot real s).msu = s.msu ∧
      (unitWritten slot real s).csu = s.csu ∧ (unitWritten slot real s).ctx = s.ctx ∧
      (unitWritten slot real s).adu = s.adu ∧ (unitWritten slot real s).scn = s.scn ∧
      (unitWritten slot real s).cbf.pend = s.cbf.pend ∧ (unitWritten slot real s).sdr.geo = s.sdr.geo ∧
      (unitWritten slot real s).sdr.queue = s.sdr.queue ∧ (unitWritten slot real s).sdr.nextSeq = s.sdr.nextSeq ∧
      (unitWritten slot real s).sdr.nextRec = s.sdr.nextRec ∧ (unitWritten slot real s).sdr.mark = s.sdr.mark ∧
      (unitWritten slot real s).cwr = s.cwr ∧ (unitWritten slot real s).ips = s.ips ∧
      (unitWritten slot real s).chg = s.chg ∧ (unitWritten slot real s).ssv = s.ssv ∧
      (unitWritten slot real s).lnk = s.lnk ∧ (unitWritten slot real s).rst = s.rst ∧
      (unitWritten slot real s).pending = s.pending := by
  simp only [unitWritten]; (repeat' split) <;> simp

@[simp] theorem blockWritten_frame (slot real : Nat) (s : State) :
    (blockWritten slot real s).now = s.now ∧ (blockWritten slot real s).msu = s.msu ∧
      (blockWritten slot real s).csu = s.csu ∧ (blockWritten slot real s).ctx = s.ctx ∧
      (blockWritten slot real s).adu = s.adu ∧ (blockWritten slot real s).scn = s.scn ∧
      (blockWritten slot real s).cbf.segs = s.cbf.segs ∧ (blockWritten slot real s).sdr.geo = s.sdr.geo ∧
      (blockWritten slot real s).sdr.queue = s.sdr.queue ∧ (blockWritten slot real s).sdr.nextSeq = s.sdr.nextSeq ∧
      (blockWritten slot real s).sdr.nextRec = s.sdr.nextRec ∧ (blockWritten slot real s).sdr.mark = s.sdr.mark ∧
      (blockWritten slot real s).cwr = s.cwr ∧ (blockWritten slot real s).ips = s.ips ∧
      (blockWritten slot real s).chg = s.chg ∧ (blockWritten slot real s).ssv = s.ssv ∧
      (blockWritten slot real s).lnk = s.lnk ∧ (blockWritten slot real s).rst = s.rst ∧
      (blockWritten slot real s).pending = s.pending := by
  simp only [blockWritten]; (repeat' split) <;> simp

@[simp] theorem addLost_frame (slot n : Nat) (s : State) :
    (addLost slot n s).now = s.now ∧ (addLost slot n s).msu = s.msu ∧ (addLost slot n s).csu = s.csu ∧
      (addLost slot n s).ctx = s.ctx ∧ (addLost slot n s).adu = s.adu ∧ (addLost slot n s).scn = s.scn ∧
      (addLost slot n s).cbf = s.cbf ∧ (addLost slot n s).sdr.geo = s.sdr.geo ∧
      (addLost slot n s).sdr.queue = s.sdr.queue ∧ (addLost slot n s).sdr.nextSeq = s.sdr.nextSeq ∧
      (addLost slot n s).sdr.nextRec = s.sdr.nextRec ∧ (addLost slot n s).sdr.mark = s.sdr.mark ∧
      (addLost slot n s).cwr = s.cwr ∧ (addLost slot n s).ips = s.ips ∧ (addLost slot n s).chg = s.chg ∧
      (addLost slot n s).ssv = s.ssv ∧ (addLost slot n s).lnk = s.lnk ∧ (addLost slot n s).rst = s.rst ∧
      (addLost slot n s).pending = s.pending := by
  simp only [addLost]; (repeat' split) <;> simp

@[simp] theorem loseSegment_frame (slot : Nat) (s : State) :
    (loseSegment slot s).now = s.now ∧ (loseSegment slot s).msu = s.msu ∧ (loseSegment slot s).csu = s.csu ∧
      (loseSegment slot s).ctx = s.ctx ∧ (loseSegment slot s).adu = s.adu ∧ (loseSegment slot s).scn = s.scn ∧
      (loseSegment slot s).cbf.pend = s.cbf.pend ∧ (loseSegment slot s).sdr.geo = s.sdr.geo ∧
      (loseSegment slot s).sdr.queue = s.sdr.queue ∧ (loseSegment slot s).sdr.nextSeq = s.sdr.nextSeq ∧
      (loseSegment slot s).sdr.nextRec = s.sdr.nextRec ∧ (loseSegment slot s).sdr.mark = s.sdr.mark ∧
      (loseSegment slot s).cwr = s.cwr ∧ (loseSegment slot s).ips = s.ips ∧ (loseSegment slot s).chg = s.chg ∧
      (loseSegment slot s).ssv = s.ssv ∧ (loseSegment slot s).lnk = s.lnk ∧ (loseSegment slot s).rst = s.rst ∧
      (loseSegment slot s).pending = s.pending := by
  simp only [loseSegment]; (repeat' split) <;> simp

@[simp] theorem loseRecords_frame (slot : Nat) (s : State) :
    (loseRecords slot s).now = s.now ∧ (loseRecords slot s).msu = s.msu ∧ (loseRecords slot s).csu = s.csu ∧
      (loseRecords slot s).ctx = s.ctx ∧ (loseRecords slot s).adu = s.adu ∧ (loseRecords slot s).scn = s.scn ∧
      (loseRecords slot s).cbf.segs = s.cbf.segs ∧ (loseRecords slot s).sdr.geo = s.sdr.geo ∧
      (loseRecords slot s).sdr.queue = s.sdr.queue ∧ (loseRecords slot s).sdr.nextSeq = s.sdr.nextSeq ∧
      (loseRecords slot s).sdr.nextRec = s.sdr.nextRec ∧ (loseRecords slot s).sdr.mark = s.sdr.mark ∧
      (loseRecords slot s).cwr = s.cwr ∧ (loseRecords slot s).ips = s.ips ∧ (loseRecords slot s).chg = s.chg ∧
      (loseRecords slot s).ssv = s.ssv ∧ (loseRecords slot s).lnk = s.lnk ∧ (loseRecords slot s).rst = s.rst ∧
      (loseRecords slot s).pending = s.pending := by
  simp only [loseRecords]; (repeat' split) <;> simp

@[simp] theorem discardBuffer_frame (s : State) :
    (discardBuffer s).now = s.now ∧ (discardBuffer s).msu = s.msu ∧ (discardBuffer s).csu = s.csu ∧
      (discardBuffer s).ctx = s.ctx ∧ (discardBuffer s).adu = s.adu ∧ (discardBuffer s).scn = s.scn ∧
      (discardBuffer s).sdr = s.sdr ∧ (discardBuffer s).cwr.writer = s.cwr.writer ∧
      (discardBuffer s).cwr.recId = s.cwr.recId ∧ (discardBuffer s).cwr.port = s.cwr.port ∧
      (discardBuffer s).cwr.cursor = s.cwr.cursor ∧ (discardBuffer s).cwr.present = s.cwr.present ∧
      (discardBuffer s).cwr.cdet = s.cwr.cdet ∧ (discardBuffer s).ips = s.ips ∧ (discardBuffer s).chg = s.chg ∧
      (discardBuffer s).ssv = s.ssv ∧ (discardBuffer s).lnk = s.lnk ∧ (discardBuffer s).rst = s.rst ∧
      (discardBuffer s).pending = s.pending := by
  simp only [discardBuffer]; (repeat' split) <;> simp

@[simp] theorem supplyEvent_frame (kind : SupplyKind) (before : Supply) (started : Bool) (budget : Nat) (s : State) :
    (supplyEvent kind before started budget s).now = s.now ∧
      (supplyEvent kind before started budget s).msu = s.msu ∧
      (supplyEvent kind before started budget s).csu = s.csu ∧
      (supplyEvent kind before started budget s).ctx = s.ctx ∧
      (supplyEvent kind before started budget s).adu = s.adu ∧
      (supplyEvent kind before started budget s).scn = s.scn ∧
      (supplyEvent kind before started budget s).cbf = s.cbf ∧
      (supplyEvent kind before started budget s).sdr = s.sdr ∧
      (supplyEvent kind before started budget s).cwr = s.cwr ∧
      (supplyEvent kind before started budget s).ips = s.ips ∧
      (supplyEvent kind before started budget s).chg = s.chg ∧
      (supplyEvent kind before started budget s).ssv = s.ssv ∧
      (supplyEvent kind before started budget s).lnk.req = s.lnk.req ∧
      (supplyEvent kind before started budget s).lnk.reply = s.lnk.reply ∧
      (supplyEvent kind before started budget s).lnk.refused = s.lnk.refused ∧
      (supplyEvent kind before started budget s).lnk.recordMask = s.lnk.recordMask ∧
      (supplyEvent kind before started budget s).lnk.alertMask = s.lnk.alertMask ∧
      (supplyEvent kind before started budget s).lnk.guard = s.lnk.guard ∧
      (supplyEvent kind before started budget s).lnk.resetTaken = s.lnk.resetTaken ∧
      (supplyEvent kind before started budget s).rst = s.rst ∧
      (supplyEvent kind before started budget s).pending = s.pending := by
  simp only [supplyEvent]; (repeat' split) <;> simp

@[simp] theorem addSupply_frame (s : State) :
    (addSupply s).now = s.now ∧ (addSupply s).msu = s.msu ∧ (addSupply s).csu.offset = s.csu.offset ∧
      (addSupply s).csu.frame = s.csu.frame ∧ (addSupply s).csu.sample = s.csu.sample ∧
      (addSupply s).csu.carried = s.csu.carried ∧ (addSupply s).csu.ring = s.csu.ring ∧ (addSupply s).ctx = s.ctx ∧
      (addSupply s).scn = s.scn ∧ (addSupply s).cbf = s.cbf ∧ (addSupply s).sdr = s.sdr ∧
      (addSupply s).cwr = s.cwr ∧ (addSupply s).ips = s.ips ∧ (addSupply s).ssv = s.ssv ∧
      (addSupply s).lnk.req = s.lnk.req ∧ (addSupply s).lnk.reply = s.lnk.reply ∧
      (addSupply s).lnk.refused = s.lnk.refused ∧ (addSupply s).lnk.recordMask = s.lnk.recordMask ∧
      (addSupply s).lnk.alertMask = s.lnk.alertMask ∧ (addSupply s).lnk.guard = s.lnk.guard ∧
      (addSupply s).lnk.resetTaken = s.lnk.resetTaken ∧ (addSupply s).rst = s.rst ∧
      (addSupply s).pending = s.pending := by
  simp only [addSupply]; (repeat' split) <;> simp

@[simp] theorem removeSupply_frame (s : State) :
    (removeSupply s).now = s.now ∧ (removeSupply s).msu = s.msu ∧ (removeSupply s).csu = s.csu ∧
      (removeSupply s).ctx = s.ctx ∧ (removeSupply s).scn = s.scn ∧ (removeSupply s).cbf = s.cbf ∧
      (removeSupply s).sdr = s.sdr ∧ (removeSupply s).cwr = s.cwr ∧ (removeSupply s).ips = s.ips ∧
      (removeSupply s).ssv = s.ssv ∧ (removeSupply s).lnk.req = s.lnk.req ∧
      (removeSupply s).lnk.reply = s.lnk.reply ∧ (removeSupply s).lnk.refused = s.lnk.refused ∧
      (removeSupply s).lnk.recordMask = s.lnk.recordMask ∧ (removeSupply s).lnk.alertMask = s.lnk.alertMask ∧
      (removeSupply s).lnk.guard = s.lnk.guard ∧ (removeSupply s).lnk.resetTaken = s.lnk.resetTaken ∧
      (removeSupply s).rst = s.rst ∧ (removeSupply s).pending = s.pending := by
  simp only [removeSupply]; (repeat' split) <;> simp

@[simp] theorem toNormal_frame (kind : SupplyKind) (s : State) :
    (toNormal kind s).now = s.now ∧ (toNormal kind s).msu = s.msu ∧ (toNormal kind s).csu = s.csu ∧
      (toNormal kind s).ctx = s.ctx ∧ (toNormal kind s).scn = s.scn ∧ (toNormal kind s).cbf = s.cbf ∧
      (toNormal kind s).sdr = s.sdr ∧ (toNormal kind s).cwr = s.cwr ∧ (toNormal kind s).ips = s.ips ∧
      (toNormal kind s).ssv.stable = s.ssv.stable ∧ (toNormal kind s).ssv.rideMs = s.ssv.rideMs ∧
      (toNormal kind s).ssv.budget = s.ssv.budget ∧ (toNormal kind s).ssv.rail = s.ssv.rail ∧
      (toNormal kind s).ssv.close = s.ssv.close ∧ (toNormal kind s).lnk.req = s.lnk.req ∧
      (toNormal kind s).lnk.reply = s.lnk.reply ∧ (toNormal kind s).lnk.refused = s.lnk.refused ∧
      (toNormal kind s).lnk.recordMask = s.lnk.recordMask ∧ (toNormal kind s).lnk.alertMask = s.lnk.alertMask ∧
      (toNormal kind s).lnk.guard = s.lnk.guard ∧ (toNormal kind s).lnk.resetTaken = s.lnk.resetTaken ∧
      (toNormal kind s).rst = s.rst ∧ (toNormal kind s).pending = s.pending := by
  simp only [toNormal]; (repeat' split) <;> simp

@[simp] theorem startRide_frame (s : State) :
    (startRide s).now = s.now ∧ (startRide s).msu = s.msu ∧ (startRide s).csu.offset = s.csu.offset ∧
      (startRide s).csu.frame = s.csu.frame ∧ (startRide s).csu.sample = s.csu.sample ∧
      (startRide s).csu.carried = s.csu.carried ∧ (startRide s).csu.ring = s.csu.ring ∧ (startRide s).ctx = s.ctx ∧
      (startRide s).scn = s.scn ∧ (startRide s).cbf = s.cbf ∧ (startRide s).sdr = s.sdr ∧
      (startRide s).cwr = s.cwr ∧ (startRide s).ips = s.ips ∧ (startRide s).ssv.stable = s.ssv.stable ∧
      (startRide s).ssv.rideMs = s.ssv.rideMs ∧ (startRide s).ssv.budget = s.ssv.budget ∧
      (startRide s).ssv.rail = s.ssv.rail ∧ (startRide s).ssv.close = s.ssv.close ∧
      (startRide s).lnk.req = s.lnk.req ∧ (startRide s).lnk.reply = s.lnk.reply ∧
      (startRide s).lnk.refused = s.lnk.refused ∧ (startRide s).lnk.recordMask = s.lnk.recordMask ∧
      (startRide s).lnk.alertMask = s.lnk.alertMask ∧ (startRide s).lnk.guard = s.lnk.guard ∧
      (startRide s).lnk.resetTaken = s.lnk.resetTaken ∧ (startRide s).rst = s.rst ∧
      (startRide s).pending = s.pending := by
  simp only [startRide]; (repeat' split) <;> simp

@[simp] theorem checkStable_frame (s : State) :
    (checkStable s).now = s.now ∧ (checkStable s).msu = s.msu ∧ (checkStable s).csu = s.csu ∧
      (checkStable s).ctx = s.ctx ∧ (checkStable s).scn = s.scn ∧ (checkStable s).cbf = s.cbf ∧
      (checkStable s).sdr = s.sdr ∧ (checkStable s).cwr = s.cwr ∧ (checkStable s).ips = s.ips ∧
      (checkStable s).ssv.stable = s.ssv.stable ∧ (checkStable s).ssv.rideMs = s.ssv.rideMs ∧
      (checkStable s).ssv.budget = s.ssv.budget ∧ (checkStable s).ssv.rail = s.ssv.rail ∧
      (checkStable s).ssv.close = s.ssv.close ∧ (checkStable s).lnk.req = s.lnk.req ∧
      (checkStable s).lnk.reply = s.lnk.reply ∧ (checkStable s).lnk.refused = s.lnk.refused ∧
      (checkStable s).lnk.recordMask = s.lnk.recordMask ∧ (checkStable s).lnk.alertMask = s.lnk.alertMask ∧
      (checkStable s).lnk.guard = s.lnk.guard ∧ (checkStable s).lnk.resetTaken = s.lnk.resetTaken ∧
      (checkStable s).rst = s.rst ∧ (checkStable s).pending = s.pending := by
  simp only [checkStable]; (repeat' split) <;> simp

end Sys2Proof.Machine
end

