-- ==== Sys2Proof/Laws/Frames2.lean ====
section
/-! SUPPORT. What each shared operation leaves unchanged: one lemma an operation (card, contexts, frames, motion, supply, guard), for `simp`. -/

set_option linter.unusedTactic false
set_option linter.unnecessarySeqFocus false
set_option linter.unreachableTactic false

namespace Sys2Proof.Machine

@[simp] theorem setWriter_frame (w : Writer) (s : State) :
    (setWriter w s).now = s.now ∧ (setWriter w s).msu = s.msu ∧ (setWriter w s).csu = s.csu ∧
      (setWriter w s).ctx = s.ctx ∧ (setWriter w s).adu = s.adu ∧ (setWriter w s).scn = s.scn ∧
      (setWriter w s).cbf = s.cbf ∧ (setWriter w s).sdr.geo = s.sdr.geo ∧
      (setWriter w s).sdr.entries = s.sdr.entries ∧ (setWriter w s).sdr.queue = s.sdr.queue ∧
      (setWriter w s).sdr.nextSeq = s.sdr.nextSeq ∧ (setWriter w s).sdr.nextRec = s.sdr.nextRec ∧
      (setWriter w s).cwr.recId = s.cwr.recId ∧ (setWriter w s).cwr.port = s.cwr.port ∧
      (setWriter w s).cwr.cursor = s.cwr.cursor ∧ (setWriter w s).cwr.present = s.cwr.present ∧
      (setWriter w s).cwr.cdet = s.cwr.cdet ∧ (setWriter w s).ips = s.ips ∧ (setWriter w s).chg = s.chg ∧
      (setWriter w s).ssv = s.ssv ∧ (setWriter w s).lnk = s.lnk ∧ (setWriter w s).rst = s.rst ∧
      (setWriter w s).pending = s.pending := by
  simp only [setWriter]; (repeat' split) <;> simp

@[simp] theorem setPort_frame (t : Option Transfer) (s : State) :
    (setPort t s).now = s.now ∧ (setPort t s).msu = s.msu ∧ (setPort t s).csu = s.csu ∧ (setPort t s).ctx = s.ctx ∧
      (setPort t s).adu = s.adu ∧ (setPort t s).scn = s.scn ∧ (setPort t s).cbf = s.cbf ∧
      (setPort t s).sdr = s.sdr ∧ (setPort t s).cwr.writer = s.cwr.writer ∧ (setPort t s).cwr.recId = s.cwr.recId ∧
      (setPort t s).cwr.cursor = s.cwr.cursor ∧ (setPort t s).cwr.present = s.cwr.present ∧
      (setPort t s).cwr.cdet = s.cwr.cdet ∧ (setPort t s).ips = s.ips ∧ (setPort t s).chg = s.chg ∧
      (setPort t s).ssv = s.ssv ∧ (setPort t s).lnk = s.lnk ∧ (setPort t s).rst = s.rst ∧
      (setPort t s).pending = s.pending := by
  simp only [setPort]; (repeat' split) <;> simp

@[simp] theorem begin_frame (op : Xfer) (addr blocks : Nat) (bytes : List Byte) (s : State) :
    (begin op addr blocks bytes s).now = s.now ∧ (begin op addr blocks bytes s).msu = s.msu ∧
      (begin op addr blocks bytes s).csu = s.csu ∧ (begin op addr blocks bytes s).ctx = s.ctx ∧
      (begin op addr blocks bytes s).adu = s.adu ∧ (begin op addr blocks bytes s).scn = s.scn ∧
      (begin op addr blocks bytes s).cbf = s.cbf ∧ (begin op addr blocks bytes s).sdr = s.sdr ∧
      (begin op addr blocks bytes s).cwr.writer = s.cwr.writer ∧
      (begin op addr blocks bytes s).cwr.recId = s.cwr.recId ∧
      (begin op addr blocks bytes s).cwr.cursor = s.cwr.cursor ∧
      (begin op addr blocks bytes s).cwr.present = s.cwr.present ∧
      (begin op addr blocks bytes s).cwr.cdet = s.cwr.cdet ∧ (begin op addr blocks bytes s).ips = s.ips ∧
      (begin op addr blocks bytes s).chg = s.chg ∧ (begin op addr blocks bytes s).ssv = s.ssv ∧
      (begin op addr blocks bytes s).lnk = s.lnk ∧ (begin op addr blocks bytes s).rst = s.rst ∧
      (begin op addr blocks bytes s).pending = s.pending := by
  simp only [begin]; (repeat' split) <;> simp

@[simp] theorem beginHeader_frame (op : Xfer) (i : Nat) (bytes : Geometry → Entry → List Byte) (s : State) :
    (beginHeader op i bytes s).now = s.now ∧ (beginHeader op i bytes s).msu = s.msu ∧
      (beginHeader op i bytes s).csu = s.csu ∧ (beginHeader op i bytes s).ctx = s.ctx ∧
      (beginHeader op i bytes s).adu = s.adu ∧ (beginHeader op i bytes s).scn = s.scn ∧
      (beginHeader op i bytes s).cbf = s.cbf ∧ (beginHeader op i bytes s).sdr = s.sdr ∧
      (beginHeader op i bytes s).cwr.writer = s.cwr.writer ∧ (beginHeader op i bytes s).cwr.recId = s.cwr.recId ∧
      (beginHeader op i bytes s).cwr.cursor = s.cwr.cursor ∧
      (beginHeader op i bytes s).cwr.present = s.cwr.present ∧ (beginHeader op i bytes s).cwr.cdet = s.cwr.cdet ∧
      (beginHeader op i bytes s).ips = s.ips ∧ (beginHeader op i bytes s).chg = s.chg ∧
      (beginHeader op i bytes s).ssv = s.ssv ∧ (beginHeader op i bytes s).lnk = s.lnk ∧
      (beginHeader op i bytes s).rst = s.rst ∧ (beginHeader op i bytes s).pending = s.pending := by
  simp only [beginHeader, withGeo]; (repeat' split) <;> simp

@[simp] theorem beginUnit_frame (op : Xfer) (o : Offer) (s : State) :
    (beginUnit op o s).now = s.now ∧ (beginUnit op o s).msu = s.msu ∧
      (beginUnit op o s).csu = s.csu ∧ (beginUnit op o s).ctx = s.ctx ∧
      (beginUnit op o s).adu = s.adu ∧ (beginUnit op o s).scn = s.scn ∧
      (beginUnit op o s).cbf = s.cbf ∧ (beginUnit op o s).sdr = s.sdr ∧
      (beginUnit op o s).cwr.writer = s.cwr.writer ∧ (beginUnit op o s).cwr.recId = s.cwr.recId ∧
      (beginUnit op o s).cwr.cursor = s.cwr.cursor ∧ (beginUnit op o s).cwr.present = s.cwr.present ∧
      (beginUnit op o s).cwr.cdet = s.cwr.cdet ∧ (beginUnit op o s).ips = s.ips ∧
      (beginUnit op o s).chg = s.chg ∧ (beginUnit op o s).ssv = s.ssv ∧
      (beginUnit op o s).lnk = s.lnk ∧ (beginUnit op o s).rst = s.rst ∧
      (beginUnit op o s).pending = s.pending := by
  simp only [beginUnit, withGeo]; (repeat' split) <;> simp

@[simp] theorem beginBlock_frame (op : Xfer) (o : Offer) (s : State) :
    (beginBlock op o s).now = s.now ∧ (beginBlock op o s).msu = s.msu ∧
      (beginBlock op o s).csu = s.csu ∧ (beginBlock op o s).ctx = s.ctx ∧
      (beginBlock op o s).adu = s.adu ∧ (beginBlock op o s).scn = s.scn ∧
      (beginBlock op o s).cbf = s.cbf ∧ (beginBlock op o s).sdr = s.sdr ∧
      (beginBlock op o s).cwr.writer = s.cwr.writer ∧ (beginBlock op o s).cwr.recId = s.cwr.recId ∧
      (beginBlock op o s).cwr.cursor = s.cwr.cursor ∧ (beginBlock op o s).cwr.present = s.cwr.present ∧
      (beginBlock op o s).cwr.cdet = s.cwr.cdet ∧ (beginBlock op o s).ips = s.ips ∧
      (beginBlock op o s).chg = s.chg ∧ (beginBlock op o s).ssv = s.ssv ∧
      (beginBlock op o s).lnk = s.lnk ∧ (beginBlock op o s).rst = s.rst ∧
      (beginBlock op o s).pending = s.pending := by
  simp only [beginBlock, withGeo]; (repeat' split) <;> simp

@[simp] theorem beginHostRead_frame (i k number : Nat) (s : State) :
    (beginHostRead i k number s).now = s.now ∧ (beginHostRead i k number s).msu = s.msu ∧
      (beginHostRead i k number s).csu = s.csu ∧ (beginHostRead i k number s).ctx = s.ctx ∧
      (beginHostRead i k number s).adu = s.adu ∧ (beginHostRead i k number s).scn = s.scn ∧
      (beginHostRead i k number s).cbf = s.cbf ∧ (beginHostRead i k number s).sdr = s.sdr ∧
      (beginHostRead i k number s).cwr.writer = s.cwr.writer ∧
      (beginHostRead i k number s).cwr.recId = s.cwr.recId ∧
      (beginHostRead i k number s).cwr.cursor = s.cwr.cursor ∧
      (beginHostRead i k number s).cwr.present = s.cwr.present ∧
      (beginHostRead i k number s).cwr.cdet = s.cwr.cdet ∧ (beginHostRead i k number s).ips = s.ips ∧
      (beginHostRead i k number s).chg = s.chg ∧ (beginHostRead i k number s).ssv = s.ssv ∧
      (beginHostRead i k number s).lnk = s.lnk ∧ (beginHostRead i k number s).rst = s.rst ∧
      (beginHostRead i k number s).pending = s.pending := by
  simp only [beginHostRead, withGeo]; (repeat' split) <;> simp

@[simp] theorem refreshOffers_frame (s : State) :
    (refreshOffers s).now = s.now ∧ (refreshOffers s).msu = s.msu ∧ (refreshOffers s).csu = s.csu ∧
      (refreshOffers s).ctx = s.ctx ∧ (refreshOffers s).adu = s.adu ∧ (refreshOffers s).scn = s.scn ∧
      (refreshOffers s).cbf = s.cbf ∧ (refreshOffers s).sdr = s.sdr ∧ (refreshOffers s).cwr.writer = s.cwr.writer ∧
      (refreshOffers s).cwr.recId = s.cwr.recId ∧ (refreshOffers s).cwr.port = s.cwr.port ∧
      (refreshOffers s).cwr.cursor = s.cwr.cursor ∧ (refreshOffers s).cwr.present = s.cwr.present ∧
      (refreshOffers s).cwr.cdet = s.cwr.cdet ∧ (refreshOffers s).ips = s.ips ∧ (refreshOffers s).chg = s.chg ∧
      (refreshOffers s).ssv = s.ssv ∧ (refreshOffers s).lnk = s.lnk ∧ (refreshOffers s).rst = s.rst ∧
      (refreshOffers s).pending = s.pending := by
  simp only [refreshOffers]; (repeat' split) <;> simp

@[simp] theorem unitTaken_frame (s : State) :
    (unitTaken s).now = s.now ∧ (unitTaken s).msu = s.msu ∧ (unitTaken s).csu = s.csu ∧ (unitTaken s).ctx = s.ctx ∧
      (unitTaken s).adu = s.adu ∧ (unitTaken s).scn = s.scn ∧ (unitTaken s).cbf = s.cbf ∧
      (unitTaken s).sdr = s.sdr ∧ (unitTaken s).cwr.writer = s.cwr.writer ∧ (unitTaken s).cwr.recId = s.cwr.recId ∧
      (unitTaken s).cwr.port = s.cwr.port ∧ (unitTaken s).cwr.cursor = s.cwr.cursor ∧
      (unitTaken s).cwr.present = s.cwr.present ∧ (unitTaken s).cwr.cdet = s.cwr.cdet ∧ (unitTaken s).ips = s.ips ∧
      (unitTaken s).chg = s.chg ∧ (unitTaken s).ssv = s.ssv ∧ (unitTaken s).lnk = s.lnk ∧
      (unitTaken s).rst = s.rst ∧ (unitTaken s).pending = s.pending := by
  simp only [unitTaken]; (repeat' split) <;> simp

@[simp] theorem blockTaken_frame (s : State) :
    (blockTaken s).now = s.now ∧ (blockTaken s).msu = s.msu ∧ (blockTaken s).csu = s.csu ∧
      (blockTaken s).ctx = s.ctx ∧ (blockTaken s).adu = s.adu ∧ (blockTaken s).scn = s.scn ∧
      (blockTaken s).cbf = s.cbf ∧ (blockTaken s).sdr = s.sdr ∧ (blockTaken s).cwr.writer = s.cwr.writer ∧
      (blockTaken s).cwr.recId = s.cwr.recId ∧ (blockTaken s).cwr.port = s.cwr.port ∧
      (blockTaken s).cwr.cursor = s.cwr.cursor ∧ (blockTaken s).cwr.present = s.cwr.present ∧
      (blockTaken s).cwr.cdet = s.cwr.cdet ∧ (blockTaken s).ips = s.ips ∧ (blockTaken s).chg = s.chg ∧
      (blockTaken s).ssv = s.ssv ∧ (blockTaken s).lnk = s.lnk ∧ (blockTaken s).rst = s.rst ∧
      (blockTaken s).pending = s.pending := by
  simp only [blockTaken]; (repeat' split) <;> simp

@[simp] theorem countRun_frame (s : State) :
    (countRun s).now = s.now ∧ (countRun s).msu = s.msu ∧ (countRun s).csu = s.csu ∧ (countRun s).ctx = s.ctx ∧
      (countRun s).adu = s.adu ∧ (countRun s).scn = s.scn ∧ (countRun s).cbf = s.cbf ∧ (countRun s).sdr = s.sdr ∧
      (countRun s).cwr.writer = s.cwr.writer ∧ (countRun s).cwr.recId = s.cwr.recId ∧
      (countRun s).cwr.port = s.cwr.port ∧ (countRun s).cwr.cursor = s.cwr.cursor ∧
      (countRun s).cwr.present = s.cwr.present ∧ (countRun s).cwr.cdet = s.cwr.cdet ∧ (countRun s).ips = s.ips ∧
      (countRun s).chg = s.chg ∧ (countRun s).ssv = s.ssv ∧ (countRun s).lnk = s.lnk ∧ (countRun s).rst = s.rst ∧
      (countRun s).pending = s.pending := by
  simp only [countRun]; (repeat' split) <;> simp

@[simp] theorem clearRun_frame (s : State) :
    (clearRun s).now = s.now ∧ (clearRun s).msu = s.msu ∧ (clearRun s).csu = s.csu ∧ (clearRun s).ctx = s.ctx ∧
      (clearRun s).adu = s.adu ∧ (clearRun s).scn = s.scn ∧ (clearRun s).cbf = s.cbf ∧ (clearRun s).sdr = s.sdr ∧
      (clearRun s).cwr.writer = s.cwr.writer ∧ (clearRun s).cwr.recId = s.cwr.recId ∧
      (clearRun s).cwr.port = s.cwr.port ∧ (clearRun s).cwr.cursor = s.cwr.cursor ∧
      (clearRun s).cwr.present = s.cwr.present ∧ (clearRun s).cwr.cdet = s.cwr.cdet ∧ (clearRun s).ips = s.ips ∧
      (clearRun s).chg = s.chg ∧ (clearRun s).ssv = s.ssv ∧ (clearRun s).lnk = s.lnk ∧ (clearRun s).rst = s.rst ∧
      (clearRun s).pending = s.pending := by
  simp only [clearRun]; (repeat' split) <;> simp

@[simp] theorem grantUnit_frame (o : Offer) (s : State) :
    (grantUnit o s).now = s.now ∧ (grantUnit o s).msu = s.msu ∧ (grantUnit o s).csu = s.csu ∧
      (grantUnit o s).ctx = s.ctx ∧ (grantUnit o s).adu = s.adu ∧ (grantUnit o s).scn = s.scn ∧
      (grantUnit o s).cbf = s.cbf ∧ (grantUnit o s).sdr = s.sdr ∧ (grantUnit o s).cwr.writer = s.cwr.writer ∧
      (grantUnit o s).cwr.recId = s.cwr.recId ∧ (grantUnit o s).cwr.cursor = s.cwr.cursor ∧
      (grantUnit o s).cwr.present = s.cwr.present ∧ (grantUnit o s).cwr.cdet = s.cwr.cdet ∧
      (grantUnit o s).ips = s.ips ∧ (grantUnit o s).chg = s.chg ∧ (grantUnit o s).ssv = s.ssv ∧
      (grantUnit o s).lnk = s.lnk ∧ (grantUnit o s).rst = s.rst ∧ (grantUnit o s).pending = s.pending := by
  simp only [grantUnit]; (repeat' split) <;> simp

@[simp] theorem grantBlock_frame (o : Offer) (s : State) :
    (grantBlock o s).now = s.now ∧ (grantBlock o s).msu = s.msu ∧ (grantBlock o s).csu = s.csu ∧
      (grantBlock o s).ctx = s.ctx ∧ (grantBlock o s).adu = s.adu ∧ (grantBlock o s).scn = s.scn ∧
      (grantBlock o s).cbf = s.cbf ∧ (grantBlock o s).sdr = s.sdr ∧
      (grantBlock o s).cwr.writer = s.cwr.writer ∧ (grantBlock o s).cwr.recId = s.cwr.recId ∧
      (grantBlock o s).cwr.cursor = s.cwr.cursor ∧ (grantBlock o s).cwr.present = s.cwr.present ∧
      (grantBlock o s).cwr.cdet = s.cwr.cdet ∧ (grantBlock o s).ips = s.ips ∧ (grantBlock o s).chg = s.chg ∧
      (grantBlock o s).ssv = s.ssv ∧ (grantBlock o s).lnk = s.lnk ∧ (grantBlock o s).rst = s.rst ∧
      (grantBlock o s).pending = s.pending := by
  simp only [grantBlock]; (repeat' split) <;> simp

@[simp] theorem grantRead_frame (s : State) :
    (grantRead s).now = s.now ∧ (grantRead s).msu = s.msu ∧ (grantRead s).csu = s.csu ∧ (grantRead s).ctx = s.ctx ∧
      (grantRead s).adu = s.adu ∧ (grantRead s).scn = s.scn ∧ (grantRead s).cbf = s.cbf ∧
      (grantRead s).sdr = s.sdr ∧ (grantRead s).cwr.writer = s.cwr.writer ∧ (grantRead s).cwr.recId = s.cwr.recId ∧
      (grantRead s).cwr.cursor = s.cwr.cursor ∧ (grantRead s).cwr.present = s.cwr.present ∧
      (grantRead s).cwr.cdet = s.cwr.cdet ∧ (grantRead s).ips = s.ips ∧ (grantRead s).chg = s.chg ∧
      (grantRead s).ssv = s.ssv ∧ (grantRead s).lnk = s.lnk ∧ (grantRead s).rst = s.rst ∧
      (grantRead s).pending = s.pending := by
  simp only [grantRead]; (repeat' split) <;> simp

@[simp] theorem grantData_frame (s : State) :
    (grantData s).now = s.now ∧ (grantData s).msu = s.msu ∧ (grantData s).csu = s.csu ∧ (grantData s).ctx = s.ctx ∧
      (grantData s).adu = s.adu ∧ (grantData s).scn = s.scn ∧ (grantData s).cbf = s.cbf ∧
      (grantData s).sdr = s.sdr ∧ (grantData s).cwr.writer = s.cwr.writer ∧ (grantData s).cwr.recId = s.cwr.recId ∧
      (grantData s).cwr.cursor = s.cwr.cursor ∧ (grantData s).cwr.present = s.cwr.present ∧
      (grantData s).cwr.cdet = s.cwr.cdet ∧ (grantData s).ips = s.ips ∧ (grantData s).chg = s.chg ∧
      (grantData s).ssv = s.ssv ∧ (grantData s).lnk = s.lnk ∧ (grantData s).rst = s.rst ∧
      (grantData s).pending = s.pending := by
  simp only [grantData]; (repeat' split) <;> simp

@[simp] theorem grantClosed_frame (i : Nat) (s : State) :
    (grantClosed i s).now = s.now ∧ (grantClosed i s).msu = s.msu ∧ (grantClosed i s).csu = s.csu ∧
      (grantClosed i s).ctx = s.ctx ∧ (grantClosed i s).adu = s.adu ∧ (grantClosed i s).scn = s.scn ∧
      (grantClosed i s).cbf = s.cbf ∧ (grantClosed i s).sdr = s.sdr ∧ (grantClosed i s).cwr.writer = s.cwr.writer ∧
      (grantClosed i s).cwr.recId = s.cwr.recId ∧ (grantClosed i s).cwr.cursor = s.cwr.cursor ∧
      (grantClosed i s).cwr.present = s.cwr.present ∧ (grantClosed i s).cwr.cdet = s.cwr.cdet ∧
      (grantClosed i s).ips = s.ips ∧ (grantClosed i s).chg = s.chg ∧ (grantClosed i s).ssv = s.ssv ∧
      (grantClosed i s).lnk = s.lnk ∧ (grantClosed i s).rst = s.rst ∧ (grantClosed i s).pending = s.pending := by
  simp only [grantClosed]; (repeat' split) <;> simp

@[simp] theorem grantOpening_frame (i : Nat) (s : State) :
    (grantOpening i s).now = s.now ∧ (grantOpening i s).msu = s.msu ∧ (grantOpening i s).csu = s.csu ∧
      (grantOpening i s).ctx = s.ctx ∧ (grantOpening i s).adu = s.adu ∧ (grantOpening i s).scn = s.scn ∧
      (grantOpening i s).cbf = s.cbf ∧ (grantOpening i s).sdr = s.sdr ∧
      (grantOpening i s).cwr.writer = s.cwr.writer ∧ (grantOpening i s).cwr.recId = s.cwr.recId ∧
      (grantOpening i s).cwr.cursor = s.cwr.cursor ∧ (grantOpening i s).cwr.present = s.cwr.present ∧
      (grantOpening i s).cwr.cdet = s.cwr.cdet ∧ (grantOpening i s).ips = s.ips ∧ (grantOpening i s).chg = s.chg ∧
      (grantOpening i s).ssv = s.ssv ∧ (grantOpening i s).lnk = s.lnk ∧ (grantOpening i s).rst = s.rst ∧
      (grantOpening i s).pending = s.pending := by
  simp only [grantOpening]; (repeat' split) <;> simp

@[simp] theorem grantUpdate_frame (op : Xfer) (i : Nat) (s : State) :
    (grantUpdate op i s).now = s.now ∧ (grantUpdate op i s).msu = s.msu ∧ (grantUpdate op i s).csu = s.csu ∧
      (grantUpdate op i s).ctx = s.ctx ∧ (grantUpdate op i s).adu = s.adu ∧ (grantUpdate op i s).scn = s.scn ∧
      (grantUpdate op i s).cbf = s.cbf ∧ (grantUpdate op i s).sdr.geo = s.sdr.geo ∧
      (grantUpdate op i s).sdr.nextSeq = s.sdr.nextSeq ∧ (grantUpdate op i s).sdr.nextRec = s.sdr.nextRec ∧
      (grantUpdate op i s).sdr.mark = s.sdr.mark ∧ (grantUpdate op i s).cwr.writer = s.cwr.writer ∧
      (grantUpdate op i s).cwr.recId = s.cwr.recId ∧ (grantUpdate op i s).cwr.cursor = s.cwr.cursor ∧
      (grantUpdate op i s).cwr.present = s.cwr.present ∧ (grantUpdate op i s).cwr.cdet = s.cwr.cdet ∧
      (grantUpdate op i s).ips = s.ips ∧ (grantUpdate op i s).chg = s.chg ∧ (grantUpdate op i s).ssv = s.ssv ∧
      (grantUpdate op i s).lnk = s.lnk ∧ (grantUpdate op i s).rst = s.rst ∧
      (grantUpdate op i s).pending = s.pending := by
  simp only [grantUpdate]; (repeat' split) <;> simp

@[simp] theorem grantPort_frame (s : State) :
    (grantPort s).now = s.now ∧ (grantPort s).msu = s.msu ∧ (grantPort s).csu = s.csu ∧ (grantPort s).ctx = s.ctx ∧
      (grantPort s).adu = s.adu ∧ (grantPort s).scn = s.scn ∧ (grantPort s).cbf = s.cbf ∧
      (grantPort s).sdr.geo = s.sdr.geo ∧ (grantPort s).sdr.nextSeq = s.sdr.nextSeq ∧
      (grantPort s).sdr.nextRec = s.sdr.nextRec ∧ (grantPort s).sdr.mark = s.sdr.mark ∧
      (grantPort s).cwr.writer = s.cwr.writer ∧ (grantPort s).cwr.recId = s.cwr.recId ∧
      (grantPort s).cwr.cursor = s.cwr.cursor ∧ (grantPort s).cwr.present = s.cwr.present ∧
      (grantPort s).cwr.cdet = s.cwr.cdet ∧ (grantPort s).ips = s.ips ∧ (grantPort s).chg = s.chg ∧
      (grantPort s).ssv = s.ssv ∧ (grantPort s).lnk = s.lnk ∧ (grantPort s).rst = s.rst ∧
      (grantPort s).pending = s.pending := by
  simp only [grantPort]; (repeat' split) <;> simp

@[simp] theorem endRecording_frame (reason : CloseReason) (budget spent : Nat) (s : State) :
    (endRecording reason budget spent s).now = s.now ∧ (endRecording reason budget spent s).msu = s.msu ∧
      (endRecording reason budget spent s).csu = s.csu ∧ (endRecording reason budget spent s).ctx = s.ctx ∧
      (endRecording reason budget spent s).adu = s.adu ∧ (endRecording reason budget spent s).scn = s.scn ∧
      (endRecording reason budget spent s).cbf = s.cbf ∧ (endRecording reason budget spent s).sdr = s.sdr ∧
      (endRecording reason budget spent s).cwr.writer = s.cwr.writer ∧
      (endRecording reason budget spent s).cwr.port = s.cwr.port ∧
      (endRecording reason budget spent s).cwr.cursor = s.cwr.cursor ∧
      (endRecording reason budget spent s).cwr.present = s.cwr.present ∧
      (endRecording reason budget spent s).cwr.cdet = s.cwr.cdet ∧
      (endRecording reason budget spent s).ips = s.ips ∧ (endRecording reason budget spent s).chg = s.chg ∧
      (endRecording reason budget spent s).ssv = s.ssv ∧ (endRecording reason budget spent s).lnk.req = s.lnk.req ∧
      (endRecording reason budget spent s).lnk.reply = s.lnk.reply ∧
      (endRecording reason budget spent s).lnk.refused = s.lnk.refused ∧
      (endRecording reason budget spent s).lnk.recordMask = s.lnk.recordMask ∧
      (endRecording reason budget spent s).lnk.alertMask = s.lnk.alertMask ∧
      (endRecording reason budget spent s).lnk.guard = s.lnk.guard ∧
      (endRecording reason budget spent s).lnk.resetTaken = s.lnk.resetTaken ∧
      (endRecording reason budget spent s).rst = s.rst ∧
      (endRecording reason budget spent s).pending = s.pending := by
  simp only [endRecording]; (repeat' split) <;> simp

@[simp] theorem giveUpCard_frame (w : Writer) (s : State) :
    (giveUpCard w s).now = s.now ∧ (giveUpCard w s).msu = s.msu ∧ (giveUpCard w s).csu = s.csu ∧
      (giveUpCard w s).ctx = s.ctx ∧ (giveUpCard w s).adu = s.adu ∧ (giveUpCard w s).scn = s.scn ∧
      (giveUpCard w s).cwr.recId = s.cwr.recId ∧ (giveUpCard w s).cwr.present = s.cwr.present ∧
      (giveUpCard w s).cwr.cdet = s.cwr.cdet ∧ (giveUpCard w s).ips = s.ips ∧ (giveUpCard w s).chg = s.chg ∧
      (giveUpCard w s).ssv.st = s.ssv.st ∧ (giveUpCard w s).ssv.timerEnd = s.ssv.timerEnd ∧
      (giveUpCard w s).ssv.stable = s.ssv.stable ∧ (giveUpCard w s).ssv.rideMs = s.ssv.rideMs ∧
      (giveUpCard w s).ssv.budget = s.ssv.budget ∧ (giveUpCard w s).ssv.rail = s.ssv.rail ∧
      (giveUpCard w s).lnk = s.lnk ∧ (giveUpCard w s).rst = s.rst ∧ (giveUpCard w s).pending = s.pending := by
  simp only [giveUpCard]; (repeat' split) <;> simp

@[simp] theorem writerFault_frame (slot addr : Nat) (kind : WriteKind) (s : State) :
    (writerFault slot addr kind s).now = s.now ∧ (writerFault slot addr kind s).msu = s.msu ∧
      (writerFault slot addr kind s).csu = s.csu ∧ (writerFault slot addr kind s).ctx = s.ctx ∧
      (writerFault slot addr kind s).scn = s.scn ∧ (writerFault slot addr kind s).cwr.present = s.cwr.present ∧
      (writerFault slot addr kind s).cwr.cdet = s.cwr.cdet ∧ (writerFault slot addr kind s).ips = s.ips ∧
      (writerFault slot addr kind s).ssv.stable = s.ssv.stable ∧
      (writerFault slot addr kind s).ssv.rideMs = s.ssv.rideMs ∧
      (writerFault slot addr kind s).ssv.budget = s.ssv.budget ∧
      (writerFault slot addr kind s).ssv.rail = s.ssv.rail ∧
      (writerFault slot addr kind s).lnk.refused = s.lnk.refused ∧
      (writerFault slot addr kind s).lnk.recordMask = s.lnk.recordMask ∧
      (writerFault slot addr kind s).lnk.alertMask = s.lnk.alertMask ∧
      (writerFault slot addr kind s).lnk.guard = s.lnk.guard ∧
      (writerFault slot addr kind s).lnk.resetTaken = s.lnk.resetTaken ∧
      (writerFault slot addr kind s).rst = s.rst ∧ (writerFault slot addr kind s).pending = s.pending := by
  simp only [writerFault]; (repeat' split) <;> simp

@[simp] theorem askStop_frame (reason : CloseReason) (s : State) :
    (askStop reason s).now = s.now ∧ (askStop reason s).msu = s.msu ∧ (askStop reason s).csu = s.csu ∧
      (askStop reason s).ctx = s.ctx ∧ (askStop reason s).adu = s.adu ∧ (askStop reason s).scn = s.scn ∧
      (askStop reason s).cbf = s.cbf ∧ (askStop reason s).sdr.geo = s.sdr.geo ∧
      (askStop reason s).sdr.queue = s.sdr.queue ∧ (askStop reason s).sdr.nextSeq = s.sdr.nextSeq ∧
      (askStop reason s).sdr.nextRec = s.sdr.nextRec ∧ (askStop reason s).cwr.recId = s.cwr.recId ∧
      (askStop reason s).cwr.port = s.cwr.port ∧ (askStop reason s).cwr.cursor = s.cwr.cursor ∧
      (askStop reason s).cwr.present = s.cwr.present ∧ (askStop reason s).cwr.cdet = s.cwr.cdet ∧
      (askStop reason s).ips = s.ips ∧ (askStop reason s).chg = s.chg ∧ (askStop reason s).ssv = s.ssv ∧
      (askStop reason s).lnk = s.lnk ∧ (askStop reason s).rst = s.rst ∧ (askStop reason s).pending = s.pending := by
  simp only [askStop]; (repeat' split) <;> simp

@[simp] theorem finishUnmount_frame (s : State) :
    (finishUnmount s).now = s.now ∧ (finishUnmount s).msu = s.msu ∧ (finishUnmount s).csu = s.csu ∧
      (finishUnmount s).ctx = s.ctx ∧ (finishUnmount s).adu = s.adu ∧ (finishUnmount s).scn = s.scn ∧
      (finishUnmount s).cwr.recId = s.cwr.recId ∧ (finishUnmount s).cwr.present = s.cwr.present ∧
      (finishUnmount s).cwr.cdet = s.cwr.cdet ∧ (finishUnmount s).ips = s.ips ∧ (finishUnmount s).chg = s.chg ∧
      (finishUnmount s).ssv.st = s.ssv.st ∧ (finishUnmount s).ssv.timerEnd = s.ssv.timerEnd ∧
      (finishUnmount s).ssv.stable = s.ssv.stable ∧ (finishUnmount s).ssv.rideMs = s.ssv.rideMs ∧
      (finishUnmount s).ssv.budget = s.ssv.budget ∧ (finishUnmount s).ssv.rail = s.ssv.rail ∧
      (finishUnmount s).lnk.refused = s.lnk.refused ∧ (finishUnmount s).lnk.recordMask = s.lnk.recordMask ∧
      (finishUnmount s).lnk.alertMask = s.lnk.alertMask ∧ (finishUnmount s).lnk.guard = s.lnk.guard ∧
      (finishUnmount s).lnk.resetTaken = s.lnk.resetTaken ∧ (finishUnmount s).rst = s.rst ∧
      (finishUnmount s).pending = s.pending := by
  simp only [finishUnmount]; (repeat' split) <;> simp

@[simp] theorem commitSlot_frame (i : Nat) (reason : CloseReason) (spent : Nat) (unsaved : List Nat) (s : State) :
    (commitSlot i reason spent unsaved s).now = s.now ∧ (commitSlot i reason spent unsaved s).msu = s.msu ∧
      (commitSlot i reason spent unsaved s).csu = s.csu ∧ (commitSlot i reason spent unsaved s).ctx = s.ctx ∧
      (commitSlot i reason spent unsaved s).adu = s.adu ∧ (commitSlot i reason spent unsaved s).scn = s.scn ∧
      (commitSlot i reason spent unsaved s).cbf.segs = s.cbf.segs ∧
      (commitSlot i reason spent unsaved s).sdr.geo = s.sdr.geo ∧
      (commitSlot i reason spent unsaved s).sdr.queue = s.sdr.queue ∧
      (commitSlot i reason spent unsaved s).sdr.nextSeq = s.sdr.nextSeq ∧
      (commitSlot i reason spent unsaved s).sdr.nextRec = s.sdr.nextRec ∧
      (commitSlot i reason spent unsaved s).sdr.mark = s.sdr.mark ∧
      (commitSlot i reason spent unsaved s).cwr = s.cwr ∧ (commitSlot i reason spent unsaved s).ips = s.ips ∧
      (commitSlot i reason spent unsaved s).chg = s.chg ∧ (commitSlot i reason spent unsaved s).ssv = s.ssv ∧
      (commitSlot i reason spent unsaved s).lnk.req = s.lnk.req ∧
      (commitSlot i reason spent unsaved s).lnk.reply = s.lnk.reply ∧
      (commitSlot i reason spent unsaved s).lnk.refused = s.lnk.refused ∧
      (commitSlot i reason spent unsaved s).lnk.recordMask = s.lnk.recordMask ∧
      (commitSlot i reason spent unsaved s).lnk.alertMask = s.lnk.alertMask ∧
      (commitSlot i reason spent unsaved s).lnk.guard = s.lnk.guard ∧
      (commitSlot i reason spent unsaved s).lnk.resetTaken = s.lnk.resetTaken ∧
      (commitSlot i reason spent unsaved s).rst = s.rst ∧
      (commitSlot i reason spent unsaved s).pending = s.pending := by
  simp only [commitSlot]; (repeat' split) <;> simp

@[simp] theorem modClose_frame (f : EmergencyClose → EmergencyClose) (s : State) :
    (modClose f s).now = s.now ∧ (modClose f s).msu = s.msu ∧ (modClose f s).csu = s.csu ∧
      (modClose f s).ctx = s.ctx ∧ (modClose f s).adu = s.adu ∧ (modClose f s).scn = s.scn ∧
      (modClose f s).cbf = s.cbf ∧ (modClose f s).sdr = s.sdr ∧ (modClose f s).cwr = s.cwr ∧
      (modClose f s).ips = s.ips ∧ (modClose f s).chg = s.chg ∧ (modClose f s).ssv.st = s.ssv.st ∧
      (modClose f s).ssv.timerEnd = s.ssv.timerEnd ∧ (modClose f s).ssv.stable = s.ssv.stable ∧
      (modClose f s).ssv.rideMs = s.ssv.rideMs ∧ (modClose f s).ssv.budget = s.ssv.budget ∧
      (modClose f s).ssv.rail = s.ssv.rail ∧ (modClose f s).lnk = s.lnk ∧ (modClose f s).rst = s.rst ∧
      (modClose f s).pending = s.pending := by
  simp only [modClose]; (repeat' split) <;> simp

@[simp] theorem charge_frame (n : Nat) (s : State) :
    (charge n s).now = s.now ∧ (charge n s).msu = s.msu ∧ (charge n s).csu = s.csu ∧ (charge n s).ctx = s.ctx ∧
      (charge n s).adu = s.adu ∧ (charge n s).scn = s.scn ∧ (charge n s).cbf = s.cbf ∧ (charge n s).sdr = s.sdr ∧
      (charge n s).cwr = s.cwr ∧ (charge n s).ips = s.ips ∧ (charge n s).chg = s.chg ∧
      (charge n s).ssv.st = s.ssv.st ∧ (charge n s).ssv.timerEnd = s.ssv.timerEnd ∧
      (charge n s).ssv.stable = s.ssv.stable ∧ (charge n s).ssv.rideMs = s.ssv.rideMs ∧
      (charge n s).ssv.budget = s.ssv.budget ∧ (charge n s).ssv.rail = s.ssv.rail ∧ (charge n s).lnk = s.lnk ∧
      (charge n s).rst = s.rst ∧ (charge n s).pending = s.pending := by
  simp only [charge]; (repeat' split) <;> simp

@[simp] theorem setPart_frame (p : ClosePart) (s : State) :
    (setPart p s).now = s.now ∧ (setPart p s).msu = s.msu ∧ (setPart p s).csu = s.csu ∧ (setPart p s).ctx = s.ctx ∧
      (setPart p s).adu = s.adu ∧ (setPart p s).scn = s.scn ∧ (setPart p s).cbf = s.cbf ∧
      (setPart p s).sdr = s.sdr ∧ (setPart p s).cwr = s.cwr ∧ (setPart p s).ips = s.ips ∧
      (setPart p s).chg = s.chg ∧ (setPart p s).ssv.st = s.ssv.st ∧ (setPart p s).ssv.timerEnd = s.ssv.timerEnd ∧
      (setPart p s).ssv.stable = s.ssv.stable ∧ (setPart p s).ssv.rideMs = s.ssv.rideMs ∧
      (setPart p s).ssv.budget = s.ssv.budget ∧ (setPart p s).ssv.rail = s.ssv.rail ∧ (setPart p s).lnk = s.lnk ∧
      (setPart p s).rst = s.rst ∧ (setPart p s).pending = s.pending := by
  simp only [setPart]; (repeat' split) <;> simp

@[simp] theorem closeEnd_frame (s : State) :
    (closeEnd s).now = s.now ∧ (closeEnd s).msu = s.msu ∧ (closeEnd s).csu = s.csu ∧ (closeEnd s).ctx = s.ctx ∧
      (closeEnd s).scn = s.scn ∧ (closeEnd s).cbf = s.cbf ∧ (closeEnd s).sdr.geo = s.sdr.geo ∧
      (closeEnd s).sdr.entries = s.sdr.entries ∧ (closeEnd s).sdr.queue = s.sdr.queue ∧
      (closeEnd s).sdr.nextSeq = s.sdr.nextSeq ∧ (closeEnd s).sdr.nextRec = s.sdr.nextRec ∧
      (closeEnd s).cwr.port = s.cwr.port ∧ (closeEnd s).cwr.cursor = s.cwr.cursor ∧
      (closeEnd s).cwr.present = s.cwr.present ∧ (closeEnd s).cwr.cdet = s.cwr.cdet ∧ (closeEnd s).ips = s.ips ∧
      (closeEnd s).ssv.stable = s.ssv.stable ∧ (closeEnd s).ssv.rideMs = s.ssv.rideMs ∧
      (closeEnd s).ssv.budget = s.ssv.budget ∧ (closeEnd s).ssv.rail = s.ssv.rail ∧
      (closeEnd s).lnk.req = s.lnk.req ∧ (closeEnd s).lnk.reply = s.lnk.reply ∧
      (closeEnd s).lnk.refused = s.lnk.refused ∧ (closeEnd s).lnk.recordMask = s.lnk.recordMask ∧
      (closeEnd s).lnk.alertMask = s.lnk.alertMask ∧ (closeEnd s).lnk.guard = s.lnk.guard ∧
      (closeEnd s).lnk.resetTaken = s.lnk.resetTaken ∧ (closeEnd s).rst = s.rst ∧
      (closeEnd s).pending = s.pending := by
  simp only [closeEnd]; (repeat' split) <;> simp

@[simp] theorem closeHeader_frame (k : Nat) (s : State) :
    (closeHeader k s).now = s.now ∧ (closeHeader k s).msu = s.msu ∧ (closeHeader k s).csu = s.csu ∧
      (closeHeader k s).ctx = s.ctx ∧ (closeHeader k s).adu = s.adu ∧ (closeHeader k s).scn = s.scn ∧
      (closeHeader k s).cbf = s.cbf ∧ (closeHeader k s).sdr = s.sdr ∧ (closeHeader k s).cwr.writer = s.cwr.writer ∧
      (closeHeader k s).cwr.recId = s.cwr.recId ∧ (closeHeader k s).cwr.cursor = s.cwr.cursor ∧
      (closeHeader k s).cwr.present = s.cwr.present ∧ (closeHeader k s).cwr.cdet = s.cwr.cdet ∧
      (closeHeader k s).ips = s.ips ∧ (closeHeader k s).chg = s.chg ∧ (closeHeader k s).ssv.st = s.ssv.st ∧
      (closeHeader k s).ssv.timerEnd = s.ssv.timerEnd ∧ (closeHeader k s).ssv.stable = s.ssv.stable ∧
      (closeHeader k s).ssv.rideMs = s.ssv.rideMs ∧ (closeHeader k s).ssv.budget = s.ssv.budget ∧
      (closeHeader k s).ssv.rail = s.ssv.rail ∧ (closeHeader k s).lnk = s.lnk ∧ (closeHeader k s).rst = s.rst ∧
      (closeHeader k s).pending = s.pending := by
  simp only [closeHeader]; (repeat' split) <;> simp

@[simp] theorem closeMotion_frame (c : EmergencyClose) (k : Nat) (s : State) :
    (closeMotion c k s).now = s.now ∧ (closeMotion c k s).msu = s.msu ∧ (closeMotion c k s).csu = s.csu ∧
      (closeMotion c k s).ctx = s.ctx ∧ (closeMotion c k s).adu = s.adu ∧ (closeMotion c k s).scn = s.scn ∧
      (closeMotion c k s).cbf.segs = s.cbf.segs ∧ (closeMotion c k s).sdr.geo = s.sdr.geo ∧
      (closeMotion c k s).sdr.queue = s.sdr.queue ∧ (closeMotion c k s).sdr.nextSeq = s.sdr.nextSeq ∧
      (closeMotion c k s).sdr.nextRec = s.sdr.nextRec ∧ (closeMotion c k s).sdr.mark = s.sdr.mark ∧
      (closeMotion c k s).cwr.writer = s.cwr.writer ∧ (closeMotion c k s).cwr.recId = s.cwr.recId ∧
      (closeMotion c k s).cwr.cursor = s.cwr.cursor ∧ (closeMotion c k s).cwr.present = s.cwr.present ∧
      (closeMotion c k s).cwr.cdet = s.cwr.cdet ∧ (closeMotion c k s).ips = s.ips ∧
      (closeMotion c k s).chg = s.chg ∧ (closeMotion c k s).ssv.st = s.ssv.st ∧
      (closeMotion c k s).ssv.timerEnd = s.ssv.timerEnd ∧ (closeMotion c k s).ssv.stable = s.ssv.stable ∧
      (closeMotion c k s).ssv.rideMs = s.ssv.rideMs ∧ (closeMotion c k s).ssv.budget = s.ssv.budget ∧
      (closeMotion c k s).ssv.rail = s.ssv.rail ∧ (closeMotion c k s).lnk = s.lnk ∧
      (closeMotion c k s).rst = s.rst ∧ (closeMotion c k s).pending = s.pending := by
  simp only [closeMotion]; (repeat' split) <;> simp

@[simp] theorem closeStream_frame (c : EmergencyClose) (k : Nat) (s : State) :
    (closeStream c k s).now = s.now ∧ (closeStream c k s).msu = s.msu ∧ (closeStream c k s).csu = s.csu ∧
      (closeStream c k s).ctx = s.ctx ∧ (closeStream c k s).adu = s.adu ∧ (closeStream c k s).scn = s.scn ∧
      (closeStream c k s).sdr.geo = s.sdr.geo ∧ (closeStream c k s).sdr.queue = s.sdr.queue ∧
      (closeStream c k s).sdr.nextSeq = s.sdr.nextSeq ∧ (closeStream c k s).sdr.nextRec = s.sdr.nextRec ∧
      (closeStream c k s).sdr.mark = s.sdr.mark ∧ (closeStream c k s).cwr.writer = s.cwr.writer ∧
      (closeStream c k s).cwr.recId = s.cwr.recId ∧ (closeStream c k s).cwr.cursor = s.cwr.cursor ∧
      (closeStream c k s).cwr.present = s.cwr.present ∧ (closeStream c k s).cwr.cdet = s.cwr.cdet ∧
      (closeStream c k s).ips = s.ips ∧ (closeStream c k s).chg = s.chg ∧ (closeStream c k s).ssv.st = s.ssv.st ∧
      (closeStream c k s).ssv.timerEnd = s.ssv.timerEnd ∧ (closeStream c k s).ssv.stable = s.ssv.stable ∧
      (closeStream c k s).ssv.rideMs = s.ssv.rideMs ∧ (closeStream c k s).ssv.budget = s.ssv.budget ∧
      (closeStream c k s).ssv.rail = s.ssv.rail ∧ (closeStream c k s).lnk = s.lnk ∧
      (closeStream c k s).rst = s.rst ∧ (closeStream c k s).pending = s.pending := by
  simp only [closeStream]; (repeat' split) <;> simp

@[simp] theorem closeSlots_frame (c : EmergencyClose) (s : State) :
    (closeSlots c s).now = s.now ∧ (closeSlots c s).msu = s.msu ∧ (closeSlots c s).csu = s.csu ∧
      (closeSlots c s).ctx = s.ctx ∧ (closeSlots c s).scn = s.scn ∧ (closeSlots c s).sdr.geo = s.sdr.geo ∧
      (closeSlots c s).sdr.queue = s.sdr.queue ∧ (closeSlots c s).sdr.nextSeq = s.sdr.nextSeq ∧
      (closeSlots c s).sdr.nextRec = s.sdr.nextRec ∧ (closeSlots c s).cwr.cursor = s.cwr.cursor ∧
      (closeSlots c s).cwr.present = s.cwr.present ∧ (closeSlots c s).cwr.cdet = s.cwr.cdet ∧
      (closeSlots c s).ips = s.ips ∧ (closeSlots c s).ssv.stable = s.ssv.stable ∧
      (closeSlots c s).ssv.rideMs = s.ssv.rideMs ∧ (closeSlots c s).ssv.budget = s.ssv.budget ∧
      (closeSlots c s).ssv.rail = s.ssv.rail ∧ (closeSlots c s).lnk.req = s.lnk.req ∧
      (closeSlots c s).lnk.reply = s.lnk.reply ∧ (closeSlots c s).lnk.refused = s.lnk.refused ∧
      (closeSlots c s).lnk.recordMask = s.lnk.recordMask ∧ (closeSlots c s).lnk.alertMask = s.lnk.alertMask ∧
      (closeSlots c s).lnk.guard = s.lnk.guard ∧ (closeSlots c s).lnk.resetTaken = s.lnk.resetTaken ∧
      (closeSlots c s).rst = s.rst ∧ (closeSlots c s).pending = s.pending := by
  simp only [closeSlots]; (repeat' split) <;> simp

@[simp] theorem closeUpdates_frame (c : EmergencyClose) (s : State) :
    (closeUpdates c s).now = s.now ∧ (closeUpdates c s).msu = s.msu ∧ (closeUpdates c s).csu = s.csu ∧
      (closeUpdates c s).ctx = s.ctx ∧ (closeUpdates c s).scn = s.scn ∧ (closeUpdates c s).sdr.geo = s.sdr.geo ∧
      (closeUpdates c s).sdr.nextSeq = s.sdr.nextSeq ∧ (closeUpdates c s).sdr.nextRec = s.sdr.nextRec ∧
      (closeUpdates c s).cwr.cursor = s.cwr.cursor ∧ (closeUpdates c s).cwr.present = s.cwr.present ∧
      (closeUpdates c s).cwr.cdet = s.cwr.cdet ∧ (closeUpdates c s).ips = s.ips ∧
      (closeUpdates c s).ssv.stable = s.ssv.stable ∧ (closeUpdates c s).ssv.rideMs = s.ssv.rideMs ∧
      (closeUpdates c s).ssv.budget = s.ssv.budget ∧ (closeUpdates c s).ssv.rail = s.ssv.rail ∧
      (closeUpdates c s).lnk.req = s.lnk.req ∧ (closeUpdates c s).lnk.reply = s.lnk.reply ∧
      (closeUpdates c s).lnk.refused = s.lnk.refused ∧ (closeUpdates c s).lnk.recordMask = s.lnk.recordMask ∧
      (closeUpdates c s).lnk.alertMask = s.lnk.alertMask ∧ (closeUpdates c s).lnk.guard = s.lnk.guard ∧
      (closeUpdates c s).lnk.resetTaken = s.lnk.resetTaken ∧ (closeUpdates c s).rst = s.rst ∧
      (closeUpdates c s).pending = s.pending := by
  simp only [closeUpdates]; (repeat' split) <;> simp

@[simp] theorem closeAdvance_frame (s : State) :
    (closeAdvance s).now = s.now ∧ (closeAdvance s).msu = s.msu ∧ (closeAdvance s).csu = s.csu ∧
      (closeAdvance s).ctx = s.ctx ∧ (closeAdvance s).scn = s.scn ∧ (closeAdvance s).sdr.geo = s.sdr.geo ∧
      (closeAdvance s).sdr.nextSeq = s.sdr.nextSeq ∧ (closeAdvance s).sdr.nextRec = s.sdr.nextRec ∧
      (closeAdvance s).cwr.cursor = s.cwr.cursor ∧ (closeAdvance s).cwr.present = s.cwr.present ∧
      (closeAdvance s).cwr.cdet = s.cwr.cdet ∧ (closeAdvance s).ips = s.ips ∧
      (closeAdvance s).ssv.stable = s.ssv.stable ∧ (closeAdvance s).ssv.rideMs = s.ssv.rideMs ∧
      (closeAdvance s).ssv.budget = s.ssv.budget ∧ (closeAdvance s).ssv.rail = s.ssv.rail ∧
      (closeAdvance s).lnk.req = s.lnk.req ∧ (closeAdvance s).lnk.reply = s.lnk.reply ∧
      (closeAdvance s).lnk.refused = s.lnk.refused ∧ (closeAdvance s).lnk.recordMask = s.lnk.recordMask ∧
      (closeAdvance s).lnk.alertMask = s.lnk.alertMask ∧ (closeAdvance s).lnk.guard = s.lnk.guard ∧
      (closeAdvance s).lnk.resetTaken = s.lnk.resetTaken ∧ (closeAdvance s).rst = s.rst ∧
      (closeAdvance s).pending = s.pending := by
  simp only [closeAdvance]; (repeat' split) <;> simp

@[simp] theorem closeFirst_frame (s : State) :
    (closeFirst s).now = s.now ∧ (closeFirst s).msu = s.msu ∧ (closeFirst s).csu = s.csu ∧
      (closeFirst s).ctx = s.ctx ∧ (closeFirst s).adu = s.adu ∧ (closeFirst s).scn = s.scn ∧
      (closeFirst s).cbf = s.cbf ∧ (closeFirst s).sdr.geo = s.sdr.geo ∧ (closeFirst s).sdr.queue = s.sdr.queue ∧
      (closeFirst s).sdr.nextSeq = s.sdr.nextSeq ∧ (closeFirst s).sdr.nextRec = s.sdr.nextRec ∧
      (closeFirst s).sdr.mark = s.sdr.mark ∧ (closeFirst s).cwr = s.cwr ∧ (closeFirst s).ips = s.ips ∧
      (closeFirst s).chg = s.chg ∧ (closeFirst s).ssv = s.ssv ∧ (closeFirst s).lnk = s.lnk ∧
      (closeFirst s).rst = s.rst ∧ (closeFirst s).pending = s.pending := by
  simp only [closeFirst]; (repeat' split) <;> simp

@[simp] theorem startClose_frame (s : State) :
    (startClose s).now = s.now ∧ (startClose s).msu = s.msu ∧ (startClose s).csu = s.csu ∧
      (startClose s).ctx = s.ctx ∧ (startClose s).adu = s.adu ∧ (startClose s).scn = s.scn ∧
      (startClose s).cbf = s.cbf ∧ (startClose s).sdr.geo = s.sdr.geo ∧ (startClose s).sdr.queue = s.sdr.queue ∧
      (startClose s).sdr.nextSeq = s.sdr.nextSeq ∧ (startClose s).sdr.nextRec = s.sdr.nextRec ∧
      (startClose s).cwr.recId = s.cwr.recId ∧ (startClose s).cwr.cursor = s.cwr.cursor ∧
      (startClose s).cwr.present = s.cwr.present ∧ (startClose s).cwr.cdet = s.cwr.cdet ∧
      (startClose s).ips = s.ips ∧ (startClose s).chg = s.chg ∧ (startClose s).ssv.st = s.ssv.st ∧
      (startClose s).ssv.timerEnd = s.ssv.timerEnd ∧ (startClose s).ssv.stable = s.ssv.stable ∧
      (startClose s).ssv.rideMs = s.ssv.rideMs ∧ (startClose s).ssv.budget = s.ssv.budget ∧
      (startClose s).ssv.rail = s.ssv.rail ∧ (startClose s).lnk.refused = s.lnk.refused ∧
      (startClose s).lnk.events = s.lnk.events ∧ (startClose s).lnk.recordMask = s.lnk.recordMask ∧
      (startClose s).lnk.alertMask = s.lnk.alertMask ∧ (startClose s).lnk.guard = s.lnk.guard ∧
      (startClose s).lnk.resetTaken = s.lnk.resetTaken ∧ (startClose s).rst = s.rst ∧
      (startClose s).pending = s.pending := by
  simp only [startClose]; (repeat' split) <;> simp

@[simp] theorem closeFailed_frame (s : State) :
    (closeFailed s).now = s.now ∧ (closeFailed s).msu = s.msu ∧ (closeFailed s).csu = s.csu ∧
      (closeFailed s).ctx = s.ctx ∧ (closeFailed s).adu = s.adu ∧ (closeFailed s).scn = s.scn ∧
      (closeFailed s).cbf = s.cbf ∧ (closeFailed s).sdr = s.sdr ∧ (closeFailed s).cwr = s.cwr ∧
      (closeFailed s).ips = s.ips ∧ (closeFailed s).chg = s.chg ∧ (closeFailed s).ssv.st = s.ssv.st ∧
      (closeFailed s).ssv.timerEnd = s.ssv.timerEnd ∧ (closeFailed s).ssv.stable = s.ssv.stable ∧
      (closeFailed s).ssv.rideMs = s.ssv.rideMs ∧ (closeFailed s).ssv.budget = s.ssv.budget ∧
      (closeFailed s).ssv.rail = s.ssv.rail ∧ (closeFailed s).lnk = s.lnk ∧ (closeFailed s).rst = s.rst ∧
      (closeFailed s).pending = s.pending := by
  simp only [closeFailed]; (repeat' split) <;> simp

@[simp] theorem closeNext_frame (i : Nat) (s : State) :
    (closeNext i s).now = s.now ∧ (closeNext i s).msu = s.msu ∧ (closeNext i s).csu = s.csu ∧
      (closeNext i s).ctx = s.ctx ∧ (closeNext i s).adu = s.adu ∧ (closeNext i s).scn = s.scn ∧
      (closeNext i s).cbf = s.cbf ∧ (closeNext i s).sdr.geo = s.sdr.geo ∧ (closeNext i s).sdr.queue = s.sdr.queue ∧
      (closeNext i s).sdr.nextSeq = s.sdr.nextSeq ∧ (closeNext i s).sdr.nextRec = s.sdr.nextRec ∧
      (closeNext i s).sdr.mark = s.sdr.mark ∧ (closeNext i s).cwr = s.cwr ∧ (closeNext i s).ips = s.ips ∧
      (closeNext i s).chg = s.chg ∧ (closeNext i s).ssv.st = s.ssv.st ∧
      (closeNext i s).ssv.timerEnd = s.ssv.timerEnd ∧ (closeNext i s).ssv.stable = s.ssv.stable ∧
      (closeNext i s).ssv.rideMs = s.ssv.rideMs ∧ (closeNext i s).ssv.budget = s.ssv.budget ∧
      (closeNext i s).ssv.rail = s.ssv.rail ∧ (closeNext i s).lnk = s.lnk ∧ (closeNext i s).rst = s.rst ∧
      (closeNext i s).pending = s.pending := by
  simp only [closeNext]; (repeat' split) <;> simp

@[simp] theorem settle_frame (s : State) :
    (settle s).now = s.now ∧ (settle s).msu = s.msu ∧ (settle s).csu = s.csu ∧ (settle s).ctx = s.ctx ∧
      (settle s).scn = s.scn ∧ (settle s).cwr.present = s.cwr.present ∧ (settle s).cwr.cdet = s.cwr.cdet ∧
      (settle s).ips = s.ips ∧ (settle s).ssv.stable = s.ssv.stable ∧ (settle s).ssv.rideMs = s.ssv.rideMs ∧
      (settle s).ssv.budget = s.ssv.budget ∧ (settle s).ssv.rail = s.ssv.rail ∧
      (settle s).lnk.refused = s.lnk.refused ∧ (settle s).lnk.recordMask = s.lnk.recordMask ∧
      (settle s).lnk.alertMask = s.lnk.alertMask ∧ (settle s).lnk.guard = s.lnk.guard ∧
      (settle s).lnk.resetTaken = s.lnk.resetTaken ∧ (settle s).rst = s.rst ∧ (settle s).pending = s.pending := by
  simp only [settle]; (repeat' split) <;> simp

@[simp] theorem startMount_frame (g : Geometry) (s : State) :
    (startMount g s).now = s.now ∧ (startMount g s).msu = s.msu ∧ (startMount g s).csu = s.csu ∧
      (startMount g s).ctx = s.ctx ∧ (startMount g s).adu = s.adu ∧ (startMount g s).scn = s.scn ∧
      (startMount g s).cbf = s.cbf ∧ (startMount g s).cwr.recId = s.cwr.recId ∧
      (startMount g s).cwr.cursor = s.cwr.cursor ∧ (startMount g s).cwr.present = s.cwr.present ∧
      (startMount g s).cwr.cdet = s.cwr.cdet ∧ (startMount g s).ips = s.ips ∧ (startMount g s).chg = s.chg ∧
      (startMount g s).ssv = s.ssv ∧ (startMount g s).lnk = s.lnk ∧ (startMount g s).rst = s.rst ∧
      (startMount g s).pending = s.pending := by
  simp only [startMount]; (repeat' split) <;> simp

@[simp] theorem openTheSlot_frame (i q recId : Nat) (s : State) :
    (openTheSlot i q recId s).now = s.now ∧ (openTheSlot i q recId s).msu = s.msu ∧
      (openTheSlot i q recId s).csu = s.csu ∧ (openTheSlot i q recId s).ctx = s.ctx ∧
      (openTheSlot i q recId s).adu = s.adu ∧ (openTheSlot i q recId s).scn = s.scn ∧
      (openTheSlot i q recId s).cbf.segs = s.cbf.segs ∧ (openTheSlot i q recId s).cbf.pend = s.cbf.pend ∧
      (openTheSlot i q recId s).sdr.geo = s.sdr.geo ∧ (openTheSlot i q recId s).sdr.queue = s.sdr.queue ∧
      (openTheSlot i q recId s).sdr.nextRec = s.sdr.nextRec ∧ (openTheSlot i q recId s).sdr.mark = s.sdr.mark ∧
      (openTheSlot i q recId s).cwr.writer = s.cwr.writer ∧ (openTheSlot i q recId s).cwr.recId = s.cwr.recId ∧
      (openTheSlot i q recId s).cwr.present = s.cwr.present ∧ (openTheSlot i q recId s).cwr.cdet = s.cwr.cdet ∧
      (openTheSlot i q recId s).ips = s.ips ∧ (openTheSlot i q recId s).chg = s.chg ∧
      (openTheSlot i q recId s).ssv = s.ssv ∧ (openTheSlot i q recId s).lnk.refused = s.lnk.refused ∧
      (openTheSlot i q recId s).lnk.events = s.lnk.events ∧
      (openTheSlot i q recId s).lnk.recordMask = s.lnk.recordMask ∧
      (openTheSlot i q recId s).lnk.alertMask = s.lnk.alertMask ∧
      (openTheSlot i q recId s).lnk.guard = s.lnk.guard ∧
      (openTheSlot i q recId s).lnk.resetTaken = s.lnk.resetTaken ∧ (openTheSlot i q recId s).rst = s.rst ∧
      (openTheSlot i q recId s).pending = s.pending := by
  simp only [openTheSlot]; (repeat' split) <;> simp

@[simp] theorem startRecording_frame (i q : Nat) (s : State) :
    (startRecording i q s).now = s.now ∧ (startRecording i q s).msu = s.msu ∧ (startRecording i q s).csu = s.csu ∧
      (startRecording i q s).ctx = s.ctx ∧ (startRecording i q s).adu = s.adu ∧
      (startRecording i q s).scn = s.scn ∧ (startRecording i q s).cbf.segs = s.cbf.segs ∧
      (startRecording i q s).cbf.pend = s.cbf.pend ∧ (startRecording i q s).sdr.geo = s.sdr.geo ∧
      (startRecording i q s).sdr.queue = s.sdr.queue ∧ (startRecording i q s).cwr.present = s.cwr.present ∧
      (startRecording i q s).cwr.cdet = s.cwr.cdet ∧ (startRecording i q s).ips = s.ips ∧
      (startRecording i q s).chg = s.chg ∧ (startRecording i q s).ssv = s.ssv ∧
      (startRecording i q s).lnk.refused = s.lnk.refused ∧ (startRecording i q s).lnk.events = s.lnk.events ∧
      (startRecording i q s).lnk.recordMask = s.lnk.recordMask ∧
      (startRecording i q s).lnk.alertMask = s.lnk.alertMask ∧ (startRecording i q s).lnk.guard = s.lnk.guard ∧
      (startRecording i q s).lnk.resetTaken = s.lnk.resetTaken ∧ (startRecording i q s).rst = s.rst ∧
      (startRecording i q s).pending = s.pending := by
  simp only [startRecording]; (repeat' split) <;> simp

@[simp] theorem recStartWith_frame (tag : Byte) (i q : Nat) (s : State) :
    (recStartWith tag i q s).now = s.now ∧ (recStartWith tag i q s).msu = s.msu ∧
      (recStartWith tag i q s).csu = s.csu ∧ (recStartWith tag i q s).ctx = s.ctx ∧
      (recStartWith tag i q s).scn = s.scn ∧ (recStartWith tag i q s).cwr.present = s.cwr.present ∧
      (recStartWith tag i q s).cwr.cdet = s.cwr.cdet ∧ (recStartWith tag i q s).ips = s.ips ∧
      (recStartWith tag i q s).ssv.stable = s.ssv.stable ∧ (recStartWith tag i q s).ssv.rideMs = s.ssv.rideMs ∧
      (recStartWith tag i q s).ssv.budget = s.ssv.budget ∧ (recStartWith tag i q s).ssv.rail = s.ssv.rail ∧
      (recStartWith tag i q s).lnk.refused = s.lnk.refused ∧
      (recStartWith tag i q s).lnk.recordMask = s.lnk.recordMask ∧
      (recStartWith tag i q s).lnk.alertMask = s.lnk.alertMask ∧ (recStartWith tag i q s).lnk.guard = s.lnk.guard ∧
      (recStartWith tag i q s).lnk.resetTaken = s.lnk.resetTaken ∧ (recStartWith tag i q s).rst = s.rst ∧
      (recStartWith tag i q s).pending = s.pending := by
  simp only [recStartWith]; (repeat' split) <;> simp

@[simp] theorem dataReply_frame (tag : Byte) (status : Status) (taken : Nat) (s : State) :
    (dataReply tag status taken s).now = s.now ∧ (dataReply tag status taken s).msu = s.msu ∧
      (dataReply tag status taken s).csu = s.csu ∧ (dataReply tag status taken s).ctx = s.ctx ∧
      (dataReply tag status taken s).adu = s.adu ∧ (dataReply tag status taken s).scn = s.scn ∧
      (dataReply tag status taken s).cbf = s.cbf ∧ (dataReply tag status taken s).sdr = s.sdr ∧
      (dataReply tag status taken s).cwr = s.cwr ∧ (dataReply tag status taken s).ips = s.ips ∧
      (dataReply tag status taken s).chg = s.chg ∧ (dataReply tag status taken s).ssv = s.ssv ∧
      (dataReply tag status taken s).lnk.req = s.lnk.req ∧
      (dataReply tag status taken s).lnk.refused = s.lnk.refused ∧
      (dataReply tag status taken s).lnk.events = s.lnk.events ∧
      (dataReply tag status taken s).lnk.recordMask = s.lnk.recordMask ∧
      (dataReply tag status taken s).lnk.alertMask = s.lnk.alertMask ∧
      (dataReply tag status taken s).lnk.guard = s.lnk.guard ∧
      (dataReply tag status taken s).lnk.resetTaken = s.lnk.resetTaken ∧
      (dataReply tag status taken s).rst = s.rst ∧ (dataReply tag status taken s).pending = s.pending := by
  simp only [dataReply]; (repeat' split) <;> simp

@[simp] theorem assign_frame (i : Nat) (bytes : List Byte) (s : State) :
    (assign i bytes s).now = s.now ∧ (assign i bytes s).msu = s.msu ∧ (assign i bytes s).csu = s.csu ∧
      (assign i bytes s).ctx = s.ctx ∧ (assign i bytes s).adu = s.adu ∧ (assign i bytes s).scn = s.scn ∧
      (assign i bytes s).cbf.pend = s.cbf.pend ∧ (assign i bytes s).sdr = s.sdr ∧ (assign i bytes s).cwr = s.cwr ∧
      (assign i bytes s).ips = s.ips ∧ (assign i bytes s).chg = s.chg ∧ (assign i bytes s).ssv = s.ssv ∧
      (assign i bytes s).lnk = s.lnk ∧ (assign i bytes s).rst = s.rst ∧ (assign i bytes s).pending = s.pending := by
  simp only [assign]; (repeat' split) <;> simp

@[simp] theorem crossTo_frame (j q : Nat) (rest : List Byte) (s : State) :
    (crossTo j q rest s).now = s.now ∧ (crossTo j q rest s).msu = s.msu ∧ (crossTo j q rest s).csu = s.csu ∧
      (crossTo j q rest s).ctx = s.ctx ∧ (crossTo j q rest s).adu = s.adu ∧ (crossTo j q rest s).scn = s.scn ∧
      (crossTo j q rest s).cbf.pend = s.cbf.pend ∧ (crossTo j q rest s).sdr.geo = s.sdr.geo ∧
      (crossTo j q rest s).sdr.nextRec = s.sdr.nextRec ∧ (crossTo j q rest s).cwr.recId = s.cwr.recId ∧
      (crossTo j q rest s).cwr.present = s.cwr.present ∧ (crossTo j q rest s).cwr.cdet = s.cwr.cdet ∧
      (crossTo j q rest s).ips = s.ips ∧ (crossTo j q rest s).chg = s.chg ∧ (crossTo j q rest s).ssv = s.ssv ∧
      (crossTo j q rest s).lnk.refused = s.lnk.refused ∧ (crossTo j q rest s).lnk.recordMask = s.lnk.recordMask ∧
      (crossTo j q rest s).lnk.alertMask = s.lnk.alertMask ∧ (crossTo j q rest s).lnk.guard = s.lnk.guard ∧
      (crossTo j q rest s).lnk.resetTaken = s.lnk.resetTaken ∧ (crossTo j q rest s).rst = s.rst ∧
      (crossTo j q rest s).pending = s.pending := by
  simp only [crossTo]; (repeat' split) <;> simp

@[simp] theorem crossNowhere_frame (i : Nat) (rest : List Byte) (s : State) :
    (crossNowhere i rest s).now = s.now ∧ (crossNowhere i rest s).msu = s.msu ∧
      (crossNowhere i rest s).csu = s.csu ∧ (crossNowhere i rest s).ctx = s.ctx ∧
      (crossNowhere i rest s).adu = s.adu ∧ (crossNowhere i rest s).scn = s.scn ∧
      (crossNowhere i rest s).cbf = s.cbf ∧ (crossNowhere i rest s).sdr.geo = s.sdr.geo ∧
      (crossNowhere i rest s).sdr.queue = s.sdr.queue ∧ (crossNowhere i rest s).sdr.nextSeq = s.sdr.nextSeq ∧
      (crossNowhere i rest s).sdr.nextRec = s.sdr.nextRec ∧ (crossNowhere i rest s).cwr.recId = s.cwr.recId ∧
      (crossNowhere i rest s).cwr.port = s.cwr.port ∧ (crossNowhere i rest s).cwr.cursor = s.cwr.cursor ∧
      (crossNowhere i rest s).cwr.present = s.cwr.present ∧ (crossNowhere i rest s).cwr.cdet = s.cwr.cdet ∧
      (crossNowhere i rest s).ips = s.ips ∧ (crossNowhere i rest s).chg = s.chg ∧
      (crossNowhere i rest s).ssv = s.ssv ∧ (crossNowhere i rest s).lnk = s.lnk ∧
      (crossNowhere i rest s).rst = s.rst ∧ (crossNowhere i rest s).pending = s.pending := by
  simp only [crossNowhere]; (repeat' split) <;> simp

@[simp] theorem crossing_frame (i : Nat) (rest : List Byte) (s : State) :
    (crossing i rest s).1.now = s.now ∧ (crossing i rest s).1.msu = s.msu ∧ (crossing i rest s).1.csu = s.csu ∧
      (crossing i rest s).1.ctx = s.ctx ∧ (crossing i rest s).1.adu = s.adu ∧ (crossing i rest s).1.scn = s.scn ∧
      (crossing i rest s).1.cbf.pend = s.cbf.pend ∧ (crossing i rest s).1.sdr.geo = s.sdr.geo ∧
      (crossing i rest s).1.sdr.nextRec = s.sdr.nextRec ∧ (crossing i rest s).1.cwr.recId = s.cwr.recId ∧
      (crossing i rest s).1.cwr.present = s.cwr.present ∧ (crossing i rest s).1.cwr.cdet = s.cwr.cdet ∧
      (crossing i rest s).1.ips = s.ips ∧ (crossing i rest s).1.chg = s.chg ∧ (crossing i rest s).1.ssv = s.ssv ∧
      (crossing i rest s).1.lnk.refused = s.lnk.refused ∧ (crossing i rest s).1.lnk.recordMask = s.lnk.recordMask ∧
      (crossing i rest s).1.lnk.alertMask = s.lnk.alertMask ∧ (crossing i rest s).1.lnk.guard = s.lnk.guard ∧
      (crossing i rest s).1.lnk.resetTaken = s.lnk.resetTaken ∧ (crossing i rest s).1.rst = s.rst ∧
      (crossing i rest s).1.pending = s.pending := by
  simp only [crossing]; (repeat' split) <;> simp

@[simp] theorem acceptData_frame (i : Nat) (bytes : List Byte) (s : State) :
    (acceptData i bytes s).1.now = s.now ∧ (acceptData i bytes s).1.msu = s.msu ∧
      (acceptData i bytes s).1.csu = s.csu ∧ (acceptData i bytes s).1.ctx = s.ctx ∧
      (acceptData i bytes s).1.adu = s.adu ∧ (acceptData i bytes s).1.scn = s.scn ∧
      (acceptData i bytes s).1.cbf.pend = s.cbf.pend ∧ (acceptData i bytes s).1.sdr.geo = s.sdr.geo ∧
      (acceptData i bytes s).1.sdr.nextRec = s.sdr.nextRec ∧ (acceptData i bytes s).1.cwr.recId = s.cwr.recId ∧
      (acceptData i bytes s).1.cwr.present = s.cwr.present ∧ (acceptData i bytes s).1.cwr.cdet = s.cwr.cdet ∧
      (acceptData i bytes s).1.ips = s.ips ∧ (acceptData i bytes s).1.chg = s.chg ∧
      (acceptData i bytes s).1.ssv = s.ssv ∧ (acceptData i bytes s).1.lnk.refused = s.lnk.refused ∧
      (acceptData i bytes s).1.lnk.recordMask = s.lnk.recordMask ∧
      (acceptData i bytes s).1.lnk.alertMask = s.lnk.alertMask ∧ (acceptData i bytes s).1.lnk.guard = s.lnk.guard ∧
      (acceptData i bytes s).1.lnk.resetTaken = s.lnk.resetTaken ∧ (acceptData i bytes s).1.rst = s.rst ∧
      (acceptData i bytes s).1.pending = s.pending := by
  simp only [acceptData]; (repeat' split) <;> simp

@[simp] theorem setLocks_frame (i : Nat) (l : LockSet) (s : State) :
    (setLocks i l s).now = s.now ∧ (setLocks i l s).msu = s.msu ∧ (setLocks i l s).csu = s.csu ∧
      (setLocks i l s).ctx = s.ctx ∧ (setLocks i l s).adu = s.adu ∧ (setLocks i l s).scn = s.scn ∧
      (setLocks i l s).cbf = s.cbf ∧ (setLocks i l s).sdr.geo = s.sdr.geo ∧
      (setLocks i l s).sdr.nextSeq = s.sdr.nextSeq ∧ (setLocks i l s).sdr.nextRec = s.sdr.nextRec ∧
      (setLocks i l s).sdr.mark = s.sdr.mark ∧ (setLocks i l s).cwr = s.cwr ∧ (setLocks i l s).ips = s.ips ∧
      (setLocks i l s).chg = s.chg ∧ (setLocks i l s).ssv = s.ssv ∧ (setLocks i l s).lnk = s.lnk ∧
      (setLocks i l s).rst = s.rst ∧ (setLocks i l s).pending = s.pending := by
  simp only [setLocks]; (repeat' split) <;> simp

@[simp] theorem setCursor_frame (c : Option Cursor) (s : State) :
    (setCursor c s).now = s.now ∧ (setCursor c s).msu = s.msu ∧ (setCursor c s).csu = s.csu ∧
      (setCursor c s).ctx = s.ctx ∧ (setCursor c s).adu = s.adu ∧ (setCursor c s).scn = s.scn ∧
      (setCursor c s).cbf = s.cbf ∧ (setCursor c s).sdr = s.sdr ∧ (setCursor c s).cwr.writer = s.cwr.writer ∧
      (setCursor c s).cwr.recId = s.cwr.recId ∧ (setCursor c s).cwr.port = s.cwr.port ∧
      (setCursor c s).cwr.present = s.cwr.present ∧ (setCursor c s).cwr.cdet = s.cwr.cdet ∧
      (setCursor c s).ips = s.ips ∧ (setCursor c s).chg = s.chg ∧ (setCursor c s).ssv = s.ssv ∧
      (setCursor c s).lnk = s.lnk ∧ (setCursor c s).rst = s.rst ∧ (setCursor c s).pending = s.pending := by
  simp only [setCursor]; (repeat' split) <;> simp

@[simp] theorem beginRead_frame (tag : Byte) (i k number : Nat) (s : State) :
    (beginRead tag i k number s).now = s.now ∧ (beginRead tag i k number s).msu = s.msu ∧
      (beginRead tag i k number s).csu = s.csu ∧ (beginRead tag i k number s).ctx = s.ctx ∧
      (beginRead tag i k number s).scn = s.scn ∧ (beginRead tag i k number s).cwr.present = s.cwr.present ∧
      (beginRead tag i k number s).cwr.cdet = s.cwr.cdet ∧ (beginRead tag i k number s).ips = s.ips ∧
      (beginRead tag i k number s).ssv.stable = s.ssv.stable ∧
      (beginRead tag i k number s).ssv.rideMs = s.ssv.rideMs ∧
      (beginRead tag i k number s).ssv.budget = s.ssv.budget ∧ (beginRead tag i k number s).ssv.rail = s.ssv.rail ∧
      (beginRead tag i k number s).lnk.refused = s.lnk.refused ∧
      (beginRead tag i k number s).lnk.recordMask = s.lnk.recordMask ∧
      (beginRead tag i k number s).lnk.alertMask = s.lnk.alertMask ∧
      (beginRead tag i k number s).lnk.guard = s.lnk.guard ∧
      (beginRead tag i k number s).lnk.resetTaken = s.lnk.resetTaken ∧ (beginRead tag i k number s).rst = s.rst ∧
      (beginRead tag i k number s).pending = s.pending := by
  simp only [beginRead]; (repeat' split) <;> simp

@[simp] theorem readStart_frame (tag : Byte) (i count : Nat) (e : Entry) (s : State) :
    (readStart tag i count e s).now = s.now ∧ (readStart tag i count e s).msu = s.msu ∧
      (readStart tag i count e s).csu = s.csu ∧ (readStart tag i count e s).ctx = s.ctx ∧
      (readStart tag i count e s).scn = s.scn ∧ (readStart tag i count e s).cwr.present = s.cwr.present ∧
      (readStart tag i count e s).cwr.cdet = s.cwr.cdet ∧ (readStart tag i count e s).ips = s.ips ∧
      (readStart tag i count e s).ssv.stable = s.ssv.stable ∧
      (readStart tag i count e s).ssv.rideMs = s.ssv.rideMs ∧
      (readStart tag i count e s).ssv.budget = s.ssv.budget ∧ (readStart tag i count e s).ssv.rail = s.ssv.rail ∧
      (readStart tag i count e s).lnk.refused = s.lnk.refused ∧
      (readStart tag i count e s).lnk.recordMask = s.lnk.recordMask ∧
      (readStart tag i count e s).lnk.alertMask = s.lnk.alertMask ∧
      (readStart tag i count e s).lnk.guard = s.lnk.guard ∧
      (readStart tag i count e s).lnk.resetTaken = s.lnk.resetTaken ∧ (readStart tag i count e s).rst = s.rst ∧
      (readStart tag i count e s).pending = s.pending := by
  simp only [readStart]; (repeat' split) <;> simp

@[simp] theorem readContinue_frame (tag : Byte) (i count : Nat) (e : Entry) (s : State) :
    (readContinue tag i count e s).now = s.now ∧ (readContinue tag i count e s).msu = s.msu ∧
      (readContinue tag i count e s).csu = s.csu ∧ (readContinue tag i count e s).ctx = s.ctx ∧
      (readContinue tag i count e s).scn = s.scn ∧ (readContinue tag i count e s).cwr.present = s.cwr.present ∧
      (readContinue tag i count e s).cwr.cdet = s.cwr.cdet ∧ (readContinue tag i count e s).ips = s.ips ∧
      (readContinue tag i count e s).ssv.stable = s.ssv.stable ∧
      (readContinue tag i count e s).ssv.rideMs = s.ssv.rideMs ∧
      (readContinue tag i count e s).ssv.budget = s.ssv.budget ∧
      (readContinue tag i count e s).ssv.rail = s.ssv.rail ∧
      (readContinue tag i count e s).lnk.refused = s.lnk.refused ∧
      (readContinue tag i count e s).lnk.recordMask = s.lnk.recordMask ∧
      (readContinue tag i count e s).lnk.alertMask = s.lnk.alertMask ∧
      (readContinue tag i count e s).lnk.guard = s.lnk.guard ∧
      (readContinue tag i count e s).lnk.resetTaken = s.lnk.resetTaken ∧
      (readContinue tag i count e s).rst = s.rst ∧ (readContinue tag i count e s).pending = s.pending := by
  simp only [readContinue]; (repeat' split) <;> simp

@[simp] theorem motionTimeout_frame (s : State) :
    (motionTimeout s).now = s.now ∧ (motionTimeout s).msu = s.msu ∧ (motionTimeout s).csu = s.csu ∧
      (motionTimeout s).ctx = s.ctx ∧ (motionTimeout s).adu = s.adu ∧ (motionTimeout s).scn = s.scn ∧
      (motionTimeout s).cbf = s.cbf ∧ (motionTimeout s).sdr = s.sdr ∧ (motionTimeout s).cwr.writer = s.cwr.writer ∧
      (motionTimeout s).cwr.recId = s.cwr.recId ∧ (motionTimeout s).cwr.cursor = s.cwr.cursor ∧
      (motionTimeout s).cwr.present = s.cwr.present ∧ (motionTimeout s).cwr.cdet = s.cwr.cdet ∧
      (motionTimeout s).ips = s.ips ∧ (motionTimeout s).chg = s.chg ∧ (motionTimeout s).ssv = s.ssv ∧
      (motionTimeout s).lnk.refused = s.lnk.refused ∧ (motionTimeout s).lnk.events = s.lnk.events ∧
      (motionTimeout s).lnk.recordMask = s.lnk.recordMask ∧ (motionTimeout s).lnk.alertMask = s.lnk.alertMask ∧
      (motionTimeout s).lnk.guard = s.lnk.guard ∧ (motionTimeout s).lnk.resetTaken = s.lnk.resetTaken ∧
      (motionTimeout s).rst = s.rst ∧ (motionTimeout s).pending = s.pending := by
  simp only [motionTimeout]; (repeat' split) <;> simp

@[simp] theorem mountFailed_frame (cause : CardCause) (s : State) :
    (mountFailed cause s).now = s.now ∧ (mountFailed cause s).msu = s.msu ∧ (mountFailed cause s).csu = s.csu ∧
      (mountFailed cause s).ctx = s.ctx ∧ (mountFailed cause s).adu = s.adu ∧ (mountFailed cause s).scn = s.scn ∧
      (mountFailed cause s).cwr.recId = s.cwr.recId ∧ (mountFailed cause s).cwr.present = s.cwr.present ∧
      (mountFailed cause s).cwr.cdet = s.cwr.cdet ∧ (mountFailed cause s).ips = s.ips ∧
      (mountFailed cause s).chg = s.chg ∧ (mountFailed cause s).ssv.st = s.ssv.st ∧
      (mountFailed cause s).ssv.timerEnd = s.ssv.timerEnd ∧ (mountFailed cause s).ssv.stable = s.ssv.stable ∧
      (mountFailed cause s).ssv.rideMs = s.ssv.rideMs ∧ (mountFailed cause s).ssv.budget = s.ssv.budget ∧
      (mountFailed cause s).ssv.rail = s.ssv.rail ∧ (mountFailed cause s).lnk.req = s.lnk.req ∧
      (mountFailed cause s).lnk.reply = s.lnk.reply ∧ (mountFailed cause s).lnk.refused = s.lnk.refused ∧
      (mountFailed cause s).lnk.recordMask = s.lnk.recordMask ∧
      (mountFailed cause s).lnk.alertMask = s.lnk.alertMask ∧ (mountFailed cause s).lnk.guard = s.lnk.guard ∧
      (mountFailed cause s).lnk.resetTaken = s.lnk.resetTaken ∧ (mountFailed cause s).rst = s.rst ∧
      (mountFailed cause s).pending = s.pending := by
  simp only [mountFailed]; (repeat' split) <;> simp

@[simp] theorem completeMount_frame (conflicts : Nat) (s : State) :
    (completeMount conflicts s).now = s.now ∧ (completeMount conflicts s).msu = s.msu ∧
      (completeMount conflicts s).csu = s.csu ∧ (completeMount conflicts s).ctx = s.ctx ∧
      (completeMount conflicts s).scn = s.scn ∧ (completeMount conflicts s).cwr.present = s.cwr.present ∧
      (completeMount conflicts s).cwr.cdet = s.cwr.cdet ∧ (completeMount conflicts s).ips = s.ips ∧
      (completeMount conflicts s).ssv.stable = s.ssv.stable ∧
      (completeMount conflicts s).ssv.rideMs = s.ssv.rideMs ∧
      (completeMount conflicts s).ssv.budget = s.ssv.budget ∧ (completeMount conflicts s).ssv.rail = s.ssv.rail ∧
      (completeMount conflicts s).lnk.refused = s.lnk.refused ∧
      (completeMount conflicts s).lnk.recordMask = s.lnk.recordMask ∧
      (completeMount conflicts s).lnk.alertMask = s.lnk.alertMask ∧
      (completeMount conflicts s).lnk.guard = s.lnk.guard ∧
      (completeMount conflicts s).lnk.resetTaken = s.lnk.resetTaken ∧ (completeMount conflicts s).rst = s.rst ∧
      (completeMount conflicts s).pending = s.pending := by
  simp only [completeMount]; (repeat' split) <;> simp

@[simp] theorem completeScan_frame (s : State) :
    (completeScan s).now = s.now ∧ (completeScan s).msu = s.msu ∧ (completeScan s).csu = s.csu ∧
      (completeScan s).ctx = s.ctx ∧ (completeScan s).scn = s.scn ∧ (completeScan s).cwr.present = s.cwr.present ∧
      (completeScan s).cwr.cdet = s.cwr.cdet ∧ (completeScan s).ips = s.ips ∧
      (completeScan s).ssv.stable = s.ssv.stable ∧ (completeScan s).ssv.rideMs = s.ssv.rideMs ∧
      (completeScan s).ssv.budget = s.ssv.budget ∧ (completeScan s).ssv.rail = s.ssv.rail ∧
      (completeScan s).lnk.refused = s.lnk.refused ∧ (completeScan s).lnk.recordMask = s.lnk.recordMask ∧
      (completeScan s).lnk.alertMask = s.lnk.alertMask ∧ (completeScan s).lnk.guard = s.lnk.guard ∧
      (completeScan s).lnk.resetTaken = s.lnk.resetTaken ∧ (completeScan s).rst = s.rst ∧
      (completeScan s).pending = s.pending := by
  simp only [completeScan]; (repeat' split) <;> simp

@[simp] theorem completeFormat_frame (s : State) :
    (completeFormat s).now = s.now ∧ (completeFormat s).msu = s.msu ∧ (completeFormat s).csu = s.csu ∧
      (completeFormat s).ctx = s.ctx ∧ (completeFormat s).scn = s.scn ∧
      (completeFormat s).cwr.present = s.cwr.present ∧ (completeFormat s).cwr.cdet = s.cwr.cdet ∧
      (completeFormat s).ips = s.ips ∧ (completeFormat s).ssv.stable = s.ssv.stable ∧
      (completeFormat s).ssv.rideMs = s.ssv.rideMs ∧ (completeFormat s).ssv.budget = s.ssv.budget ∧
      (completeFormat s).ssv.rail = s.ssv.rail ∧ (completeFormat s).lnk.refused = s.lnk.refused ∧
      (completeFormat s).lnk.recordMask = s.lnk.recordMask ∧ (completeFormat s).lnk.alertMask = s.lnk.alertMask ∧
      (completeFormat s).lnk.guard = s.lnk.guard ∧ (completeFormat s).lnk.resetTaken = s.lnk.resetTaken ∧
      (completeFormat s).rst = s.rst ∧ (completeFormat s).pending = s.pending := by
  simp only [completeFormat]; (repeat' split) <;> simp

@[simp] theorem mountStep_frame (i : Nat) (s : State) :
    (mountStep i s).now = s.now ∧ (mountStep i s).msu = s.msu ∧ (mountStep i s).csu = s.csu ∧
      (mountStep i s).ctx = s.ctx ∧ (mountStep i s).scn = s.scn ∧ (mountStep i s).cwr.present = s.cwr.present ∧
      (mountStep i s).cwr.cdet = s.cwr.cdet ∧ (mountStep i s).ips = s.ips ∧
      (mountStep i s).ssv.stable = s.ssv.stable ∧ (mountStep i s).ssv.rideMs = s.ssv.rideMs ∧
      (mountStep i s).ssv.budget = s.ssv.budget ∧ (mountStep i s).ssv.rail = s.ssv.rail ∧
      (mountStep i s).lnk.refused = s.lnk.refused ∧ (mountStep i s).lnk.recordMask = s.lnk.recordMask ∧
      (mountStep i s).lnk.alertMask = s.lnk.alertMask ∧ (mountStep i s).lnk.guard = s.lnk.guard ∧
      (mountStep i s).lnk.resetTaken = s.lnk.resetTaken ∧ (mountStep i s).rst = s.rst ∧
      (mountStep i s).pending = s.pending := by
  simp only [mountStep]; (repeat' split) <;> simp

@[simp] theorem mountEntry_frame (i : Nat) (e : Entry) (s : State) :
    (mountEntry i e s).now = s.now ∧ (mountEntry i e s).msu = s.msu ∧ (mountEntry i e s).csu = s.csu ∧
      (mountEntry i e s).ctx = s.ctx ∧ (mountEntry i e s).scn = s.scn ∧
      (mountEntry i e s).cwr.present = s.cwr.present ∧ (mountEntry i e s).cwr.cdet = s.cwr.cdet ∧
      (mountEntry i e s).ips = s.ips ∧ (mountEntry i e s).ssv.stable = s.ssv.stable ∧
      (mountEntry i e s).ssv.rideMs = s.ssv.rideMs ∧ (mountEntry i e s).ssv.budget = s.ssv.budget ∧
      (mountEntry i e s).ssv.rail = s.ssv.rail ∧ (mountEntry i e s).lnk.refused = s.lnk.refused ∧
      (mountEntry i e s).lnk.recordMask = s.lnk.recordMask ∧ (mountEntry i e s).lnk.alertMask = s.lnk.alertMask ∧
      (mountEntry i e s).lnk.guard = s.lnk.guard ∧ (mountEntry i e s).lnk.resetTaken = s.lnk.resetTaken ∧
      (mountEntry i e s).rst = s.rst ∧ (mountEntry i e s).pending = s.pending := by
  simp only [mountEntry]; (repeat' split) <;> simp

@[simp] theorem broughtUp_frame (capacity : Nat) (s : State) :
    (broughtUp capacity s).now = s.now ∧ (broughtUp capacity s).msu = s.msu ∧ (broughtUp capacity s).csu = s.csu ∧
      (broughtUp capacity s).ctx = s.ctx ∧ (broughtUp capacity s).scn = s.scn ∧
      (broughtUp capacity s).cwr.present = s.cwr.present ∧ (broughtUp capacity s).cwr.cdet = s.cwr.cdet ∧
      (broughtUp capacity s).ips = s.ips ∧ (broughtUp capacity s).ssv.stable = s.ssv.stable ∧
      (broughtUp capacity s).ssv.rideMs = s.ssv.rideMs ∧ (broughtUp capacity s).ssv.budget = s.ssv.budget ∧
      (broughtUp capacity s).ssv.rail = s.ssv.rail ∧ (broughtUp capacity s).lnk.refused = s.lnk.refused ∧
      (broughtUp capacity s).lnk.recordMask = s.lnk.recordMask ∧
      (broughtUp capacity s).lnk.alertMask = s.lnk.alertMask ∧ (broughtUp capacity s).lnk.guard = s.lnk.guard ∧
      (broughtUp capacity s).lnk.resetTaken = s.lnk.resetTaken ∧ (broughtUp capacity s).rst = s.rst ∧
      (broughtUp capacity s).pending = s.pending := by
  simp only [broughtUp]; (repeat' split) <;> simp

@[simp] theorem countUnit_frame (i : Nat) (s : State) :
    (countUnit i s).now = s.now ∧ (countUnit i s).msu = s.msu ∧ (countUnit i s).csu = s.csu ∧
      (countUnit i s).ctx = s.ctx ∧ (countUnit i s).adu = s.adu ∧ (countUnit i s).scn = s.scn ∧
      (countUnit i s).cbf = s.cbf ∧ (countUnit i s).sdr.geo = s.sdr.geo ∧
      (countUnit i s).sdr.nextSeq = s.sdr.nextSeq ∧ (countUnit i s).sdr.nextRec = s.sdr.nextRec ∧
      (countUnit i s).sdr.mark = s.sdr.mark ∧ (countUnit i s).cwr.writer = s.cwr.writer ∧
      (countUnit i s).cwr.recId = s.cwr.recId ∧ (countUnit i s).cwr.port = s.cwr.port ∧
      (countUnit i s).cwr.cursor = s.cwr.cursor ∧ (countUnit i s).cwr.present = s.cwr.present ∧
      (countUnit i s).cwr.cdet = s.cwr.cdet ∧ (countUnit i s).ips = s.ips ∧ (countUnit i s).chg = s.chg ∧
      (countUnit i s).ssv = s.ssv ∧ (countUnit i s).lnk = s.lnk ∧ (countUnit i s).rst = s.rst ∧
      (countUnit i s).pending = s.pending := by
  simp only [countUnit]; (repeat' split) <;> simp

@[simp] theorem unitDone_frame (i n : Nat) (s : State) :
    (unitDone i n s).now = s.now ∧ (unitDone i n s).msu = s.msu ∧ (unitDone i n s).csu = s.csu ∧
      (unitDone i n s).ctx = s.ctx ∧ (unitDone i n s).scn = s.scn ∧ (unitDone i n s).cwr.present = s.cwr.present ∧
      (unitDone i n s).cwr.cdet = s.cwr.cdet ∧ (unitDone i n s).ips = s.ips ∧
      (unitDone i n s).ssv.stable = s.ssv.stable ∧ (unitDone i n s).ssv.rideMs = s.ssv.rideMs ∧
      (unitDone i n s).ssv.budget = s.ssv.budget ∧ (unitDone i n s).ssv.rail = s.ssv.rail ∧
      (unitDone i n s).lnk.refused = s.lnk.refused ∧ (unitDone i n s).lnk.recordMask = s.lnk.recordMask ∧
      (unitDone i n s).lnk.alertMask = s.lnk.alertMask ∧ (unitDone i n s).lnk.guard = s.lnk.guard ∧
      (unitDone i n s).lnk.resetTaken = s.lnk.resetTaken ∧ (unitDone i n s).rst = s.rst ∧
      (unitDone i n s).pending = s.pending := by
  simp only [unitDone]; (repeat' split) <;> simp

@[simp] theorem blockDone_frame (i n : Nat) (s : State) :
    (blockDone i n s).now = s.now ∧ (blockDone i n s).msu = s.msu ∧ (blockDone i n s).csu = s.csu ∧
      (blockDone i n s).ctx = s.ctx ∧ (blockDone i n s).scn = s.scn ∧
      (blockDone i n s).cwr.present = s.cwr.present ∧ (blockDone i n s).cwr.cdet = s.cwr.cdet ∧
      (blockDone i n s).ips = s.ips ∧ (blockDone i n s).ssv.stable = s.ssv.stable ∧
      (blockDone i n s).ssv.rideMs = s.ssv.rideMs ∧ (blockDone i n s).ssv.budget = s.ssv.budget ∧
      (blockDone i n s).ssv.rail = s.ssv.rail ∧ (blockDone i n s).lnk.refused = s.lnk.refused ∧
      (blockDone i n s).lnk.recordMask = s.lnk.recordMask ∧ (blockDone i n s).lnk.alertMask = s.lnk.alertMask ∧
      (blockDone i n s).lnk.guard = s.lnk.guard ∧ (blockDone i n s).lnk.resetTaken = s.lnk.resetTaken ∧
      (blockDone i n s).rst = s.rst ∧ (blockDone i n s).pending = s.pending := by
  simp only [blockDone]; (repeat' split) <;> simp

@[simp] theorem endRollover_frame (i : Nat) (s : State) :
    (endRollover i s).now = s.now ∧ (endRollover i s).msu = s.msu ∧ (endRollover i s).csu = s.csu ∧
      (endRollover i s).ctx = s.ctx ∧ (endRollover i s).adu = s.adu ∧ (endRollover i s).scn = s.scn ∧
      (endRollover i s).cbf = s.cbf ∧ (endRollover i s).sdr.geo = s.sdr.geo ∧
      (endRollover i s).sdr.queue = s.sdr.queue ∧ (endRollover i s).sdr.nextSeq = s.sdr.nextSeq ∧
      (endRollover i s).sdr.nextRec = s.sdr.nextRec ∧ (endRollover i s).cwr.recId = s.cwr.recId ∧
      (endRollover i s).cwr.port = s.cwr.port ∧ (endRollover i s).cwr.cursor = s.cwr.cursor ∧
      (endRollover i s).cwr.present = s.cwr.present ∧ (endRollover i s).cwr.cdet = s.cwr.cdet ∧
      (endRollover i s).ips = s.ips ∧ (endRollover i s).chg = s.chg ∧ (endRollover i s).ssv = s.ssv ∧
      (endRollover i s).lnk = s.lnk ∧ (endRollover i s).rst = s.rst ∧ (endRollover i s).pending = s.pending := by
  simp only [endRollover]; (repeat' split) <;> simp

@[simp] theorem openedEvent_frame (i : Nat) (s : State) :
    (openedEvent i s).now = s.now ∧ (openedEvent i s).msu = s.msu ∧ (openedEvent i s).csu = s.csu ∧
      (openedEvent i s).ctx = s.ctx ∧ (openedEvent i s).adu = s.adu ∧ (openedEvent i s).scn = s.scn ∧
      (openedEvent i s).cbf = s.cbf ∧ (openedEvent i s).sdr = s.sdr ∧ (openedEvent i s).cwr = s.cwr ∧
      (openedEvent i s).ips = s.ips ∧ (openedEvent i s).chg = s.chg ∧ (openedEvent i s).ssv = s.ssv ∧
      (openedEvent i s).lnk.req = s.lnk.req ∧ (openedEvent i s).lnk.reply = s.lnk.reply ∧
      (openedEvent i s).lnk.refused = s.lnk.refused ∧ (openedEvent i s).lnk.recordMask = s.lnk.recordMask ∧
      (openedEvent i s).lnk.alertMask = s.lnk.alertMask ∧ (openedEvent i s).lnk.guard = s.lnk.guard ∧
      (openedEvent i s).lnk.resetTaken = s.lnk.resetTaken ∧ (openedEvent i s).rst = s.rst ∧
      (openedEvent i s).pending = s.pending := by
  simp only [openedEvent]; (repeat' split) <;> simp

@[simp] theorem openingDone_frame (i : Nat) (s : State) :
    (openingDone i s).now = s.now ∧ (openingDone i s).msu = s.msu ∧ (openingDone i s).csu = s.csu ∧
      (openingDone i s).ctx = s.ctx ∧ (openingDone i s).scn = s.scn ∧
      (openingDone i s).cwr.present = s.cwr.present ∧ (openingDone i s).cwr.cdet = s.cwr.cdet ∧
      (openingDone i s).ips = s.ips ∧ (openingDone i s).ssv.stable = s.ssv.stable ∧
      (openingDone i s).ssv.rideMs = s.ssv.rideMs ∧ (openingDone i s).ssv.budget = s.ssv.budget ∧
      (openingDone i s).ssv.rail = s.ssv.rail ∧ (openingDone i s).lnk.refused = s.lnk.refused ∧
      (openingDone i s).lnk.recordMask = s.lnk.recordMask ∧ (openingDone i s).lnk.alertMask = s.lnk.alertMask ∧
      (openingDone i s).lnk.guard = s.lnk.guard ∧ (openingDone i s).lnk.resetTaken = s.lnk.resetTaken ∧
      (openingDone i s).rst = s.rst ∧ (openingDone i s).pending = s.pending := by
  simp only [openingDone]; (repeat' split) <;> simp

@[simp] theorem closedDone_frame (i : Nat) (reason : CloseReason) (s : State) :
    (closedDone i reason s).now = s.now ∧ (closedDone i reason s).msu = s.msu ∧
      (closedDone i reason s).csu = s.csu ∧ (closedDone i reason s).ctx = s.ctx ∧
      (closedDone i reason s).scn = s.scn ∧ (closedDone i reason s).cwr.present = s.cwr.present ∧
      (closedDone i reason s).cwr.cdet = s.cwr.cdet ∧ (closedDone i reason s).ips = s.ips ∧
      (closedDone i reason s).ssv.stable = s.ssv.stable ∧ (closedDone i reason s).ssv.rideMs = s.ssv.rideMs ∧
      (closedDone i reason s).ssv.budget = s.ssv.budget ∧ (closedDone i reason s).ssv.rail = s.ssv.rail ∧
      (closedDone i reason s).lnk.refused = s.lnk.refused ∧
      (closedDone i reason s).lnk.recordMask = s.lnk.recordMask ∧
      (closedDone i reason s).lnk.alertMask = s.lnk.alertMask ∧ (closedDone i reason s).lnk.guard = s.lnk.guard ∧
      (closedDone i reason s).lnk.resetTaken = s.lnk.resetTaken ∧ (closedDone i reason s).rst = s.rst ∧
      (closedDone i reason s).pending = s.pending := by
  simp only [closedDone]; (repeat' split) <;> simp

@[simp] theorem emClosedDone_frame (i : Nat) (s : State) :
    (emClosedDone i s).now = s.now ∧ (emClosedDone i s).msu = s.msu ∧ (emClosedDone i s).csu = s.csu ∧
      (emClosedDone i s).ctx = s.ctx ∧ (emClosedDone i s).scn = s.scn ∧
      (emClosedDone i s).cwr.present = s.cwr.present ∧ (emClosedDone i s).cwr.cdet = s.cwr.cdet ∧
      (emClosedDone i s).ips = s.ips ∧ (emClosedDone i s).ssv.stable = s.ssv.stable ∧
      (emClosedDone i s).ssv.rideMs = s.ssv.rideMs ∧ (emClosedDone i s).ssv.budget = s.ssv.budget ∧
      (emClosedDone i s).ssv.rail = s.ssv.rail ∧ (emClosedDone i s).lnk.refused = s.lnk.refused ∧
      (emClosedDone i s).lnk.recordMask = s.lnk.recordMask ∧ (emClosedDone i s).lnk.alertMask = s.lnk.alertMask ∧
      (emClosedDone i s).lnk.guard = s.lnk.guard ∧ (emClosedDone i s).lnk.resetTaken = s.lnk.resetTaken ∧
      (emClosedDone i s).rst = s.rst ∧ (emClosedDone i s).pending = s.pending := by
  simp only [emClosedDone]; (repeat' split) <;> simp

@[simp] theorem emDone_frame (s : State) :
    (emDone s).now = s.now ∧ (emDone s).msu = s.msu ∧ (emDone s).csu = s.csu ∧ (emDone s).ctx = s.ctx ∧
      (emDone s).scn = s.scn ∧ (emDone s).cwr.present = s.cwr.present ∧ (emDone s).cwr.cdet = s.cwr.cdet ∧
      (emDone s).ips = s.ips ∧ (emDone s).ssv.stable = s.ssv.stable ∧ (emDone s).ssv.rideMs = s.ssv.rideMs ∧
      (emDone s).ssv.budget = s.ssv.budget ∧ (emDone s).ssv.rail = s.ssv.rail ∧
      (emDone s).lnk.refused = s.lnk.refused ∧ (emDone s).lnk.recordMask = s.lnk.recordMask ∧
      (emDone s).lnk.alertMask = s.lnk.alertMask ∧ (emDone s).lnk.guard = s.lnk.guard ∧
      (emDone s).lnk.resetTaken = s.lnk.resetTaken ∧ (emDone s).rst = s.rst ∧ (emDone s).pending = s.pending := by
  simp only [emDone]; (repeat' split) <;> simp

@[simp] theorem emUpdateFailed_frame (i : Nat) (s : State) :
    (emUpdateFailed i s).now = s.now ∧ (emUpdateFailed i s).msu = s.msu ∧ (emUpdateFailed i s).csu = s.csu ∧
      (emUpdateFailed i s).ctx = s.ctx ∧ (emUpdateFailed i s).scn = s.scn ∧
      (emUpdateFailed i s).cwr.present = s.cwr.present ∧ (emUpdateFailed i s).cwr.cdet = s.cwr.cdet ∧
      (emUpdateFailed i s).ips = s.ips ∧ (emUpdateFailed i s).ssv.stable = s.ssv.stable ∧
      (emUpdateFailed i s).ssv.rideMs = s.ssv.rideMs ∧ (emUpdateFailed i s).ssv.budget = s.ssv.budget ∧
      (emUpdateFailed i s).ssv.rail = s.ssv.rail ∧ (emUpdateFailed i s).lnk.refused = s.lnk.refused ∧
      (emUpdateFailed i s).lnk.recordMask = s.lnk.recordMask ∧
      (emUpdateFailed i s).lnk.alertMask = s.lnk.alertMask ∧ (emUpdateFailed i s).lnk.guard = s.lnk.guard ∧
      (emUpdateFailed i s).lnk.resetTaken = s.lnk.resetTaken ∧ (emUpdateFailed i s).rst = s.rst ∧
      (emUpdateFailed i s).pending = s.pending := by
  simp only [emUpdateFailed]; (repeat' split) <;> simp

@[simp] theorem emWriteFailed_frame (s : State) :
    (emWriteFailed s).now = s.now ∧ (emWriteFailed s).msu = s.msu ∧ (emWriteFailed s).csu = s.csu ∧
      (emWriteFailed s).ctx = s.ctx ∧ (emWriteFailed s).scn = s.scn ∧
      (emWriteFailed s).cwr.present = s.cwr.present ∧ (emWriteFailed s).cwr.cdet = s.cwr.cdet ∧
      (emWriteFailed s).ips = s.ips ∧ (emWriteFailed s).ssv.stable = s.ssv.stable ∧
      (emWriteFailed s).ssv.rideMs = s.ssv.rideMs ∧ (emWriteFailed s).ssv.budget = s.ssv.budget ∧
      (emWriteFailed s).ssv.rail = s.ssv.rail ∧ (emWriteFailed s).lnk.refused = s.lnk.refused ∧
      (emWriteFailed s).lnk.recordMask = s.lnk.recordMask ∧ (emWriteFailed s).lnk.alertMask = s.lnk.alertMask ∧
      (emWriteFailed s).lnk.guard = s.lnk.guard ∧ (emWriteFailed s).lnk.resetTaken = s.lnk.resetTaken ∧
      (emWriteFailed s).rst = s.rst ∧ (emWriteFailed s).pending = s.pending := by
  simp only [emWriteFailed]; (repeat' split) <;> simp

@[simp] theorem transferFailed_frame (t : Transfer) (s : State) :
    (transferFailed t s).now = s.now ∧ (transferFailed t s).msu = s.msu ∧ (transferFailed t s).csu = s.csu ∧
      (transferFailed t s).ctx = s.ctx ∧ (transferFailed t s).scn = s.scn ∧
      (transferFailed t s).cwr.present = s.cwr.present ∧ (transferFailed t s).cwr.cdet = s.cwr.cdet ∧
      (transferFailed t s).ips = s.ips ∧ (transferFailed t s).ssv.stable = s.ssv.stable ∧
      (transferFailed t s).ssv.rideMs = s.ssv.rideMs ∧ (transferFailed t s).ssv.budget = s.ssv.budget ∧
      (transferFailed t s).ssv.rail = s.ssv.rail ∧ (transferFailed t s).lnk.refused = s.lnk.refused ∧
      (transferFailed t s).lnk.recordMask = s.lnk.recordMask ∧
      (transferFailed t s).lnk.alertMask = s.lnk.alertMask ∧ (transferFailed t s).lnk.guard = s.lnk.guard ∧
      (transferFailed t s).lnk.resetTaken = s.lnk.resetTaken ∧ (transferFailed t s).rst = s.rst ∧
      (transferFailed t s).pending = s.pending := by
  simp only [transferFailed]; (repeat' split) <;> simp

@[simp] theorem attemptFailed_frame (s : State) :
    (attemptFailed s).now = s.now ∧ (attemptFailed s).msu = s.msu ∧ (attemptFailed s).csu = s.csu ∧
      (attemptFailed s).ctx = s.ctx ∧ (attemptFailed s).scn = s.scn ∧
      (attemptFailed s).cwr.present = s.cwr.present ∧ (attemptFailed s).cwr.cdet = s.cwr.cdet ∧
      (attemptFailed s).ips = s.ips ∧ (attemptFailed s).ssv.stable = s.ssv.stable ∧
      (attemptFailed s).ssv.rideMs = s.ssv.rideMs ∧ (attemptFailed s).ssv.budget = s.ssv.budget ∧
      (attemptFailed s).ssv.rail = s.ssv.rail ∧ (attemptFailed s).lnk.refused = s.lnk.refused ∧
      (attemptFailed s).lnk.recordMask = s.lnk.recordMask ∧ (attemptFailed s).lnk.alertMask = s.lnk.alertMask ∧
      (attemptFailed s).lnk.guard = s.lnk.guard ∧ (attemptFailed s).lnk.resetTaken = s.lnk.resetTaken ∧
      (attemptFailed s).rst = s.rst ∧ (attemptFailed s).pending = s.pending := by
  simp only [attemptFailed]; (repeat' split) <;> simp

@[simp] theorem attemptTimeout_frame (s : State) :
    (attemptTimeout s).now = s.now ∧ (attemptTimeout s).msu = s.msu ∧ (attemptTimeout s).csu = s.csu ∧
      (attemptTimeout s).ctx = s.ctx ∧ (attemptTimeout s).scn = s.scn ∧
      (attemptTimeout s).cwr.present = s.cwr.present ∧ (attemptTimeout s).cwr.cdet = s.cwr.cdet ∧
      (attemptTimeout s).ips = s.ips ∧ (attemptTimeout s).ssv.stable = s.ssv.stable ∧
      (attemptTimeout s).ssv.rideMs = s.ssv.rideMs ∧ (attemptTimeout s).ssv.budget = s.ssv.budget ∧
      (attemptTimeout s).ssv.rail = s.ssv.rail ∧ (attemptTimeout s).lnk.refused = s.lnk.refused ∧
      (attemptTimeout s).lnk.recordMask = s.lnk.recordMask ∧ (attemptTimeout s).lnk.alertMask = s.lnk.alertMask ∧
      (attemptTimeout s).lnk.guard = s.lnk.guard ∧ (attemptTimeout s).lnk.resetTaken = s.lnk.resetTaken ∧
      (attemptTimeout s).rst = s.rst ∧ (attemptTimeout s).pending = s.pending := by
  simp only [attemptTimeout]; (repeat' split) <;> simp

@[simp] theorem emFailed_frame (s : State) :
    (emFailed s).now = s.now ∧ (emFailed s).msu = s.msu ∧ (emFailed s).csu = s.csu ∧ (emFailed s).ctx = s.ctx ∧
      (emFailed s).scn = s.scn ∧ (emFailed s).cwr.present = s.cwr.present ∧ (emFailed s).cwr.cdet = s.cwr.cdet ∧
      (emFailed s).ips = s.ips ∧ (emFailed s).ssv.stable = s.ssv.stable ∧ (emFailed s).ssv.rideMs = s.ssv.rideMs ∧
      (emFailed s).ssv.budget = s.ssv.budget ∧ (emFailed s).ssv.rail = s.ssv.rail ∧
      (emFailed s).lnk.refused = s.lnk.refused ∧ (emFailed s).lnk.recordMask = s.lnk.recordMask ∧
      (emFailed s).lnk.alertMask = s.lnk.alertMask ∧ (emFailed s).lnk.guard = s.lnk.guard ∧
      (emFailed s).lnk.resetTaken = s.lnk.resetTaken ∧ (emFailed s).rst = s.rst ∧
      (emFailed s).pending = s.pending := by
  simp only [emFailed]; (repeat' split) <;> simp

@[simp] theorem moveCursor_frame (i next n : Nat) (s : State) :
    (moveCursor i next n s).now = s.now ∧ (moveCursor i next n s).msu = s.msu ∧
      (moveCursor i next n s).csu = s.csu ∧ (moveCursor i next n s).ctx = s.ctx ∧
      (moveCursor i next n s).adu = s.adu ∧ (moveCursor i next n s).scn = s.scn ∧
      (moveCursor i next n s).cbf = s.cbf ∧ (moveCursor i next n s).sdr = s.sdr ∧
      (moveCursor i next n s).cwr.writer = s.cwr.writer ∧ (moveCursor i next n s).cwr.recId = s.cwr.recId ∧
      (moveCursor i next n s).cwr.port = s.cwr.port ∧ (moveCursor i next n s).cwr.present = s.cwr.present ∧
      (moveCursor i next n s).cwr.cdet = s.cwr.cdet ∧ (moveCursor i next n s).ips = s.ips ∧
      (moveCursor i next n s).chg = s.chg ∧ (moveCursor i next n s).ssv = s.ssv ∧
      (moveCursor i next n s).lnk = s.lnk ∧ (moveCursor i next n s).rst = s.rst ∧
      (moveCursor i next n s).pending = s.pending := by
  simp only [moveCursor]; (repeat' split) <;> simp

@[simp] theorem readDone_frame (wanted : Bool) (blocks : List Byte) (s : State) :
    (readDone wanted blocks s).now = s.now ∧ (readDone wanted blocks s).msu = s.msu ∧
      (readDone wanted blocks s).csu = s.csu ∧ (readDone wanted blocks s).ctx = s.ctx ∧
      (readDone wanted blocks s).scn = s.scn ∧ (readDone wanted blocks s).cwr.present = s.cwr.present ∧
      (readDone wanted blocks s).cwr.cdet = s.cwr.cdet ∧ (readDone wanted blocks s).ips = s.ips ∧
      (readDone wanted blocks s).ssv.stable = s.ssv.stable ∧ (readDone wanted blocks s).ssv.rideMs = s.ssv.rideMs ∧
      (readDone wanted blocks s).ssv.budget = s.ssv.budget ∧ (readDone wanted blocks s).ssv.rail = s.ssv.rail ∧
      (readDone wanted blocks s).lnk.refused = s.lnk.refused ∧
      (readDone wanted blocks s).lnk.recordMask = s.lnk.recordMask ∧
      (readDone wanted blocks s).lnk.alertMask = s.lnk.alertMask ∧
      (readDone wanted blocks s).lnk.guard = s.lnk.guard ∧
      (readDone wanted blocks s).lnk.resetTaken = s.lnk.resetTaken ∧ (readDone wanted blocks s).rst = s.rst ∧
      (readDone wanted blocks s).pending = s.pending := by
  simp only [readDone]; (repeat' split) <;> simp

@[simp] theorem cdetTo_frame (card : Bool) (s : State) :
    (cdetTo card s).now = s.now ∧ (cdetTo card s).msu = s.msu ∧ (cdetTo card s).csu = s.csu ∧
      (cdetTo card s).ctx = s.ctx ∧ (cdetTo card s).adu = s.adu ∧ (cdetTo card s).scn = s.scn ∧
      (cdetTo card s).cbf = s.cbf ∧ (cdetTo card s).sdr = s.sdr ∧ (cdetTo card s).cwr.writer = s.cwr.writer ∧
      (cdetTo card s).cwr.recId = s.cwr.recId ∧ (cdetTo card s).cwr.port = s.cwr.port ∧
      (cdetTo card s).cwr.cursor = s.cwr.cursor ∧ (cdetTo card s).cwr.present = s.cwr.present ∧
      (cdetTo card s).ips = s.ips ∧ (cdetTo card s).chg = s.chg ∧ (cdetTo card s).ssv = s.ssv ∧
      (cdetTo card s).lnk = s.lnk ∧ (cdetTo card s).rst = s.rst ∧ (cdetTo card s).pending = s.pending := by
  simp only [cdetTo]; (repeat' split) <;> simp

@[simp] theorem setPresent_frame (card : Bool) (s : State) :
    (setPresent card s).now = s.now ∧ (setPresent card s).msu = s.msu ∧ (setPresent card s).csu = s.csu ∧
      (setPresent card s).ctx = s.ctx ∧ (setPresent card s).adu = s.adu ∧ (setPresent card s).scn = s.scn ∧
      (setPresent card s).cbf = s.cbf ∧ (setPresent card s).sdr = s.sdr ∧
      (setPresent card s).cwr.writer = s.cwr.writer ∧ (setPresent card s).cwr.recId = s.cwr.recId ∧
      (setPresent card s).cwr.port = s.cwr.port ∧ (setPresent card s).cwr.cursor = s.cwr.cursor ∧
      (setPresent card s).cwr.cdet = s.cwr.cdet ∧ (setPresent card s).ips = s.ips ∧
      (setPresent card s).chg = s.chg ∧ (setPresent card s).ssv = s.ssv ∧ (setPresent card s).lnk = s.lnk ∧
      (setPresent card s).rst = s.rst ∧ (setPresent card s).pending = s.pending := by
  simp only [setPresent]; (repeat' split) <;> simp

@[simp] theorem inserted_frame (s : State) :
    (inserted s).now = s.now ∧ (inserted s).msu = s.msu ∧ (inserted s).csu = s.csu ∧ (inserted s).ctx = s.ctx ∧
      (inserted s).adu = s.adu ∧ (inserted s).scn = s.scn ∧ (inserted s).cbf = s.cbf ∧ (inserted s).sdr = s.sdr ∧
      (inserted s).cwr.writer = s.cwr.writer ∧ (inserted s).cwr.recId = s.cwr.recId ∧
      (inserted s).cwr.port = s.cwr.port ∧ (inserted s).cwr.cursor = s.cwr.cursor ∧
      (inserted s).cwr.cdet = s.cwr.cdet ∧ (inserted s).ips = s.ips ∧ (inserted s).chg = s.chg ∧
      (inserted s).ssv = s.ssv ∧ (inserted s).lnk.req = s.lnk.req ∧ (inserted s).lnk.reply = s.lnk.reply ∧
      (inserted s).lnk.refused = s.lnk.refused ∧ (inserted s).lnk.recordMask = s.lnk.recordMask ∧
      (inserted s).lnk.alertMask = s.lnk.alertMask ∧ (inserted s).lnk.guard = s.lnk.guard ∧
      (inserted s).lnk.resetTaken = s.lnk.resetTaken ∧ (inserted s).rst = s.rst ∧
      (inserted s).pending = s.pending := by
  simp only [inserted]; (repeat' split) <;> simp

@[simp] theorem removed_frame (s : State) :
    (removed s).now = s.now ∧ (removed s).msu = s.msu ∧ (removed s).csu = s.csu ∧ (removed s).ctx = s.ctx ∧
      (removed s).scn = s.scn ∧ (removed s).cwr.cdet = s.cwr.cdet ∧ (removed s).ips = s.ips ∧
      (removed s).ssv.stable = s.ssv.stable ∧ (removed s).ssv.rideMs = s.ssv.rideMs ∧
      (removed s).ssv.budget = s.ssv.budget ∧ (removed s).ssv.rail = s.ssv.rail ∧
      (removed s).lnk.refused = s.lnk.refused ∧ (removed s).lnk.recordMask = s.lnk.recordMask ∧
      (removed s).lnk.alertMask = s.lnk.alertMask ∧ (removed s).lnk.guard = s.lnk.guard ∧
      (removed s).lnk.resetTaken = s.lnk.resetTaken ∧ (removed s).rst = s.rst ∧
      (removed s).pending = s.pending := by
  simp only [removed]; (repeat' split) <;> simp

@[simp] theorem unitCompletion_frame (s : State) :
    (unitCompletion s).now = s.now ∧ (unitCompletion s).msu = s.msu ∧ (unitCompletion s).csu = s.csu ∧
      (unitCompletion s).ctx = s.ctx ∧ (unitCompletion s).scn = s.scn ∧
      (unitCompletion s).cwr.present = s.cwr.present ∧ (unitCompletion s).cwr.cdet = s.cwr.cdet ∧
      (unitCompletion s).ips = s.ips ∧ (unitCompletion s).ssv.stable = s.ssv.stable ∧
      (unitCompletion s).ssv.rideMs = s.ssv.rideMs ∧ (unitCompletion s).ssv.budget = s.ssv.budget ∧
      (unitCompletion s).ssv.rail = s.ssv.rail ∧ (unitCompletion s).lnk.refused = s.lnk.refused ∧
      (unitCompletion s).lnk.recordMask = s.lnk.recordMask ∧ (unitCompletion s).lnk.alertMask = s.lnk.alertMask ∧
      (unitCompletion s).lnk.guard = s.lnk.guard ∧ (unitCompletion s).lnk.resetTaken = s.lnk.resetTaken ∧
      (unitCompletion s).rst = s.rst ∧ (unitCompletion s).pending = s.pending := by
  simp only [unitCompletion]; (repeat' split) <;> simp

@[simp] theorem runIfHealthy_frame (s : State) :
    (runIfHealthy s).now = s.now ∧ (runIfHealthy s).msu.angle = s.msu.angle ∧
      (runIfHealthy s).msu.path = s.msu.path ∧ (runIfHealthy s).msu.fault = s.msu.fault ∧
      (runIfHealthy s).msu.bias = s.msu.bias ∧ (runIfHealthy s).msu.read = s.msu.read ∧
      (runIfHealthy s).msu.imp = s.msu.imp ∧
      (runIfHealthy s).msu.tickBias = s.msu.tickBias ∧ (runIfHealthy s).msu.tickImp = s.msu.tickImp ∧
      (runIfHealthy s).csu = s.csu ∧ (runIfHealthy s).ctx = s.ctx ∧
      (runIfHealthy s).adu = s.adu ∧ (runIfHealthy s).scn = s.scn ∧ (runIfHealthy s).cbf = s.cbf ∧
      (runIfHealthy s).sdr = s.sdr ∧ (runIfHealthy s).cwr = s.cwr ∧ (runIfHealthy s).ips = s.ips ∧
      (runIfHealthy s).chg = s.chg ∧ (runIfHealthy s).ssv = s.ssv ∧ (runIfHealthy s).lnk = s.lnk ∧
      (runIfHealthy s).rst = s.rst ∧ (runIfHealthy s).pending = s.pending := by
  simp only [runIfHealthy]; (repeat' split) <;> simp

@[simp] theorem commit_frame (i : CtxIx) (ret : Bool) (s : State) :
    (commit i ret s).now = s.now ∧ (commit i ret s).msu.angle = s.msu.angle ∧
      (commit i ret s).msu.fault = s.msu.fault ∧ (commit i ret s).msu.bias = s.msu.bias ∧
      (commit i ret s).msu.read = s.msu.read ∧ (commit i ret s).msu.imp = s.msu.imp ∧
      (commit i ret s).msu.tickBias = s.msu.tickBias ∧ (commit i ret s).msu.tickImp = s.msu.tickImp ∧
      (commit i ret s).csu.offset = s.csu.offset ∧ (commit i ret s).csu.frame = s.csu.frame ∧
      (commit i ret s).csu.sample = s.csu.sample ∧ (commit i ret s).csu.ring = s.csu.ring ∧
      (commit i ret s).scn = s.scn ∧ (commit i ret s).cbf = s.cbf ∧ (commit i ret s).sdr = s.sdr ∧
      (commit i ret s).cwr = s.cwr ∧ (commit i ret s).ips = s.ips ∧ (commit i ret s).chg = s.chg ∧
      (commit i ret s).ssv = s.ssv ∧ (commit i ret s).lnk.req = s.lnk.req ∧
      (commit i ret s).lnk.reply = s.lnk.reply ∧ (commit i ret s).lnk.refused = s.lnk.refused ∧
      (commit i ret s).lnk.recordMask = s.lnk.recordMask ∧ (commit i ret s).lnk.alertMask = s.lnk.alertMask ∧
      (commit i ret s).lnk.guard = s.lnk.guard ∧ (commit i ret s).lnk.resetTaken = s.lnk.resetTaken ∧
      (commit i ret s).rst = s.rst ∧ (commit i ret s).pending = s.pending := by
  simp only [commit]; (repeat' split) <;> simp

@[simp] theorem attemptSwitch_frame (i : CtxIx) (ret : Bool) (s : State) :
    (attemptSwitch i ret s).now = s.now ∧ (attemptSwitch i ret s).msu.angle = s.msu.angle ∧
      (attemptSwitch i ret s).msu.fault = s.msu.fault ∧ (attemptSwitch i ret s).msu.bias = s.msu.bias ∧
      (attemptSwitch i ret s).msu.read = s.msu.read ∧ (attemptSwitch i ret s).msu.imp = s.msu.imp ∧
      (attemptSwitch i ret s).msu.tickBias = s.msu.tickBias ∧ (attemptSwitch i ret s).msu.tickImp = s.msu.tickImp ∧
      (attemptSwitch i ret s).csu.offset = s.csu.offset ∧ (attemptSwitch i ret s).csu.frame = s.csu.frame ∧
      (attemptSwitch i ret s).csu.sample = s.csu.sample ∧ (attemptSwitch i ret s).csu.ring = s.csu.ring ∧
      (attemptSwitch i ret s).scn = s.scn ∧ (attemptSwitch i ret s).cbf = s.cbf ∧
      (attemptSwitch i ret s).sdr = s.sdr ∧ (attemptSwitch i ret s).cwr = s.cwr ∧
      (attemptSwitch i ret s).ips = s.ips ∧ (attemptSwitch i ret s).chg = s.chg ∧
      (attemptSwitch i ret s).ssv = s.ssv ∧ (attemptSwitch i ret s).lnk.req = s.lnk.req ∧
      (attemptSwitch i ret s).lnk.reply = s.lnk.reply ∧ (attemptSwitch i ret s).lnk.refused = s.lnk.refused ∧
      (attemptSwitch i ret s).lnk.recordMask = s.lnk.recordMask ∧
      (attemptSwitch i ret s).lnk.alertMask = s.lnk.alertMask ∧ (attemptSwitch i ret s).lnk.guard = s.lnk.guard ∧
      (attemptSwitch i ret s).lnk.resetTaken = s.lnk.resetTaken ∧ (attemptSwitch i ret s).rst = s.rst ∧
      (attemptSwitch i ret s).pending = s.pending := by
  simp only [attemptSwitch]; (repeat' split) <;> simp

@[simp] theorem commitPending_frame (s : State) :
    (commitPending s).now = s.now ∧ (commitPending s).msu.angle = s.msu.angle ∧
      (commitPending s).msu.fault = s.msu.fault ∧ (commitPending s).msu.bias = s.msu.bias ∧
      (commitPending s).msu.read = s.msu.read ∧ (commitPending s).msu.imp = s.msu.imp ∧
      (commitPending s).msu.tickBias = s.msu.tickBias ∧ (commitPending s).msu.tickImp = s.msu.tickImp ∧
      (commitPending s).csu.offset = s.csu.offset ∧ (commitPending s).csu.frame = s.csu.frame ∧
      (commitPending s).csu.sample = s.csu.sample ∧ (commitPending s).csu.ring = s.csu.ring ∧
      (commitPending s).scn = s.scn ∧ (commitPending s).cbf = s.cbf ∧ (commitPending s).sdr = s.sdr ∧
      (commitPending s).cwr = s.cwr ∧ (commitPending s).ips = s.ips ∧ (commitPending s).chg = s.chg ∧
      (commitPending s).ssv = s.ssv ∧ (commitPending s).lnk.req = s.lnk.req ∧
      (commitPending s).lnk.reply = s.lnk.reply ∧ (commitPending s).lnk.refused = s.lnk.refused ∧
      (commitPending s).lnk.recordMask = s.lnk.recordMask ∧ (commitPending s).lnk.alertMask = s.lnk.alertMask ∧
      (commitPending s).lnk.guard = s.lnk.guard ∧ (commitPending s).lnk.resetTaken = s.lnk.resetTaken ∧
      (commitPending s).rst = s.rst ∧ (commitPending s).pending = s.pending := by
  simp only [commitPending]; (repeat' split) <;> simp

@[simp] theorem selectCtx_frame (kind tag : Byte) (i : CtxIx) (ret : Bool) (s : State) :
    (selectCtx kind tag i ret s).now = s.now ∧ (selectCtx kind tag i ret s).msu.angle = s.msu.angle ∧
      (selectCtx kind tag i ret s).msu.fault = s.msu.fault ∧ (selectCtx kind tag i ret s).msu.bias = s.msu.bias ∧
      (selectCtx kind tag i ret s).msu.read = s.msu.read ∧ (selectCtx kind tag i ret s).msu.imp = s.msu.imp ∧
      (selectCtx kind tag i ret s).msu.tickBias = s.msu.tickBias ∧
      (selectCtx kind tag i ret s).msu.tickImp = s.msu.tickImp ∧
      (selectCtx kind tag i ret s).csu.offset = s.csu.offset ∧
      (selectCtx kind tag i ret s).csu.frame = s.csu.frame ∧
      (selectCtx kind tag i ret s).csu.sample = s.csu.sample ∧ (selectCtx kind tag i ret s).csu.ring = s.csu.ring ∧
      (selectCtx kind tag i ret s).scn = s.scn ∧ (selectCtx kind tag i ret s).cbf = s.cbf ∧
      (selectCtx kind tag i ret s).sdr = s.sdr ∧ (selectCtx kind tag i ret s).cwr = s.cwr ∧
      (selectCtx kind tag i ret s).ips = s.ips ∧ (selectCtx kind tag i ret s).chg = s.chg ∧
      (selectCtx kind tag i ret s).ssv = s.ssv ∧ (selectCtx kind tag i ret s).lnk.req = s.lnk.req ∧
      (selectCtx kind tag i ret s).lnk.refused = s.lnk.refused ∧
      (selectCtx kind tag i ret s).lnk.recordMask = s.lnk.recordMask ∧
      (selectCtx kind tag i ret s).lnk.alertMask = s.lnk.alertMask ∧
      (selectCtx kind tag i ret s).lnk.guard = s.lnk.guard ∧
      (selectCtx kind tag i ret s).lnk.resetTaken = s.lnk.resetTaken ∧ (selectCtx kind tag i ret s).rst = s.rst ∧
      (selectCtx kind tag i ret s).pending = s.pending := by
  simp only [selectCtx]; (repeat' split) <;> simp

@[simp] theorem serveFrame_frame (r : FrameRecord) (s : State) :
    (serveFrame r s).now = s.now ∧ (serveFrame r s).msu = s.msu ∧ (serveFrame r s).csu = s.csu ∧
      (serveFrame r s).ctx = s.ctx ∧ (serveFrame r s).adu = s.adu ∧ (serveFrame r s).scn = s.scn ∧
      (serveFrame r s).cbf = s.cbf ∧ (serveFrame r s).sdr = s.sdr ∧ (serveFrame r s).cwr = s.cwr ∧
      (serveFrame r s).ips = s.ips ∧ (serveFrame r s).chg = s.chg ∧ (serveFrame r s).ssv = s.ssv ∧
      (serveFrame r s).lnk.refused = s.lnk.refused ∧ (serveFrame r s).lnk.events = s.lnk.events ∧
      (serveFrame r s).lnk.recordMask = s.lnk.recordMask ∧ (serveFrame r s).lnk.alertMask = s.lnk.alertMask ∧
      (serveFrame r s).lnk.guard = s.lnk.guard ∧ (serveFrame r s).lnk.resetTaken = s.lnk.resetTaken ∧
      (serveFrame r s).rst = s.rst ∧ (serveFrame r s).pending = s.pending := by
  simp only [serveFrame]; (repeat' split) <;> simp

@[simp] theorem produce_frame (r : FrameRecord) (s : State) :
    (produce r s).now = s.now ∧ (produce r s).msu = s.msu ∧ (produce r s).csu.step = s.csu.step ∧
      (produce r s).csu.offset = s.csu.offset ∧ (produce r s).csu.frame = s.csu.frame ∧ (produce r s).ctx = s.ctx ∧
      (produce r s).scn = s.scn ∧ (produce r s).cwr.present = s.cwr.present ∧ (produce r s).cwr.cdet = s.cwr.cdet ∧
      (produce r s).ips = s.ips ∧ (produce r s).ssv.stable = s.ssv.stable ∧
      (produce r s).ssv.rideMs = s.ssv.rideMs ∧ (produce r s).ssv.budget = s.ssv.budget ∧
      (produce r s).ssv.rail = s.ssv.rail ∧ (produce r s).lnk.refused = s.lnk.refused ∧
      (produce r s).lnk.recordMask = s.lnk.recordMask ∧ (produce r s).lnk.alertMask = s.lnk.alertMask ∧
      (produce r s).lnk.guard = s.lnk.guard ∧ (produce r s).lnk.resetTaken = s.lnk.resetTaken ∧
      (produce r s).rst = s.rst ∧ (produce r s).pending = s.pending := by
  simp only [produce]; (repeat' split) <;> simp

@[simp] theorem takeSample_frame (n : Word) (s : State) :
    (takeSample n s).now = s.now ∧ (takeSample n s).msu = s.msu ∧ (takeSample n s).csu.step = s.csu.step ∧
      (takeSample n s).csu.offset = s.csu.offset ∧ (takeSample n s).csu.frame = s.csu.frame ∧
      (takeSample n s).ctx = s.ctx ∧ (takeSample n s).scn = s.scn ∧ (takeSample n s).cwr.present = s.cwr.present ∧
      (takeSample n s).cwr.cdet = s.cwr.cdet ∧ (takeSample n s).ips = s.ips ∧
      (takeSample n s).ssv.stable = s.ssv.stable ∧ (takeSample n s).ssv.rideMs = s.ssv.rideMs ∧
      (takeSample n s).ssv.budget = s.ssv.budget ∧ (takeSample n s).ssv.rail = s.ssv.rail ∧
      (takeSample n s).lnk.refused = s.lnk.refused ∧ (takeSample n s).lnk.recordMask = s.lnk.recordMask ∧
      (takeSample n s).lnk.alertMask = s.lnk.alertMask ∧ (takeSample n s).lnk.guard = s.lnk.guard ∧
      (takeSample n s).lnk.resetTaken = s.lnk.resetTaken ∧ (takeSample n s).rst = s.rst ∧
      (takeSample n s).pending = s.pending := by
  simp only [takeSample]; (repeat' split) <;> simp

@[simp] theorem forceSample_frame (s : State) :
    (forceSample s).now = s.now ∧ (forceSample s).msu = s.msu ∧ (forceSample s).csu.step = s.csu.step ∧
      (forceSample s).csu.offset = s.csu.offset ∧ (forceSample s).csu.frame = s.csu.frame ∧
      (forceSample s).ctx = s.ctx ∧ (forceSample s).scn = s.scn ∧ (forceSample s).cwr.present = s.cwr.present ∧
      (forceSample s).cwr.cdet = s.cwr.cdet ∧ (forceSample s).ips = s.ips ∧
      (forceSample s).ssv.stable = s.ssv.stable ∧ (forceSample s).ssv.rideMs = s.ssv.rideMs ∧
      (forceSample s).ssv.budget = s.ssv.budget ∧ (forceSample s).ssv.rail = s.ssv.rail ∧
      (forceSample s).lnk.refused = s.lnk.refused ∧ (forceSample s).lnk.recordMask = s.lnk.recordMask ∧
      (forceSample s).lnk.alertMask = s.lnk.alertMask ∧ (forceSample s).lnk.guard = s.lnk.guard ∧
      (forceSample s).lnk.resetTaken = s.lnk.resetTaken ∧ (forceSample s).rst = s.rst ∧
      (forceSample s).pending = s.pending := by
  simp only [forceSample]; (repeat' split) <;> simp

@[simp] theorem countFrame_frame (s : State) :
    (countFrame s).now = s.now ∧ (countFrame s).msu = s.msu ∧ (countFrame s).csu.step = s.csu.step ∧
      (countFrame s).csu.offset = s.csu.offset ∧ (countFrame s).ctx = s.ctx ∧ (countFrame s).scn = s.scn ∧
      (countFrame s).cwr.present = s.cwr.present ∧ (countFrame s).cwr.cdet = s.cwr.cdet ∧
      (countFrame s).ips = s.ips ∧ (countFrame s).ssv.stable = s.ssv.stable ∧
      (countFrame s).ssv.rideMs = s.ssv.rideMs ∧ (countFrame s).ssv.budget = s.ssv.budget ∧
      (countFrame s).ssv.rail = s.ssv.rail ∧ (countFrame s).lnk.refused = s.lnk.refused ∧
      (countFrame s).lnk.recordMask = s.lnk.recordMask ∧ (countFrame s).lnk.alertMask = s.lnk.alertMask ∧
      (countFrame s).lnk.guard = s.lnk.guard ∧ (countFrame s).lnk.resetTaken = s.lnk.resetTaken ∧
      (countFrame s).rst = s.rst ∧ (countFrame s).pending = s.pending := by
  simp only [countFrame]; (repeat' split) <;> simp

@[simp] theorem fsyncStep_frame (s : State) :
    (fsyncStep s).now = s.now ∧ (fsyncStep s).msu.angle = s.msu.angle ∧ (fsyncStep s).msu.fault = s.msu.fault ∧
      (fsyncStep s).msu.bias = s.msu.bias ∧ (fsyncStep s).msu.read = s.msu.read ∧
      (fsyncStep s).msu.imp = s.msu.imp ∧
      (fsyncStep s).msu.tickBias = s.msu.tickBias ∧ (fsyncStep s).msu.tickImp = s.msu.tickImp ∧
      (fsyncStep s).csu.offset = s.csu.offset ∧ (fsyncStep s).scn = s.scn ∧
      (fsyncStep s).cwr.present = s.cwr.present ∧ (fsyncStep s).cwr.cdet = s.cwr.cdet ∧ (fsyncStep s).ips = s.ips ∧
      (fsyncStep s).ssv.stable = s.ssv.stable ∧ (fsyncStep s).ssv.rideMs = s.ssv.rideMs ∧
      (fsyncStep s).ssv.budget = s.ssv.budget ∧ (fsyncStep s).ssv.rail = s.ssv.rail ∧
      (fsyncStep s).lnk.refused = s.lnk.refused ∧ (fsyncStep s).lnk.recordMask = s.lnk.recordMask ∧
      (fsyncStep s).lnk.alertMask = s.lnk.alertMask ∧ (fsyncStep s).lnk.guard = s.lnk.guard ∧
      (fsyncStep s).lnk.resetTaken = s.lnk.resetTaken ∧ (fsyncStep s).rst = s.rst ∧
      (fsyncStep s).pending = s.pending := by
  simp only [fsyncStep]; (repeat' split) <;> simp

@[simp] theorem cropStep_frame (s : State) :
    (cropStep s).now = s.now ∧ (cropStep s).msu = s.msu ∧ (cropStep s).csu.step = s.csu.step ∧
      (cropStep s).csu.offset = s.csu.offset ∧ (cropStep s).csu.frame = s.csu.frame ∧ (cropStep s).ctx = s.ctx ∧
      (cropStep s).scn = s.scn ∧ (cropStep s).cwr.present = s.cwr.present ∧ (cropStep s).cwr.cdet = s.cwr.cdet ∧
      (cropStep s).ips = s.ips ∧ (cropStep s).ssv.stable = s.ssv.stable ∧ (cropStep s).ssv.rideMs = s.ssv.rideMs ∧
      (cropStep s).ssv.budget = s.ssv.budget ∧ (cropStep s).ssv.rail = s.ssv.rail ∧
      (cropStep s).lnk.refused = s.lnk.refused ∧ (cropStep s).lnk.recordMask = s.lnk.recordMask ∧
      (cropStep s).lnk.alertMask = s.lnk.alertMask ∧ (cropStep s).lnk.guard = s.lnk.guard ∧
      (cropStep s).lnk.resetTaken = s.lnk.resetTaken ∧ (cropStep s).rst = s.rst ∧
      (cropStep s).pending = s.pending := by
  simp only [cropStep]; (repeat' split) <;> simp

@[simp] theorem frameTimeout_frame (s : State) :
    (frameTimeout s).now = s.now ∧ (frameTimeout s).msu = s.msu ∧ (frameTimeout s).csu = s.csu ∧
      (frameTimeout s).ctx = s.ctx ∧ (frameTimeout s).adu = s.adu ∧ (frameTimeout s).scn = s.scn ∧
      (frameTimeout s).cbf = s.cbf ∧ (frameTimeout s).sdr = s.sdr ∧ (frameTimeout s).cwr = s.cwr ∧
      (frameTimeout s).ips = s.ips ∧ (frameTimeout s).chg = s.chg ∧ (frameTimeout s).ssv = s.ssv ∧
      (frameTimeout s).lnk.refused = s.lnk.refused ∧ (frameTimeout s).lnk.events = s.lnk.events ∧
      (frameTimeout s).lnk.recordMask = s.lnk.recordMask ∧ (frameTimeout s).lnk.alertMask = s.lnk.alertMask ∧
      (frameTimeout s).lnk.guard = s.lnk.guard ∧ (frameTimeout s).lnk.resetTaken = s.lnk.resetTaken ∧
      (frameTimeout s).rst = s.rst ∧ (frameTimeout s).pending = s.pending := by
  simp only [frameTimeout]; (repeat' split) <;> simp

@[simp] theorem learnBias_frame (s : State) :
    (learnBias s).now = s.now ∧ (learnBias s).msu.stab = s.msu.stab ∧ (learnBias s).msu.angle = s.msu.angle ∧
      (learnBias s).msu.path = s.msu.path ∧ (learnBias s).msu.fault = s.msu.fault ∧
      (learnBias s).msu.read = s.msu.read ∧ (learnBias s).msu.imp = s.msu.imp ∧
      (learnBias s).msu.tickBias = s.msu.tickBias ∧ (learnBias s).msu.tickImp = s.msu.tickImp ∧
      (learnBias s).csu = s.csu ∧
      (learnBias s).ctx = s.ctx ∧ (learnBias s).adu = s.adu ∧ (learnBias s).scn = s.scn ∧
      (learnBias s).cbf = s.cbf ∧ (learnBias s).sdr = s.sdr ∧ (learnBias s).cwr = s.cwr ∧
      (learnBias s).ips = s.ips ∧ (learnBias s).chg = s.chg ∧ (learnBias s).ssv = s.ssv ∧
      (learnBias s).lnk.req = s.lnk.req ∧ (learnBias s).lnk.reply = s.lnk.reply ∧
      (learnBias s).lnk.refused = s.lnk.refused ∧ (learnBias s).lnk.recordMask = s.lnk.recordMask ∧
      (learnBias s).lnk.alertMask = s.lnk.alertMask ∧ (learnBias s).lnk.guard = s.lnk.guard ∧
      (learnBias s).lnk.resetTaken = s.lnk.resetTaken ∧ (learnBias s).rst = s.rst ∧
      (learnBias s).pending = s.pending := by
  simp only [learnBias]; (repeat' split) <;> simp

@[simp] theorem startPark_frame (s : State) :
    (startPark s).now = s.now ∧ (startPark s).msu.stab = s.msu.stab ∧ (startPark s).msu.angle = s.msu.angle ∧
      (startPark s).msu.path = s.msu.path ∧ (startPark s).msu.fault = s.msu.fault ∧
      (startPark s).msu.bias = s.msu.bias ∧ (startPark s).msu.read = s.msu.read ∧
      (startPark s).msu.imp = s.msu.imp ∧
      (startPark s).msu.tickBias = s.msu.tickBias ∧ (startPark s).msu.tickImp = s.msu.tickImp ∧
      (startPark s).csu.offset = s.csu.offset ∧
      (startPark s).csu.frame = s.csu.frame ∧ (startPark s).csu.sample = s.csu.sample ∧
      (startPark s).csu.carried = s.csu.carried ∧ (startPark s).csu.ring = s.csu.ring ∧ (startPark s).ctx = s.ctx ∧
      (startPark s).scn = s.scn ∧ (startPark s).cbf = s.cbf ∧ (startPark s).sdr = s.sdr ∧
      (startPark s).cwr = s.cwr ∧ (startPark s).ips = s.ips ∧ (startPark s).chg = s.chg ∧
      (startPark s).ssv = s.ssv ∧ (startPark s).lnk = s.lnk ∧ (startPark s).rst = s.rst ∧
      (startPark s).pending = s.pending := by
  simp only [startPark]; (repeat' split) <;> simp

@[simp] theorem requestLocks_frame (s : State) :
    (requestLocks s).1.now = s.now ∧ (requestLocks s).1.msu = s.msu ∧ (requestLocks s).1.csu = s.csu ∧
      (requestLocks s).1.ctx = s.ctx ∧ (requestLocks s).1.adu = s.adu ∧ (requestLocks s).1.scn = s.scn ∧
      (requestLocks s).1.cbf = s.cbf ∧ (requestLocks s).1.sdr.geo = s.sdr.geo ∧
      (requestLocks s).1.sdr.nextSeq = s.sdr.nextSeq ∧ (requestLocks s).1.sdr.nextRec = s.sdr.nextRec ∧
      (requestLocks s).1.cwr = s.cwr ∧ (requestLocks s).1.ips = s.ips ∧ (requestLocks s).1.chg = s.chg ∧
      (requestLocks s).1.ssv = s.ssv ∧ (requestLocks s).1.lnk.req = s.lnk.req ∧
      (requestLocks s).1.lnk.reply = s.lnk.reply ∧ (requestLocks s).1.lnk.refused = s.lnk.refused ∧
      (requestLocks s).1.lnk.recordMask = s.lnk.recordMask ∧ (requestLocks s).1.lnk.alertMask = s.lnk.alertMask ∧
      (requestLocks s).1.lnk.guard = s.lnk.guard ∧ (requestLocks s).1.lnk.resetTaken = s.lnk.resetTaken ∧
      (requestLocks s).1.rst = s.rst ∧ (requestLocks s).1.pending = s.pending := by
  simp only [requestLocks]; (repeat' split) <;> simp

@[simp] theorem impact_frame (s : State) :
    (impact s).now = s.now ∧ (impact s).msu.stab = s.msu.stab ∧ (impact s).msu.angle = s.msu.angle ∧
      (impact s).msu.path = s.msu.path ∧ (impact s).msu.fault = s.msu.fault ∧ (impact s).msu.bias = s.msu.bias ∧
      (impact s).msu.read = s.msu.read ∧ (impact s).msu.imp = s.msu.imp ∧
      (impact s).msu.tickBias = s.msu.tickBias ∧ (impact s).msu.tickImp = s.msu.tickImp ∧
      (impact s).csu.offset = s.csu.offset ∧
      (impact s).csu.frame = s.csu.frame ∧ (impact s).csu.sample = s.csu.sample ∧
      (impact s).csu.ring = s.csu.ring ∧ (impact s).ctx = s.ctx ∧ (impact s).scn = s.scn ∧
      (impact s).cwr.present = s.cwr.present ∧ (impact s).cwr.cdet = s.cwr.cdet ∧ (impact s).ips = s.ips ∧
      (impact s).ssv.stable = s.ssv.stable ∧ (impact s).ssv.rideMs = s.ssv.rideMs ∧
      (impact s).ssv.budget = s.ssv.budget ∧ (impact s).ssv.rail = s.ssv.rail ∧
      (impact s).lnk.refused = s.lnk.refused ∧ (impact s).lnk.recordMask = s.lnk.recordMask ∧
      (impact s).lnk.alertMask = s.lnk.alertMask ∧ (impact s).lnk.guard = s.lnk.guard ∧
      (impact s).lnk.resetTaken = s.lnk.resetTaken ∧ (impact s).rst = s.rst ∧ (impact s).pending = s.pending := by
  simp only [impact]; (repeat' split) <;> simp

@[simp] theorem leaveRunning_frame (s : State) :
    (leaveRunning s).now = s.now ∧ (leaveRunning s).msu.angle = s.msu.angle ∧
      (leaveRunning s).msu.fault = s.msu.fault ∧ (leaveRunning s).msu.bias = s.msu.bias ∧
      (leaveRunning s).msu.read = s.msu.read ∧ (leaveRunning s).msu.imp = s.msu.imp ∧
      (leaveRunning s).msu.tickBias = s.msu.tickBias ∧ (leaveRunning s).msu.tickImp = s.msu.tickImp ∧
      (leaveRunning s).csu.offset = s.csu.offset ∧ (leaveRunning s).csu.frame = s.csu.frame ∧
      (leaveRunning s).csu.sample = s.csu.sample ∧ (leaveRunning s).csu.ring = s.csu.ring ∧
      (leaveRunning s).scn = s.scn ∧ (leaveRunning s).cbf = s.cbf ∧ (leaveRunning s).sdr = s.sdr ∧
      (leaveRunning s).cwr = s.cwr ∧ (leaveRunning s).ips = s.ips ∧ (leaveRunning s).chg = s.chg ∧
      (leaveRunning s).ssv = s.ssv ∧ (leaveRunning s).lnk.req = s.lnk.req ∧
      (leaveRunning s).lnk.reply = s.lnk.reply ∧ (leaveRunning s).lnk.refused = s.lnk.refused ∧
      (leaveRunning s).lnk.recordMask = s.lnk.recordMask ∧ (leaveRunning s).lnk.alertMask = s.lnk.alertMask ∧
      (leaveRunning s).lnk.guard = s.lnk.guard ∧ (leaveRunning s).lnk.resetTaken = s.lnk.resetTaken ∧
      (leaveRunning s).rst = s.rst ∧ (leaveRunning s).pending = s.pending := by
  simp only [leaveRunning]; (repeat' split) <;> simp

@[simp] theorem sensorLost_frame (s : State) :
    (sensorLost s).now = s.now ∧ (sensorLost s).msu.angle = s.msu.angle ∧ (sensorLost s).msu.fault = s.msu.fault ∧
      (sensorLost s).msu.bias = s.msu.bias ∧ (sensorLost s).msu.read = s.msu.read ∧
      (sensorLost s).msu.imp = s.msu.imp ∧
      (sensorLost s).msu.tickBias = s.msu.tickBias ∧ (sensorLost s).msu.tickImp = s.msu.tickImp ∧
      (sensorLost s).csu.offset = s.csu.offset ∧
      (sensorLost s).csu.frame = s.csu.frame ∧ (sensorLost s).csu.sample = s.csu.sample ∧
      (sensorLost s).csu.ring = s.csu.ring ∧ (sensorLost s).scn = s.scn ∧ (sensorLost s).cbf = s.cbf ∧
      (sensorLost s).sdr = s.sdr ∧ (sensorLost s).cwr = s.cwr ∧ (sensorLost s).ips = s.ips ∧
      (sensorLost s).chg = s.chg ∧ (sensorLost s).ssv = s.ssv ∧ (sensorLost s).lnk.req = s.lnk.req ∧
      (sensorLost s).lnk.reply = s.lnk.reply ∧ (sensorLost s).lnk.refused = s.lnk.refused ∧
      (sensorLost s).lnk.recordMask = s.lnk.recordMask ∧ (sensorLost s).lnk.alertMask = s.lnk.alertMask ∧
      (sensorLost s).lnk.guard = s.lnk.guard ∧ (sensorLost s).lnk.resetTaken = s.lnk.resetTaken ∧
      (sensorLost s).rst = s.rst ∧ (sensorLost s).pending = s.pending := by
  simp only [sensorLost]; (repeat' split) <;> simp

@[simp] theorem sensorRestored_frame (s : State) :
    (sensorRestored s).now = s.now ∧ (sensorRestored s).msu.angle = s.msu.angle ∧
      (sensorRestored s).msu.path = s.msu.path ∧ (sensorRestored s).msu.fault = s.msu.fault ∧
      (sensorRestored s).msu.bias = s.msu.bias ∧ (sensorRestored s).msu.read = s.msu.read ∧
      (sensorRestored s).msu.imp = s.msu.imp ∧
      (sensorRestored s).msu.tickBias = s.msu.tickBias ∧ (sensorRestored s).msu.tickImp = s.msu.tickImp ∧
      (sensorRestored s).csu = s.csu ∧ (sensorRestored s).ctx = s.ctx ∧
      (sensorRestored s).adu = s.adu ∧ (sensorRestored s).scn = s.scn ∧ (sensorRestored s).cbf = s.cbf ∧
      (sensorRestored s).sdr = s.sdr ∧ (sensorRestored s).cwr = s.cwr ∧ (sensorRestored s).ips = s.ips ∧
      (sensorRestored s).chg = s.chg ∧ (sensorRestored s).ssv = s.ssv ∧ (sensorRestored s).lnk.req = s.lnk.req ∧
      (sensorRestored s).lnk.reply = s.lnk.reply ∧ (sensorRestored s).lnk.refused = s.lnk.refused ∧
      (sensorRestored s).lnk.recordMask = s.lnk.recordMask ∧ (sensorRestored s).lnk.alertMask = s.lnk.alertMask ∧
      (sensorRestored s).lnk.guard = s.lnk.guard ∧ (sensorRestored s).lnk.resetTaken = s.lnk.resetTaken ∧
      (sensorRestored s).rst = s.rst ∧ (sensorRestored s).pending = s.pending := by
  simp only [sensorRestored]; (repeat' split) <;> simp

@[simp] theorem tickWork_frame (s : State) :
    (tickWork s).now = s.now ∧ (tickWork s).msu.read = s.msu.read ∧ (tickWork s).msu.imp = s.msu.imp ∧
      (tickWork s).msu.tickBias = s.msu.tickBias ∧ (tickWork s).msu.tickImp = s.msu.tickImp ∧
      (tickWork s).csu.frame = s.csu.frame ∧ (tickWork s).csu.sample = s.csu.sample ∧
      (tickWork s).csu.ring = s.csu.ring ∧ (tickWork s).scn = s.scn ∧ (tickWork s).cwr.present = s.cwr.present ∧
      (tickWork s).cwr.cdet = s.cwr.cdet ∧ (tickWork s).ips = s.ips ∧ (tickWork s).ssv.stable = s.ssv.stable ∧
      (tickWork s).ssv.rideMs = s.ssv.rideMs ∧ (tickWork s).ssv.budget = s.ssv.budget ∧
      (tickWork s).ssv.rail = s.ssv.rail ∧ (tickWork s).lnk.refused = s.lnk.refused ∧
      (tickWork s).lnk.recordMask = s.lnk.recordMask ∧ (tickWork s).lnk.alertMask = s.lnk.alertMask ∧
      (tickWork s).lnk.guard = s.lnk.guard ∧ (tickWork s).lnk.resetTaken = s.lnk.resetTaken ∧
      (tickWork s).rst = s.rst ∧ (tickWork s).pending = s.pending := by
  simp only [tickWork]; (repeat' split) <;> simp

@[simp] theorem passTick_frame (s : State) :
    (passTick s).msu.stab = s.msu.stab ∧ (passTick s).msu.angle = s.msu.angle ∧
      (passTick s).msu.path = s.msu.path ∧ (passTick s).msu.fault = s.msu.fault ∧
      (passTick s).msu.bias = s.msu.bias ∧ (passTick s).msu.imp = s.msu.imp ∧
      (passTick s).msu.tickBias = s.msu.bias ∧ (passTick s).msu.tickImp = s.msu.imp ∧ (passTick s).csu = s.csu ∧
      (passTick s).ctx = s.ctx ∧ (passTick s).adu = s.adu ∧ (passTick s).scn = s.scn ∧ (passTick s).cbf = s.cbf ∧
      (passTick s).sdr = s.sdr ∧ (passTick s).cwr = s.cwr ∧ (passTick s).ips = s.ips ∧
      (passTick s).ssv.st = s.ssv.st ∧ (passTick s).ssv.timerEnd = s.ssv.timerEnd ∧
      (passTick s).ssv.rideMs = s.ssv.rideMs ∧ (passTick s).ssv.budget = s.ssv.budget ∧
      (passTick s).ssv.rail = s.ssv.rail ∧ (passTick s).ssv.close = s.ssv.close ∧ (passTick s).lnk = s.lnk ∧
      (passTick s).rst = s.rst ∧ (passTick s).pending = s.pending := by
  simp only [passTick]; (repeat' split) <;> simp

@[simp] theorem tickStep_frame (s : State) :
    (tickStep s).msu.imp = s.msu.imp ∧
      (tickStep s).msu.tickBias = (tickStep s).msu.bias ∧ (tickStep s).msu.tickImp = s.msu.imp ∧
      (tickStep s).csu.frame = s.csu.frame ∧
      (tickStep s).csu.sample = s.csu.sample ∧ (tickStep s).csu.ring = s.csu.ring ∧ (tickStep s).scn = s.scn ∧
      (tickStep s).cwr.present = s.cwr.present ∧ (tickStep s).cwr.cdet = s.cwr.cdet ∧ (tickStep s).ips = s.ips ∧
      (tickStep s).ssv.rideMs = s.ssv.rideMs ∧ (tickStep s).ssv.budget = s.ssv.budget ∧
      (tickStep s).ssv.rail = s.ssv.rail ∧ (tickStep s).lnk.refused = s.lnk.refused ∧
      (tickStep s).lnk.recordMask = s.lnk.recordMask ∧ (tickStep s).lnk.alertMask = s.lnk.alertMask ∧
      (tickStep s).lnk.guard = s.lnk.guard ∧ (tickStep s).lnk.resetTaken = s.lnk.resetTaken ∧
      (tickStep s).rst = s.rst ∧ (tickStep s).pending = s.pending := by
  simp only [tickStep]; (repeat' split) <;> simp

@[simp] theorem enterOff_frame (s : State) :
    (enterOff s).now = s.now ∧ (enterOff s).msu.angle = s.msu.angle ∧ (enterOff s).msu.path = s.msu.path ∧
      (enterOff s).msu.fault = s.msu.fault ∧ (enterOff s).msu.bias = s.msu.bias ∧
      (enterOff s).msu.read = s.msu.read ∧ (enterOff s).msu.imp = s.msu.imp ∧
      (enterOff s).msu.tickBias = s.msu.tickBias ∧ (enterOff s).msu.tickImp = s.msu.tickImp ∧
      (enterOff s).csu.step = s.csu.step ∧
      (enterOff s).csu.offset = s.csu.offset ∧ (enterOff s).csu.frame = s.csu.frame ∧
      (enterOff s).csu.ring = s.csu.ring ∧ (enterOff s).ctx = s.ctx ∧ (enterOff s).adu = s.adu ∧
      (enterOff s).scn = s.scn ∧ (enterOff s).cbf = s.cbf ∧ (enterOff s).sdr = s.sdr ∧ (enterOff s).cwr = s.cwr ∧
      (enterOff s).ips = s.ips ∧ (enterOff s).chg = s.chg ∧ (enterOff s).ssv = s.ssv ∧
      (enterOff s).lnk.refused = s.lnk.refused ∧ (enterOff s).lnk.events = s.lnk.events ∧
      (enterOff s).lnk.recordMask = s.lnk.recordMask ∧ (enterOff s).lnk.alertMask = s.lnk.alertMask ∧
      (enterOff s).lnk.guard = s.lnk.guard ∧ (enterOff s).lnk.resetTaken = s.lnk.resetTaken ∧
      (enterOff s).rst = s.rst ∧ (enterOff s).pending = s.pending := by
  simp only [enterOff]; (repeat' split) <;> simp

@[simp] theorem runOff_frame (s : State) :
    (runOff s).now = s.now ∧ (runOff s).msu.angle = s.msu.angle ∧ (runOff s).msu.fault = s.msu.fault ∧
      (runOff s).msu.bias = s.msu.bias ∧ (runOff s).msu.read = s.msu.read ∧ (runOff s).msu.imp = s.msu.imp ∧
      (runOff s).msu.tickBias = s.msu.tickBias ∧ (runOff s).msu.tickImp = s.msu.tickImp ∧
      (runOff s).csu.offset = s.csu.offset ∧ (runOff s).csu.frame = s.csu.frame ∧
      (runOff s).csu.ring = s.csu.ring ∧ (runOff s).scn = s.scn ∧ (runOff s).cbf = s.cbf ∧ (runOff s).sdr = s.sdr ∧
      (runOff s).cwr = s.cwr ∧ (runOff s).ips = s.ips ∧ (runOff s).chg = s.chg ∧ (runOff s).ssv = s.ssv ∧
      (runOff s).lnk.refused = s.lnk.refused ∧ (runOff s).lnk.recordMask = s.lnk.recordMask ∧
      (runOff s).lnk.alertMask = s.lnk.alertMask ∧ (runOff s).lnk.guard = s.lnk.guard ∧
      (runOff s).lnk.resetTaken = s.lnk.resetTaken ∧ (runOff s).rst = s.rst ∧ (runOff s).pending = s.pending := by
  simp only [runOff]; (repeat' split) <;> simp

@[simp] theorem runOn_frame (s : State) :
    (runOn s).now = s.now ∧ (runOn s).msu.angle = s.msu.angle ∧ (runOn s).msu.path = s.msu.path ∧
      (runOn s).msu.fault = s.msu.fault ∧ (runOn s).msu.bias = s.msu.bias ∧ (runOn s).msu.read = s.msu.read ∧
      (runOn s).msu.imp = s.msu.imp ∧
      (runOn s).msu.tickBias = s.msu.tickBias ∧ (runOn s).msu.tickImp = s.msu.tickImp ∧ (runOn s).csu = s.csu ∧
      (runOn s).ctx = s.ctx ∧ (runOn s).adu = s.adu ∧
      (runOn s).scn = s.scn ∧ (runOn s).cbf = s.cbf ∧ (runOn s).sdr = s.sdr ∧ (runOn s).cwr = s.cwr ∧
      (runOn s).ips = s.ips ∧ (runOn s).chg = s.chg ∧ (runOn s).ssv = s.ssv ∧ (runOn s).lnk = s.lnk ∧
      (runOn s).rst = s.rst ∧ (runOn s).pending = s.pending := by
  simp only [runOn]; (repeat' split) <;> simp

@[simp] theorem readAnswered_frame (sample : Option Sample) (s : State) :
    (readAnswered sample s).now = s.now ∧ (readAnswered sample s).msu.stab = s.msu.stab ∧
      (readAnswered sample s).msu.angle = s.msu.angle ∧ (readAnswered sample s).msu.path = s.msu.path ∧
      (readAnswered sample s).msu.fault = s.msu.fault ∧ (readAnswered sample s).msu.bias = s.msu.bias ∧
      (readAnswered sample s).msu.imp = s.msu.imp ∧
      (readAnswered sample s).msu.tickBias = s.msu.tickBias ∧ (readAnswered sample s).msu.tickImp = s.msu.tickImp ∧
      (readAnswered sample s).csu = s.csu ∧
      (readAnswered sample s).ctx = s.ctx ∧ (readAnswered sample s).adu = s.adu ∧
      (readAnswered sample s).scn = s.scn ∧ (readAnswered sample s).cbf = s.cbf ∧
      (readAnswered sample s).sdr = s.sdr ∧ (readAnswered sample s).cwr = s.cwr ∧
      (readAnswered sample s).ips = s.ips ∧ (readAnswered sample s).chg = s.chg ∧
      (readAnswered sample s).ssv = s.ssv ∧ (readAnswered sample s).lnk = s.lnk ∧
      (readAnswered sample s).rst = s.rst ∧ (readAnswered sample s).pending = s.pending := by
  simp only [readAnswered]; (repeat' split) <;> simp

@[simp] theorem rearmExpiry_frame (s : State) :
    (rearmExpiry s).now = s.now ∧ (rearmExpiry s).msu.stab = s.msu.stab ∧ (rearmExpiry s).msu.angle = s.msu.angle ∧
      (rearmExpiry s).msu.path = s.msu.path ∧ (rearmExpiry s).msu.fault = s.msu.fault ∧
      (rearmExpiry s).msu.bias = s.msu.bias ∧ (rearmExpiry s).msu.read = s.msu.read ∧
      (rearmExpiry s).msu.imp = s.msu.imp ∧
      (rearmExpiry s).msu.tickBias = s.msu.tickBias ∧ (rearmExpiry s).msu.tickImp = s.msu.tickImp ∧
      (rearmExpiry s).csu = s.csu ∧ (rearmExpiry s).ctx = s.ctx ∧
      (rearmExpiry s).adu = s.adu ∧ (rearmExpiry s).scn = s.scn ∧ (rearmExpiry s).cbf = s.cbf ∧
      (rearmExpiry s).sdr = s.sdr ∧ (rearmExpiry s).cwr = s.cwr ∧ (rearmExpiry s).ips = s.ips ∧
      (rearmExpiry s).chg = s.chg ∧ (rearmExpiry s).ssv = s.ssv ∧ (rearmExpiry s).lnk = s.lnk ∧
      (rearmExpiry s).rst = s.rst ∧ (rearmExpiry s).pending = s.pending := by
  simp only [rearmExpiry]; (repeat' split) <;> simp

@[simp] theorem parkExpiry_frame (s : State) :
    (parkExpiry s).now = s.now ∧ (parkExpiry s).msu.stab = s.msu.stab ∧ (parkExpiry s).msu.angle = s.msu.angle ∧
      (parkExpiry s).msu.path = s.msu.path ∧ (parkExpiry s).msu.fault = s.msu.fault ∧
      (parkExpiry s).msu.bias = s.msu.bias ∧ (parkExpiry s).msu.read = s.msu.read ∧
      (parkExpiry s).msu.imp = s.msu.imp ∧
      (parkExpiry s).msu.tickBias = s.msu.tickBias ∧ (parkExpiry s).msu.tickImp = s.msu.tickImp ∧
      (parkExpiry s).csu = s.csu ∧ (parkExpiry s).ctx = s.ctx ∧
      (parkExpiry s).scn = s.scn ∧ (parkExpiry s).cbf = s.cbf ∧ (parkExpiry s).sdr = s.sdr ∧
      (parkExpiry s).cwr = s.cwr ∧ (parkExpiry s).ips = s.ips ∧ (parkExpiry s).chg = s.chg ∧
      (parkExpiry s).ssv = s.ssv ∧ (parkExpiry s).lnk = s.lnk ∧ (parkExpiry s).rst = s.rst ∧
      (parkExpiry s).pending = s.pending := by
  simp only [parkExpiry]; (repeat' split) <;> simp

@[simp] theorem setRail_frame (rail : Rail) (stable : Option Nat) (s : State) :
    (setRail rail stable s).now = s.now ∧ (setRail rail stable s).msu = s.msu ∧
      (setRail rail stable s).csu = s.csu ∧ (setRail rail stable s).ctx = s.ctx ∧
      (setRail rail stable s).adu = s.adu ∧ (setRail rail stable s).scn = s.scn ∧
      (setRail rail stable s).cbf = s.cbf ∧ (setRail rail stable s).sdr = s.sdr ∧
      (setRail rail stable s).cwr = s.cwr ∧ (setRail rail stable s).ips = s.ips ∧
      (setRail rail stable s).chg = s.chg ∧ (setRail rail stable s).ssv.st = s.ssv.st ∧
      (setRail rail stable s).ssv.timerEnd = s.ssv.timerEnd ∧ (setRail rail stable s).ssv.rideMs = s.ssv.rideMs ∧
      (setRail rail stable s).ssv.budget = s.ssv.budget ∧ (setRail rail stable s).ssv.close = s.ssv.close ∧
      (setRail rail stable s).lnk = s.lnk ∧ (setRail rail stable s).rst = s.rst ∧
      (setRail rail stable s).pending = s.pending := by
  simp only [setRail]; (repeat' split) <;> simp

@[simp] theorem railInReset_frame (rail : Rail) (s : State) :
    (railInReset rail s).now = s.now ∧ (railInReset rail s).msu = s.msu ∧ (railInReset rail s).csu = s.csu ∧
      (railInReset rail s).ctx = s.ctx ∧ (railInReset rail s).adu = s.adu ∧ (railInReset rail s).scn = s.scn ∧
      (railInReset rail s).cbf = s.cbf ∧ (railInReset rail s).sdr = s.sdr ∧ (railInReset rail s).cwr = s.cwr ∧
      (railInReset rail s).ips = s.ips ∧ (railInReset rail s).chg = s.chg ∧
      (railInReset rail s).ssv.st = s.ssv.st ∧ (railInReset rail s).ssv.timerEnd = s.ssv.timerEnd ∧
      (railInReset rail s).ssv.stable = s.ssv.stable ∧ (railInReset rail s).ssv.rideMs = s.ssv.rideMs ∧
      (railInReset rail s).ssv.budget = s.ssv.budget ∧ (railInReset rail s).ssv.close = s.ssv.close ∧
      (railInReset rail s).lnk = s.lnk ∧ (railInReset rail s).rst = s.rst ∧
      (railInReset rail s).pending = s.pending := by
  simp only [railInReset]; (repeat' split) <;> simp

/-- A rise to warn moves the rail's place alone. -/
theorem riseToWarn_frame (s : State) :
    riseToWarn s = { s with ssv := { s.ssv with rail := (riseToWarn s).ssv.rail } } := by
  simp only [riseToWarn]; split <;> rfl

@[simp] theorem fallBelowWarn_frame (s : State) :
    (fallBelowWarn s).now = s.now ∧ (fallBelowWarn s).msu = s.msu ∧ (fallBelowWarn s).csu.offset = s.csu.offset ∧
      (fallBelowWarn s).csu.frame = s.csu.frame ∧ (fallBelowWarn s).csu.sample = s.csu.sample ∧
      (fallBelowWarn s).csu.carried = s.csu.carried ∧ (fallBelowWarn s).csu.ring = s.csu.ring ∧
      (fallBelowWarn s).ctx = s.ctx ∧ (fallBelowWarn s).scn = s.scn ∧ (fallBelowWarn s).cbf = s.cbf ∧
      (fallBelowWarn s).sdr = s.sdr ∧ (fallBelowWarn s).cwr = s.cwr ∧ (fallBelowWarn s).ips = s.ips ∧
      (fallBelowWarn s).ssv.rideMs = s.ssv.rideMs ∧ (fallBelowWarn s).ssv.budget = s.ssv.budget ∧
      (fallBelowWarn s).ssv.close = s.ssv.close ∧ (fallBelowWarn s).lnk.req = s.lnk.req ∧
      (fallBelowWarn s).lnk.reply = s.lnk.reply ∧ (fallBelowWarn s).lnk.refused = s.lnk.refused ∧
      (fallBelowWarn s).lnk.recordMask = s.lnk.recordMask ∧ (fallBelowWarn s).lnk.alertMask = s.lnk.alertMask ∧
      (fallBelowWarn s).lnk.guard = s.lnk.guard ∧ (fallBelowWarn s).lnk.resetTaken = s.lnk.resetTaken ∧
      (fallBelowWarn s).rst = s.rst ∧ (fallBelowWarn s).pending = s.pending := by
  simp only [fallBelowWarn]; (repeat' split) <;> simp

@[simp] theorem riseToRecover_frame (s : State) :
    (riseToRecover s).now = s.now ∧ (riseToRecover s).msu = s.msu ∧ (riseToRecover s).csu = s.csu ∧
      (riseToRecover s).ctx = s.ctx ∧ (riseToRecover s).scn = s.scn ∧ (riseToRecover s).cbf = s.cbf ∧
      (riseToRecover s).sdr = s.sdr ∧ (riseToRecover s).cwr = s.cwr ∧ (riseToRecover s).ips = s.ips ∧
      (riseToRecover s).ssv.rideMs = s.ssv.rideMs ∧ (riseToRecover s).ssv.budget = s.ssv.budget ∧
      (riseToRecover s).ssv.close = s.ssv.close ∧ (riseToRecover s).lnk.req = s.lnk.req ∧
      (riseToRecover s).lnk.reply = s.lnk.reply ∧ (riseToRecover s).lnk.refused = s.lnk.refused ∧
      (riseToRecover s).lnk.recordMask = s.lnk.recordMask ∧ (riseToRecover s).lnk.alertMask = s.lnk.alertMask ∧
      (riseToRecover s).lnk.guard = s.lnk.guard ∧ (riseToRecover s).lnk.resetTaken = s.lnk.resetTaken ∧
      (riseToRecover s).rst = s.rst ∧ (riseToRecover s).pending = s.pending := by
  simp only [riseToRecover]; (repeat' split) <;> simp

@[simp] theorem fallBelowRecover_frame (s : State) :
    (fallBelowRecover s).now = s.now ∧ (fallBelowRecover s).msu = s.msu ∧ (fallBelowRecover s).csu = s.csu ∧
      (fallBelowRecover s).ctx = s.ctx ∧ (fallBelowRecover s).adu = s.adu ∧ (fallBelowRecover s).scn = s.scn ∧
      (fallBelowRecover s).cbf = s.cbf ∧ (fallBelowRecover s).sdr = s.sdr ∧ (fallBelowRecover s).cwr = s.cwr ∧
      (fallBelowRecover s).ips = s.ips ∧ (fallBelowRecover s).chg = s.chg ∧
      (fallBelowRecover s).ssv.st = s.ssv.st ∧ (fallBelowRecover s).ssv.timerEnd = s.ssv.timerEnd ∧
      (fallBelowRecover s).ssv.rideMs = s.ssv.rideMs ∧ (fallBelowRecover s).ssv.budget = s.ssv.budget ∧
      (fallBelowRecover s).ssv.close = s.ssv.close ∧ (fallBelowRecover s).lnk = s.lnk ∧
      (fallBelowRecover s).rst = s.rst ∧ (fallBelowRecover s).pending = s.pending := by
  simp only [fallBelowRecover]; (repeat' split) <;> simp

@[simp] theorem rideExpiry_frame (s : State) :
    (rideExpiry s).now = s.now ∧ (rideExpiry s).msu = s.msu ∧ (rideExpiry s).csu = s.csu ∧
      (rideExpiry s).ctx = s.ctx ∧ (rideExpiry s).scn = s.scn ∧ (rideExpiry s).cwr.present = s.cwr.present ∧
      (rideExpiry s).cwr.cdet = s.cwr.cdet ∧ (rideExpiry s).ips = s.ips ∧
      (rideExpiry s).ssv.stable = s.ssv.stable ∧ (rideExpiry s).ssv.rideMs = s.ssv.rideMs ∧
      (rideExpiry s).ssv.budget = s.ssv.budget ∧ (rideExpiry s).ssv.rail = s.ssv.rail ∧
      (rideExpiry s).lnk.refused = s.lnk.refused ∧ (rideExpiry s).lnk.recordMask = s.lnk.recordMask ∧
      (rideExpiry s).lnk.alertMask = s.lnk.alertMask ∧ (rideExpiry s).lnk.guard = s.lnk.guard ∧
      (rideExpiry s).lnk.resetTaken = s.lnk.resetTaken ∧ (rideExpiry s).rst = s.rst ∧
      (rideExpiry s).pending = s.pending := by
  simp only [rideExpiry]; (repeat' split) <;> simp

@[simp] theorem setGuard_frame (g : Guard) (trip : Option Trip) (guardEnd : Option Word) (s : State) :
    (setGuard g trip guardEnd s).now = s.now ∧ (setGuard g trip guardEnd s).msu = s.msu ∧
      (setGuard g trip guardEnd s).csu = s.csu ∧ (setGuard g trip guardEnd s).ctx = s.ctx ∧
      (setGuard g trip guardEnd s).adu = s.adu ∧ (setGuard g trip guardEnd s).scn = s.scn ∧
      (setGuard g trip guardEnd s).cbf = s.cbf ∧ (setGuard g trip guardEnd s).sdr = s.sdr ∧
      (setGuard g trip guardEnd s).cwr = s.cwr ∧ (setGuard g trip guardEnd s).ips = s.ips ∧
      (setGuard g trip guardEnd s).chg = s.chg ∧ (setGuard g trip guardEnd s).ssv = s.ssv ∧
      (setGuard g trip guardEnd s).lnk.req = s.lnk.req ∧ (setGuard g trip guardEnd s).lnk.reply = s.lnk.reply ∧
      (setGuard g trip guardEnd s).lnk.refused = s.lnk.refused ∧
      (setGuard g trip guardEnd s).lnk.events = s.lnk.events ∧
      (setGuard g trip guardEnd s).lnk.recordMask = s.lnk.recordMask ∧
      (setGuard g trip guardEnd s).lnk.alertMask = s.lnk.alertMask ∧
      (setGuard g trip guardEnd s).lnk.resetTaken = s.lnk.resetTaken ∧ (setGuard g trip guardEnd s).rst = s.rst ∧
      (setGuard g trip guardEnd s).pending = s.pending := by
  simp only [setGuard]; (repeat' split) <;> simp

@[simp] theorem enterQuiet_frame (s : State) :
    (enterQuiet s).now = s.now ∧ (enterQuiet s).msu = s.msu ∧ (enterQuiet s).csu = s.csu ∧
      (enterQuiet s).ctx = s.ctx ∧ (enterQuiet s).adu = s.adu ∧ (enterQuiet s).scn = s.scn ∧
      (enterQuiet s).cbf = s.cbf ∧ (enterQuiet s).sdr = s.sdr ∧ (enterQuiet s).cwr = s.cwr ∧
      (enterQuiet s).ips = s.ips ∧ (enterQuiet s).chg = s.chg ∧ (enterQuiet s).ssv = s.ssv ∧
      (enterQuiet s).lnk.req = s.lnk.req ∧ (enterQuiet s).lnk.reply = s.lnk.reply ∧
      (enterQuiet s).lnk.refused = s.lnk.refused ∧ (enterQuiet s).lnk.events = s.lnk.events ∧
      (enterQuiet s).lnk.recordMask = s.lnk.recordMask ∧ (enterQuiet s).lnk.alertMask = s.lnk.alertMask ∧
      (enterQuiet s).lnk.resetTaken = s.lnk.resetTaken ∧ (enterQuiet s).rst = s.rst ∧
      (enterQuiet s).pending = s.pending := by
  simp only [enterQuiet]; (repeat' split) <;> simp

@[simp] theorem tripGuard_frame (cause : Trip) (s : State) :
    (tripGuard cause s).now = s.now ∧ (tripGuard cause s).msu = s.msu ∧
      (tripGuard cause s).csu.offset = s.csu.offset ∧ (tripGuard cause s).csu.frame = s.csu.frame ∧
      (tripGuard cause s).csu.sample = s.csu.sample ∧ (tripGuard cause s).csu.carried = s.csu.carried ∧
      (tripGuard cause s).csu.ring = s.csu.ring ∧ (tripGuard cause s).ctx = s.ctx ∧
      (tripGuard cause s).scn = s.scn ∧ (tripGuard cause s).cwr.present = s.cwr.present ∧
      (tripGuard cause s).cwr.cdet = s.cwr.cdet ∧ (tripGuard cause s).ips = s.ips ∧
      (tripGuard cause s).ssv.stable = s.ssv.stable ∧ (tripGuard cause s).ssv.rideMs = s.ssv.rideMs ∧
      (tripGuard cause s).ssv.budget = s.ssv.budget ∧ (tripGuard cause s).ssv.rail = s.ssv.rail ∧
      (tripGuard cause s).lnk.refused = s.lnk.refused ∧ (tripGuard cause s).lnk.recordMask = s.lnk.recordMask ∧
      (tripGuard cause s).lnk.alertMask = s.lnk.alertMask ∧ (tripGuard cause s).lnk.resetTaken = s.lnk.resetTaken ∧
      (tripGuard cause s).rst = s.rst ∧ (tripGuard cause s).pending = s.pending := by
  simp only [tripGuard]; (repeat' split) <;> simp

@[simp] theorem restoreGuard_frame (kind : Byte) (s : State) :
    (restoreGuard kind s).now = s.now ∧ (restoreGuard kind s).msu = s.msu ∧ (restoreGuard kind s).csu = s.csu ∧
      (restoreGuard kind s).ctx = s.ctx ∧ (restoreGuard kind s).scn = s.scn ∧ (restoreGuard kind s).cbf = s.cbf ∧
      (restoreGuard kind s).sdr = s.sdr ∧ (restoreGuard kind s).cwr = s.cwr ∧ (restoreGuard kind s).ips = s.ips ∧
      (restoreGuard kind s).chg = s.chg ∧ (restoreGuard kind s).ssv = s.ssv ∧
      (restoreGuard kind s).lnk.req = s.lnk.req ∧ (restoreGuard kind s).lnk.reply = s.lnk.reply ∧
      (restoreGuard kind s).lnk.refused = s.lnk.refused ∧ (restoreGuard kind s).lnk.recordMask = s.lnk.recordMask ∧
      (restoreGuard kind s).lnk.alertMask = s.lnk.alertMask ∧ (restoreGuard kind s).lnk.guard = s.lnk.guard ∧
      (restoreGuard kind s).lnk.resetTaken = s.lnk.resetTaken ∧ (restoreGuard kind s).rst = s.rst ∧
      (restoreGuard kind s).pending = s.pending := by
  simp only [restoreGuard]; (repeat' split) <;> simp

@[simp] theorem checkIn_frame (s : State) :
    (checkIn s).now = s.now ∧ (checkIn s).msu = s.msu ∧ (checkIn s).csu.offset = s.csu.offset ∧
      (checkIn s).csu.frame = s.csu.frame ∧ (checkIn s).csu.sample = s.csu.sample ∧
      (checkIn s).csu.carried = s.csu.carried ∧ (checkIn s).csu.ring = s.csu.ring ∧ (checkIn s).ctx = s.ctx ∧
      (checkIn s).scn = s.scn ∧ (checkIn s).cwr.present = s.cwr.present ∧ (checkIn s).cwr.cdet = s.cwr.cdet ∧
      (checkIn s).ips = s.ips ∧ (checkIn s).ssv.stable = s.ssv.stable ∧ (checkIn s).ssv.rideMs = s.ssv.rideMs ∧
      (checkIn s).ssv.budget = s.ssv.budget ∧ (checkIn s).ssv.rail = s.ssv.rail ∧
      (checkIn s).lnk.refused = s.lnk.refused ∧ (checkIn s).lnk.recordMask = s.lnk.recordMask ∧
      (checkIn s).lnk.alertMask = s.lnk.alertMask ∧ (checkIn s).lnk.resetTaken = s.lnk.resetTaken ∧
      (checkIn s).rst = s.rst ∧ (checkIn s).pending = s.pending := by
  simp only [checkIn]; (repeat' split) <;> simp

@[simp] theorem quietExpiry_frame (s : State) :
    (quietExpiry s).now = s.now ∧ (quietExpiry s).msu = s.msu ∧ (quietExpiry s).csu = s.csu ∧
      (quietExpiry s).ctx = s.ctx ∧ (quietExpiry s).adu = s.adu ∧ (quietExpiry s).scn = s.scn ∧
      (quietExpiry s).cbf = s.cbf ∧ (quietExpiry s).sdr = s.sdr ∧ (quietExpiry s).cwr = s.cwr ∧
      (quietExpiry s).ips = s.ips ∧ (quietExpiry s).chg = s.chg ∧ (quietExpiry s).ssv = s.ssv ∧
      (quietExpiry s).lnk.req = s.lnk.req ∧ (quietExpiry s).lnk.reply = s.lnk.reply ∧
      (quietExpiry s).lnk.refused = s.lnk.refused ∧ (quietExpiry s).lnk.events = s.lnk.events ∧
      (quietExpiry s).lnk.recordMask = s.lnk.recordMask ∧ (quietExpiry s).lnk.alertMask = s.lnk.alertMask ∧
      (quietExpiry s).lnk.resetTaken = s.lnk.resetTaken ∧ (quietExpiry s).rst = s.rst ∧
      (quietExpiry s).pending = s.pending := by
  simp only [quietExpiry]; (repeat' split) <;> simp

@[simp] theorem windowExpiry_frame (s : State) :
    (windowExpiry s).now = s.now ∧ (windowExpiry s).msu = s.msu ∧ (windowExpiry s).csu.offset = s.csu.offset ∧
      (windowExpiry s).csu.frame = s.csu.frame ∧ (windowExpiry s).csu.sample = s.csu.sample ∧
      (windowExpiry s).csu.carried = s.csu.carried ∧ (windowExpiry s).csu.ring = s.csu.ring ∧
      (windowExpiry s).ctx = s.ctx ∧ (windowExpiry s).scn = s.scn ∧ (windowExpiry s).cwr.present = s.cwr.present ∧
      (windowExpiry s).cwr.cdet = s.cwr.cdet ∧ (windowExpiry s).ips = s.ips ∧
      (windowExpiry s).ssv.stable = s.ssv.stable ∧ (windowExpiry s).ssv.rideMs = s.ssv.rideMs ∧
      (windowExpiry s).ssv.budget = s.ssv.budget ∧ (windowExpiry s).ssv.rail = s.ssv.rail ∧
      (windowExpiry s).lnk.refused = s.lnk.refused ∧ (windowExpiry s).lnk.recordMask = s.lnk.recordMask ∧
      (windowExpiry s).lnk.alertMask = s.lnk.alertMask ∧ (windowExpiry s).lnk.resetTaken = s.lnk.resetTaken ∧
      (windowExpiry s).rst = s.rst ∧ (windowExpiry s).pending = s.pending := by
  simp only [windowExpiry]; (repeat' split) <;> simp

end Sys2Proof.Machine
end

