-- ==== Sys2Proof/Laws/Gates.lean ====
section
/-! SUPPORT. What the gates of a command can answer, once for all of them: a proof about a row starts from these. -/

namespace Sys2Proof.Machine

/-- A command behind `whenUp` changes nothing in reset, and is its operation otherwise. -/
theorem whenUp_next {s t : State} {f : State → State} (h : whenUp s f = .next t) :
    (s.rst.active = true ∧ t = s) ∨ (Awake s ∧ t = f s) := by
  simp only [whenUp, Host.Outcome.next.injEq] at h
  subst h
  by_cases ha : s.rst.active = true <;> simp [ha, Awake]

/-- `whenUp` answers a next state. -/
theorem whenUp_awake {s : State} (h : Awake s) (f : State → State) : whenUp s f = .next (f s) := by
  simp only [Awake] at h
  simp [whenUp, h]

/-- A request is ignored in reset, refused on an occupied link, and its operation otherwise. -/
theorem takeReq_next {s t : State} {f : State → State} (h : takeReq s f = .next t) :
    (s.rst.active = true ∧ t = s) ∨
      (Awake s ∧ ¬ LinkFree s ∧ t = { s with lnk := { s.lnk with refused := true } }) ∨ (Takes s ∧ t = f s) := by
  rcases whenUp_next h with h | ⟨ha, rfl⟩
  · exact .inl h
  · right
    by_cases hb : linkBusy s.lnk = true
    · left
      refine ⟨ha, ?_, by simp [hb]⟩
      rintro ⟨h1, h2⟩
      simp [linkBusy, h1, h2] at hb
    · right
      refine ⟨⟨ha, ?_⟩, by simp [hb]⟩
      simpa [linkBusy, LinkFree] using hb

/-- A request that is taken is its operation. -/
theorem takeReq_takes {s : State} (h : Takes s) (f : State → State) : takeReq s f = .next (f s) := by
  obtain ⟨ha, h1, h2⟩ := h
  rw [takeReq, whenUp_awake ha]
  simp [linkBusy, h1, h2]

/-- A request on an occupied link sets REFUSED and nothing else. -/
theorem takeReq_busy {s : State} (ha : Awake s) (hb : ¬ LinkFree s) (f : State → State) :
    takeReq s f = .next { s with lnk := { s.lnk with refused := true } } := by
  rw [takeReq, whenUp_awake ha]
  have : linkBusy s.lnk = true := by
    by_contra h
    exact hb (by simpa [linkBusy, LinkFree] using h)
  simp [this]

/-- A row that names a moment inside a step is that step, or nothing. -/
theorem stepThat_cases (p : State → State → Bool) (f : State → State) (s : State) :
    stepThat p f s = s ∨ (p s (f s) = true ∧ stepThat p f s = f s) := by
  simp only [stepThat]
  split
  · right; exact ⟨‹_›, rfl⟩
  · left; rfl

/-- A row that names a moment is its step when the step brings the moment about. -/
theorem stepThat_happens {p : State → State → Bool} {f : State → State} {s : State} (h : p s (f s) = true) :
    stepThat p f s = f s := by
  simp [stepThat, h]

end Sys2Proof.Machine
end

