-- ==== Sys2Proof/Laws/Settle.lean ====
section
/-! SUPPORT. What `settle` can do, said once: under `PortLaw` it grants the port and changes nothing else. -/

namespace Sys2Proof.Machine

set_option linter.unusedSimpArgs false

/-- Rewriting one entry by a function that `unqueued` does not see keeps the entries up to their Queued fields. -/
theorem setAt_map_unqueued (e : Entry) (f : Entry → Entry) (hf : unqueued (f e) = unqueued e) :
    ∀ (es : List Entry) (i : Nat), es[i]? = some e → (setAt es i (f e)).map unqueued = es.map unqueued
  | [], _, _ => by simp [setAt]
  | x :: xs, 0, h => by
      simp only [List.getElem?_cons_zero, Option.some.injEq] at h
      subst h
      simp [setAt, hf]
  | x :: xs, i + 1, h => by
      simp only [List.getElem?_cons_succ] at h
      simp [setAt, setAt_map_unqueued e f hf xs i h]

/-- `modEntry` by such a function keeps the entries up to their Queued fields. -/
theorem modEntry_unqueued (i : Nat) (f : Entry → Entry) (hf : ∀ e, unqueued (f e) = unqueued e) (s : State) :
    (modEntry i f s).sdr.entries.map unqueued = s.sdr.entries.map unqueued := by
  simp only [modEntry]
  split
  · rfl
  · rename_i e he
    exact setAt_map_unqueued e f (hf e) _ _ he

/-- One entry after a rewriting. -/
@[simp] theorem getElem?_rewritten (i j : Nat) (f : Entry → Entry) (es : List Entry) :
    (rewritten i f es)[j]? = (es[j]?).map fun e => if j = i then f e else e := by
  simp [rewritten]

/-- One entry after an entry has been replaced. -/
theorem getElem?_setAt (e : Entry) :
    ∀ (es : List Entry) (i j : Nat), (setAt es i e)[j]? = if j = i then (es[j]?).map fun _ => e else es[j]?
  | [], i, j => by simp [setAt]
  | x :: xs, 0, 0 => rfl
  | x :: xs, 0, j + 1 => rfl
  | x :: xs, i + 1, 0 => rfl
  | x :: xs, i + 1, j + 1 => by simp [setAt, getElem?_setAt e xs i j]

/-- `modEntry` rewrites its entry and no other. -/
theorem modEntry_rewritten (i : Nat) (f : Entry → Entry) (s : State) :
    (modEntry i f s).sdr.entries = rewritten i f s.sdr.entries := by
  apply List.ext_getElem?
  intro j
  simp only [getElem?_rewritten, modEntry]
  split
  · rename_i h
    by_cases hj : j = i
    · subst hj
      simp_all [entryAt]
    · simp [hj]
  · rename_i e h
    by_cases hj : j = i
    · subst hj
      simp_all [entryAt, getElem?_setAt]
    · simp [hj, getElem?_setAt]

theorem KeepsCardButPort.refl (s : State) : KeepsCardButPort s s := ⟨rfl, rfl, rfl, rfl⟩

theorem KeepsCardButPort.trans {s t u : State} (h : KeepsCardButPort s t) (k : KeepsCardButPort t u) :
    KeepsCardButPort s u := by
  obtain ⟨h1, h2, h3, h4⟩ := h
  obtain ⟨k1, k2, k3, k4⟩ := k
  exact ⟨k1.trans h1, by rw [k2, h2], k3.trans h3, by rw [k4, h4]⟩

theorem dequeue_keeps (i : Nat) (rest : List Nat) (s : State) : KeepsCardButPort s (dequeue i rest s) := by
  refine ⟨by simp, ?_, ?_, by simp⟩
  · simp only [dequeue, modEntry]; split <;> rfl
  · exact modEntry_unqueued i (fun e => { e with queued := false }) (fun _ => rfl) s

theorem skipQueue_keeps : ∀ (q : List Nat) (s : State), KeepsCardButPort s (skipQueue q s)
  | [], s => KeepsCardButPort.refl s
  | i :: rest, s => by
      simp only [skipQueue]
      split
      · exact KeepsCardButPort.refl s
      · exact (dequeue_keeps i rest s).trans (skipQueue_keeps rest _)

/-- Taking the port, the run count and the offers are all the card writer's own. -/
theorem keeps_of_port {s : State} (p : Option Transfer) (n : Nat) (a b c : Bool) :
    KeepsCardButPort s
      { s with cwr := { s.cwr with port := p, run := n, offUnit := a, offBlock := b, blockFirst := c } } :=
  ⟨rfl, rfl, rfl, rfl⟩

theorem beginHeader_keeps (op : Xfer) (i : Nat) (b : Geometry → Entry → List Byte) (s : State) :
    KeepsCardButPort s (beginHeader op i b s) := by
  simp only [beginHeader, withGeo]
  repeat' split
  all_goals exact ⟨rfl, rfl, rfl, rfl⟩

theorem grantUpdate_keeps (op : Xfer) (i : Nat) (s : State) : KeepsCardButPort s (grantUpdate op i s) := by
  simp only [grantUpdate]
  exact (dequeue_keeps i _ s).trans (beginHeader_keeps _ _ _ _)

theorem grantUnit_keeps (o : Offer) (s : State) : KeepsCardButPort s (grantUnit o s) := by
  simp only [grantUnit, countRun, beginUnit, withGeo]
  repeat' split
  all_goals exact ⟨rfl, rfl, rfl, rfl⟩

theorem grantBlock_keeps (o : Offer) (s : State) : KeepsCardButPort s (grantBlock o s) := by
  simp only [grantBlock, countRun, beginBlock, withGeo]
  repeat' split
  all_goals exact ⟨rfl, rfl, rfl, rfl⟩

theorem grantRead_keeps (s : State) : KeepsCardButPort s (grantRead s) := by
  simp only [grantRead, clearRun, beginHostRead, withGeo]
  repeat' split
  all_goals exact ⟨rfl, rfl, rfl, rfl⟩

theorem grantData_keeps (s : State) : KeepsCardButPort s (grantData s) := by
  simp only [grantData]
  repeat' split
  all_goals first
    | exact grantUnit_keeps _ _
    | exact grantBlock_keeps _ _
    | exact grantRead_keeps _
    | exact KeepsCardButPort.refl _

/-- A grant changes the port, the queue and the offers alone. -/
theorem grantPort_keeps (s : State) : KeepsCardButPort s (grantPort s) := by
  have h := skipQueue_keeps s.sdr.queue s
  simp only [grantPort]
  generalize skipQueue s.sdr.queue s = u at h ⊢
  refine h.trans ?_
  split
  · exact grantUpdate_keeps _ _ _
  · split
    · exact beginHeader_keeps _ _ _ _
    · split
      · exact beginHeader_keeps _ _ _ _
      · split
        · exact grantRead_keeps _
        · exact grantData_keeps _

theorem refreshOffers_keeps (s : State) : KeepsCardButPort s (refreshOffers s) := ⟨rfl, rfl, rfl, rfl⟩

/-- With no UNMOUNT held nothing ends one. -/
theorem finishUnmount_none {s : State} (h : ∀ tag, s.lnk.req ≠ some (.unmount tag)) : finishUnmount s = s := by
  simp only [finishUnmount]

/-- Under `PortLaw`, `settle` refreshes the offers and, on a free port of an arbitrating writer, grants it. -/
theorem settle_eq {s : State} (h : PortLaw s) :
    settle s = if s.cwr.port.isNone && arbitrating s.cwr.writer then grantPort (refreshOffers s)
      else refreshOffers s := by
  obtain ⟨hc, hu⟩ := h
  have h3 : (s.cwr.port.isNone && s.cwr.writer == .emergencyClose) = false := by
    by_cases hw : s.cwr.writer = .emergencyClose
    · have := hc hw
      cases hp : s.cwr.port <;> simp_all
    · simp [hw]
  have h1 : (refreshOffers s).cwr.port = s.cwr.port := rfl
  have h2 : (refreshOffers s).cwr.writer = s.cwr.writer := rfl
  simp only [settle, h1, h2, h3, Bool.false_eq_true, if_false]
  by_cases hr : ∃ tag, s.lnk.req = some (.unmount tag)
  · obtain ⟨tag, ht⟩ := hr
    obtain ⟨hw, hp, hq⟩ := hu tag ht
    have hn : s.cwr.port.isNone = false := by cases hp' : s.cwr.port <;> simp_all
    simp only [hn, Bool.false_and, Bool.false_eq_true, if_false]
    have hq' : ((refreshOffers s).cwr.writer == .ready && (refreshOffers s).sdr.queue.isEmpty
        && !headerUnderWay (refreshOffers s)) = false := by
      have h5 : headerUnderWay (refreshOffers s) = headerUnderWay s := rfl
      have h6 : (refreshOffers s).sdr.queue = s.sdr.queue := rfl
      rw [h5, h6]
      rcases hq with hq | hq
      · have : s.sdr.queue.isEmpty = false := by cases h7 : s.sdr.queue <;> simp_all
        simp [this]
      · simp [hq]
    simp only [finishUnmount, hq', Bool.false_eq_true, if_false]
    split <;> rfl
  · have hr' : ∀ tag, s.lnk.req ≠ some (.unmount tag) := fun tag ht => hr ⟨tag, ht⟩
    apply finishUnmount_none
    intro tag
    split
    · simpa using hr' tag
    · exact hr' tag

/-- Under `PortLaw`, `settle` changes nothing but what granting the port changes. -/
theorem settle_keeps {s : State} (h : PortLaw s) :
    KeepsCardButPort s (settle s) ∧ (settle s).adu = s.adu ∧ (settle s).chg = s.chg ∧ (settle s).ssv = s.ssv ∧
      (settle s).lnk = s.lnk := by
  rw [settle_eq h]
  split
  · refine ⟨(refreshOffers_keeps s).trans (grantPort_keeps _), ?_⟩
    simp
  · exact ⟨refreshOffers_keeps s, rfl, rfl, rfl, rfl⟩

/-- Under `PortLaw`, `settle` leaves a transfer under way alone. -/
theorem settle_port {s : State} (h : PortLaw s) (hp : s.cwr.port ≠ none) : settle s = refreshOffers s := by
  rw [settle_eq h]
  have : s.cwr.port.isNone = false := by cases hp' : s.cwr.port <;> simp_all
  simp [this]

end Sys2Proof.Machine
end

