-- ==== Sys2Proof/Laws/Arbiter.lean ====
section
/-! SUPPORT. What the arbiter does, said once: on a free port `grantPort` grants what `ArbiterGrants` says (R125), and so
does `settle` under `PortLaw`. -/

namespace Sys2Proof.Machine

/-! ## What the arbiter reads -/

/-- `u` and `v` agree on what the arbiter reads beside the queue and the record of what is offered: the entries up to
their Queued fields, the clip buffer, the run count, the close reason, the held request and part time. -/
structure SlotsAlike (u v : State) : Prop where
  entries : u.sdr.entries.map unqueued = v.sdr.entries.map unqueued
  cbf : u.cbf = v.cbf
  run : u.cwr.run = v.cwr.run
  closeReason : u.cwr.closeReason = v.cwr.closeReason
  req : u.lnk.req = v.lnk.req
  now : u.now = v.now

/-- They agree on the queue and on the record of what is offered too. -/
structure ArbiterSees (u v : State) : Prop extends SlotsAlike u v where
  queue : u.sdr.queue = v.sdr.queue
  offUnit : u.cwr.offUnit = v.cwr.offUnit
  offBlock : u.cwr.offBlock = v.cwr.offBlock
  blockFirst : u.cwr.blockFirst = v.cwr.blockFirst

/-- What does not look at the Queued field of an entry is the same of two states with the same entries but for it. -/
theorem entryAt_congr {α : Type} {u v : State} (h : u.sdr.entries.map unqueued = v.sdr.entries.map unqueued)
    (f : Entry → α) (hf : ∀ e, f (unqueued e) = f e) (i : Nat) : (entryAt u i).map f = (entryAt v i).map f := by
  have h1 : (u.sdr.entries.map unqueued)[i]? = (v.sdr.entries.map unqueued)[i]? := by rw [h]
  simp only [List.getElem?_map] at h1
  have h2 := congrArg (Option.map f) h1
  have h3 : f ∘ unqueued = f := funext hf
  simpa only [entryAt, Option.map_map, h3] using h2

theorem findState_unqueued (st : SlotState) : ∀ (es : List Entry) (i : Nat),
    findState st i (es.map unqueued) = findState st i es
  | [], _ => rfl
  | e :: rest, i => by simp only [List.map_cons, findState, findState_unqueued st rest]; rfl

namespace SlotsAlike

variable {u v : State}

theorem openSlot_eq (h : u.sdr.entries.map unqueued = v.sdr.entries.map unqueued) : openSlot u = openSlot v := by
  rw [openSlot, openSlot, ← findState_unqueued, h, findState_unqueued]

theorem closingSlot_eq (h : u.sdr.entries.map unqueued = v.sdr.entries.map unqueued) :
    closingSlot u = closingSlot v := by
  rw [closingSlot, closingSlot, ← findState_unqueued, h, findState_unqueued]

theorem needsUpdate_eq (h : u.sdr.entries.map unqueued = v.sdr.entries.map unqueued) : needsUpdate u = needsUpdate v := by
  funext i
  have k := entryAt_congr h
    (fun e => (e.st == .opened && e.headerWritten) || e.st == .closed || e.st == .recovered) (fun _ => rfl) i
  simp only [needsUpdate]
  cases hu : entryAt u i <;> cases hv : entryAt v i <;> simp_all

theorem headerWritten_eq (h : u.sdr.entries.map unqueued = v.sdr.entries.map unqueued) :
    headerWritten u = headerWritten v := by
  funext i
  have k := entryAt_congr h Entry.headerWritten (fun _ => rfl) i
  simp only [headerWritten]
  cases hu : entryAt u i <;> cases hv : entryAt v i <;> simp_all

theorem isClosing_eq (h : u.sdr.entries.map unqueued = v.sdr.entries.map unqueued) : isClosing u = isClosing v := by
  funext i
  have k := entryAt_congr h (fun e => e.st == .closing) (fun _ => rfl) i
  simp only [isClosing]
  cases hu : entryAt u i <;> cases hv : entryAt v i <;> simp_all

theorem unitOffer_eq (h : SlotsAlike u v) : unitOffer u = unitOffer v := by
  funext g n
  have k := entryAt_congr h.entries Entry.streamBytes (fun _ => rfl) g.slot
  simp only [unitOffer, isClosing_eq h.entries]
  cases hu : entryAt u g.slot <;> cases hv : entryAt v g.slot <;> simp_all

theorem blockOffer_eq (h : SlotsAlike u v) : blockOffer u = blockOffer v := by
  funext i n
  have k := entryAt_congr h.entries Entry.motionRecords (fun _ => rfl) i
  simp only [blockOffer, isClosing_eq h.entries, h.cbf]
  cases hu : entryAt u i <;> cases hv : entryAt v i <;> simp_all

theorem offeredUnit_eq (h : SlotsAlike u v) : offeredUnit u = offeredUnit v := by
  simp only [offeredUnit, h.cbf, h.unitOffer_eq, isClosing_eq h.entries]

theorem offeredBlock_eq (h : SlotsAlike u v) : offeredBlock u = offeredBlock v := by
  simp only [offeredBlock, h.cbf, h.blockOffer_eq, isClosing_eq h.entries]

theorem readyUnit_eq (h : SlotsAlike u v) : readyUnit u = readyUnit v := by
  simp only [readyUnit, h.offeredUnit_eq, headerWritten_eq h.entries]

theorem readyBlock_eq (h : SlotsAlike u v) : readyBlock u = readyBlock v := by
  simp only [readyBlock, h.offeredBlock_eq, headerWritten_eq h.entries]

/-- A header is formed without the Queued field. -/
theorem headerTransfer_eq (h : SlotsAlike u v) (op : Xfer) (bytes : Entry → List Byte)
    (hb : ∀ e, bytes (unqueued e) = bytes e) (g : Geometry) (i : Nat) :
    headerTransfer op bytes g i u = headerTransfer op bytes g i v := by
  have k := entryAt_congr h.entries bytes hb i
  simp only [headerTransfer, h.now]
  cases hu : entryAt u i <;> cases hv : entryAt v i <;> simp_all

theorem closedTransfer_eq (h : SlotsAlike u v) (g : Geometry) : closedTransfer g u = closedTransfer g v := by
  have hu := h.headerTransfer_eq
  simp only [closedTransfer, h.closeReason, closingSlot_eq h.entries, headerWritten_eq h.entries, h.cbf,
    hu _ (closedHeader g.regionId _) (fun _ => rfl)]

theorem openingTransfer_eq (h : SlotsAlike u v) (g : Geometry) : openingTransfer g u = openingTransfer g v := by
  have hu := h.headerTransfer_eq
  simp only [openingTransfer, closingSlot_eq h.entries, openSlot_eq h.entries, headerWritten_eq h.entries,
    hu _ (openHeader g.regionId) (fun _ => rfl)]

theorem readTransfer_eq (h : SlotsAlike u v) (g : Geometry) : readTransfer g u = readTransfer g v := by
  simp only [readTransfer, h.req, h.now]

/-- The data write is the same where, of a unit and a block both ready, the same was offered first. -/
theorem dataTransfer_eq (h : SlotsAlike u v) (g : Geometry)
    (hb : ∀ o p, readyUnit v = some o → readyBlock v = some p → blockEarlier u = blockEarlier v) :
    dataTransfer g u = dataTransfer g v := by
  simp only [dataTransfer, h.readyUnit_eq, h.readyBlock_eq, unitTransfer, blockTransfer, h.cbf, h.now]
  cases hu : readyUnit v with
  | none => simp
  | some o =>
      cases hv : readyBlock v with
      | none => simp
      | some p => rw [hb o p hu hv]

end SlotsAlike

namespace ArbiterSees

variable {u v : State}

theorem nextUpdate_eq (h : ArbiterSees u v) : nextUpdate u = nextUpdate v := by
  simp only [nextUpdate, h.queue, SlotsAlike.needsUpdate_eq h.entries]

theorem queueAfter_eq (h : ArbiterSees u v) : queueAfter u = queueAfter v := by
  simp only [queueAfter, h.queue, SlotsAlike.needsUpdate_eq h.entries]

/-- What the arbiter grants rests on what it reads alone. -/
theorem grantOf_eq (h : ArbiterSees u v) (g : Geometry) : grantOf g u = grantOf g v := by
  have hs := h.toSlotsAlike
  have hd := hs.dataTransfer_eq g fun _ _ _ _ => by simp only [blockEarlier, h.offUnit, h.offBlock, h.blockFirst]
  simp only [grantOf, h.nextUpdate_eq, hs.closedTransfer_eq, hs.openingTransfer_eq, hs.readTransfer_eq, hd, h.run,
    hs.headerTransfer_eq _ (updateHeader g) (fun _ => rfl)]

end ArbiterSees

/-- A grant that one state admits, another that the arbiter sees alike admits too. -/
theorem ArbiterGrants.congr {u v t : State} (h : ArbiterSees u v) (hg : u.sdr.geo = v.sdr.geo)
    (k : ArbiterGrants u t) : ArbiterGrants v t := by
  intro g hv
  have := k g (hg.trans hv)
  rwa [h.grantOf_eq, h.run, h.queueAfter_eq] at this

/-! ## The grant -/

/-- Entries that need no write leave the queue's head. -/
theorem skipQueue_queue : ∀ (q : List Nat) (s : State), s.sdr.queue = q →
    (skipQueue q s).sdr.queue = q.dropWhile fun j => !needsUpdate s j
  | [], s, h => by simpa [skipQueue] using h
  | i :: rest, s, h => by
      simp only [skipQueue, List.dropWhile_cons]
      by_cases hi : needsUpdate s i = true
      · simp [hi, h]
      · have hk : (dequeue i rest s).sdr.entries.map unqueued = s.sdr.entries.map unqueued :=
          (dequeue_keeps i rest s).2.2.1
        simp only [hi, Bool.false_eq_true, if_false, Bool.not_false, if_true]
        rw [skipQueue_queue rest (dequeue i rest s) rfl, SlotsAlike.needsUpdate_eq hk]

/-- What `find?` finds is the head of what `dropWhile` leaves. -/
theorem find?_eq_head?_dropWhile {α : Type} (p : α → Bool) : ∀ l : List α,
    l.find? p = (l.dropWhile fun a => !p a).head?
  | [] => rfl
  | a :: l => by
      simp only [List.find?_cons, List.dropWhile_cons]
      cases h : p a <;> simp [find?_eq_head?_dropWhile p l]

/-- A header write of a slot that has an entry takes the port. -/
theorem beginHeader_port (op : Xfer) (i : Nat) (bytes : Geometry → Entry → List Byte) (g : Geometry) (s : State)
    (hg : s.sdr.geo = some g) (hp : s.cwr.port = none) :
    (beginHeader op i bytes s).cwr.port = headerTransfer op (bytes g) g i s := by
  simp only [beginHeader, withGeo, hg, headerTransfer]
  cases h : entryAt s i <;> simp [begin, setPort, hp]

theorem beginHeader_rest (op : Xfer) (i : Nat) (bytes : Geometry → Entry → List Byte) (s : State) :
    (beginHeader op i bytes s).cwr.run = s.cwr.run ∧ (beginHeader op i bytes s).sdr = s.sdr := by
  simp only [beginHeader, withGeo, begin, setPort]
  (repeat' split) <;> exact ⟨rfl, rfl⟩

/-- Two countings of the blocks that hold `n` records from record `k` on (R139). -/
theorem readBlocks_eq (k n : Nat) : (k + n - 1) / 32 - k / 32 + 1 = max 1 ((k % 32 + n + 31) / 32) := by omega

/-- R125, 3 and 5: the grant to a held MOTION_READ, or to nothing. -/
theorem grantRead_grants (g : Geometry) (s : State) (hg : s.sdr.geo = some g) (hp : s.cwr.port = none) :
    let t := if readWaits s then grantRead s else s
    t.cwr.port = readTransfer g s ∧ t.cwr.run = runAfter s.cwr.run (readTransfer g s) ∧ t.sdr = s.sdr := by
  rcases h : s.lnk.req with _ | ⟨_⟩ | ⟨_⟩ | ⟨tag, i, k, n, taken⟩
  · simpa only [readWaits, readTransfer, h] using ⟨hp, rfl, rfl⟩
  · simpa only [readWaits, readTransfer, h] using ⟨hp, rfl, rfl⟩
  · simpa only [readWaits, readTransfer, h] using ⟨hp, rfl, rfl⟩
  · simp only [readWaits, readTransfer, grantRead, h, if_true, clearRun, beginHostRead, withGeo, hg, begin, setPort,
      readBlocks_eq]
    exact ⟨trivial, rfl, trivial⟩

/-- R125, 4 and 5: the grant to the unit or the block, the one offered first, else to a held MOTION_READ. -/
theorem grantData_grants (g : Geometry) (s : State) (hg : s.sdr.geo = some g) (hp : s.cwr.port = none)
    (hb : ∀ o p, readyUnit s = some o → readyBlock s = some p → s.cwr.blockFirst = blockEarlier s) :
    (grantData s).cwr.port = (dataTransfer g s).or (readTransfer g s) ∧
      (grantData s).cwr.run = runAfter s.cwr.run ((dataTransfer g s).or (readTransfer g s)) ∧
      (grantData s).sdr = s.sdr := by
  have hr := grantRead_grants g s hg hp
  simp only [grantData, dataTransfer]
  cases hu : readyUnit s <;> cases hv : readyBlock s
  · simpa using hr
  · simp [grantBlock, countRun, beginBlock, withGeo, hg, begin, setPort, blockTransfer, runAfter]
  · simp [grantUnit, countRun, beginUnit, withGeo, hg, begin, setPort, unitTransfer, runAfter]
  · rw [hb _ _ hu hv]
    by_cases h : blockEarlier s = true
    · simp [h, grantBlock, countRun, beginBlock, withGeo, hg, begin, setPort, blockTransfer, runAfter]
    · simp [h, grantUnit, countRun, beginUnit, withGeo, hg, begin, setPort, unitTransfer, runAfter]

/-- A slot that needs an update has an entry. -/
theorem needsUpdate_entry {s : State} {i : Nat} (h : needsUpdate s i = true) : ∃ e, entryAt s i = some e := by
  simp only [needsUpdate] at h
  cases he : entryAt s i with
  | none => simp [he] at h
  | some e => exact ⟨e, rfl⟩

/-- The CLOSING and the OPEN slot have entries. -/
theorem findState_entry (st : SlotState) : ∀ (es : List Entry) (i j : Nat), findState st i es = some j →
    i ≤ j ∧ ∃ e, es[j - i]? = some e
  | [], i, j, h => by simp [findState] at h
  | e :: rest, i, j, h => by
      simp only [findState] at h
      split at h
      · cases h; simp
      · obtain ⟨h1, x, h2⟩ := findState_entry st rest (i + 1) j h
        refine ⟨by omega, x, ?_⟩
        have : j - i = (j - (i + 1)) + 1 := by omega
        rw [this]; simpa using h2

theorem openSlot_entry {s : State} {j : Nat} (h : openSlot s = some j) : ∃ e, entryAt s j = some e := by
  simpa [entryAt] using (findState_entry _ _ 0 j h).2

theorem closingSlot_entry {s : State} {j : Nat} (h : closingSlot s = some j) : ∃ e, entryAt s j = some e := by
  simpa [entryAt] using (findState_entry _ _ 0 j h).2

/-- R125 from its second line on: the grant when the queue holds nothing that needs a write. -/
def grantRest (s : State) : State :=
  match readyClosing s with
  | some i => grantClosed i s
  | none =>
      match readyOpening s with
      | some i => grantOpening i s
      | none => if s.cwr.run == 4 && readWaits s then grantRead s else grantData s

theorem readyClosing_eq (s : State) : readyClosing s = (closingSlot s).filter fun i =>
    headerWritten s i && bytesOf i s.cbf.segs == 0 && pendingOf i s.cbf.pend == 0 := by
  simp only [readyClosing]
  cases closingSlot s <;> simp [Option.filter]

theorem readyOpening_eq (s : State) :
    readyOpening s = ((closingSlot s).or (openSlot s)).filter fun i => !headerWritten s i := by
  simp only [readyOpening]
  cases closingSlot s with
  | some i => simp [Option.filter]; cases headerWritten s i <;> rfl
  | none =>
      cases openSlot s with
      | some i => simp [Option.filter]; cases headerWritten s i <;> rfl
      | none => rfl

theorem grantRest_grants (g : Geometry) (s : State) (hg : s.sdr.geo = some g) (hp : s.cwr.port = none)
    (hb : ∀ o p, readyUnit s = some o → readyBlock s = some p → s.cwr.blockFirst = blockEarlier s) :
    let x := (closedTransfer g s).or ((openingTransfer g s).or
      ((if s.cwr.run = 4 then readTransfer g s else none).or ((dataTransfer g s).or (readTransfer g s))))
    (grantRest s).cwr.port = x ∧ (grantRest s).cwr.run = runAfter s.cwr.run x ∧ (grantRest s).sdr = s.sdr := by
  have hd := grantData_grants g s hg hp hb
  have hr := grantRead_grants g s hg hp
  simp only [grantRest]
  cases hc : readyClosing s with
  | some i =>
      obtain ⟨e, he⟩ : ∃ e, entryAt s i = some e := by
        rw [readyClosing_eq] at hc
        exact closingSlot_entry (Option.filter_eq_some_iff.mp hc).1
      have k := beginHeader_rest (.closedHeader i (s.cwr.closeReason.getD .full)) i
        (fun g e => closedHeader g.regionId (reasonCode (s.cwr.closeReason.getD .full)) e) s
      have hx : closedTransfer g s = headerTransfer (.closedHeader i (s.cwr.closeReason.getD .full))
          (closedHeader g.regionId (reasonCode (s.cwr.closeReason.getD .full))) g i s := by
        simp only [closedTransfer, ← readyClosing_eq, hc, Option.bind_some]
      have hy : closedTransfer g s = some ⟨.closedHeader i (s.cwr.closeReason.getD .full), headerBlock g i, 1,
          closedHeader g.regionId (reasonCode (s.cwr.closeReason.getD .full)) e, 1, s.now⟩ := by
        simp [hx, headerTransfer, he]
      refine ⟨?_, ?_, k.2⟩
      · simp only [grantClosed, beginHeader_port _ _ _ g s hg hp]
        rw [hy, ← hx, hy]; rfl
      · rw [hy]; simpa [grantClosed, runAfter] using k.1
  | none =>
      have hx : closedTransfer g s = none := by simp only [closedTransfer, ← readyClosing_eq, hc, Option.bind_none]
      rw [hx, Option.none_or]
      cases ho : readyOpening s with
      | some i =>
          obtain ⟨e, he⟩ : ∃ e, entryAt s i = some e := by
            rw [readyOpening_eq] at ho
            have h1 := (Option.filter_eq_some_iff.mp ho).1
            cases h2 : closingSlot s with
            | none => rw [h2] at h1; exact openSlot_entry h1
            | some j => rw [h2] at h1; cases h1; exact closingSlot_entry h2
          have k := beginHeader_rest (.openingHeader i) i (fun g e => openHeader g.regionId e) s
          have hx : openingTransfer g s = headerTransfer (.openingHeader i) (openHeader g.regionId) g i s := by
            simp only [openingTransfer, ← readyOpening_eq, ho, Option.bind_some]
          have hy : openingTransfer g s = some ⟨.openingHeader i, headerBlock g i, 1, openHeader g.regionId e, 1, s.now⟩ := by
            simp [hx, headerTransfer, he]
          refine ⟨?_, ?_, k.2⟩
          · simp only [grantOpening, beginHeader_port _ _ _ g s hg hp]
            rw [hy, ← hx, hy]; rfl
          · rw [hy]; simpa [grantOpening, runAfter] using k.1
      | none =>
          have hx : openingTransfer g s = none := by simp only [openingTransfer, ← readyOpening_eq, ho, Option.bind_none]
          rw [hx, Option.none_or]
          by_cases h4 : s.cwr.run = 4
          · by_cases hw : readWaits s = true
            · simp only [hw, if_true] at hr
              obtain ⟨r, hr0⟩ : ∃ r, readTransfer g s = some r := by
                simp only [readWaits] at hw
                simp only [readTransfer]
                split at hw <;> simp_all
              simp only [h4, hw, beq_self_eq_true, Bool.and_self, if_true]
              rw [h4] at hr
              rw [hr0] at hr ⊢
              exact hr
            · have hr0 : readTransfer g s = none := by
                simp only [readWaits] at hw
                simp only [readTransfer]
                split at hw <;> simp_all
              rw [h4] at hd
              simpa [h4, hw, hr0] using hd
          · simpa [h4] using hd

/-- R125: on a free port the arbiter, finding `u`, grants what `ArbiterGrants` says. -/
theorem grantPort_grants (u : State) (hp : u.cwr.port = none) : ArbiterGrants u (grantPort (refreshOffers u)) := by
  intro g hg
  obtain ⟨w, hw⟩ : ∃ w, w = refreshOffers u := ⟨_, rfl⟩
  have hwq : w.sdr = u.sdr := by rw [hw]; rfl
  have hq := skipQueue_queue w.sdr.queue w rfl
  have hk := skipQueue_keeps w.sdr.queue w
  have hf := skipQueue_frame w.sdr.queue w
  rw [← hw]
  simp only [grantPort]
  obtain ⟨x, hx⟩ : ∃ x, x = skipQueue w.sdr.queue w := ⟨_, rfl⟩
  rw [← hx] at hq hk hf ⊢
  have hnw : needsUpdate w = needsUpdate u := by simp only [hw]; rfl
  have hxn : needsUpdate x = needsUpdate u := by rw [SlotsAlike.needsUpdate_eq hk.2.2.1, hnw]
  rw [hnw, hwq] at hq
  have hcw : x.cwr = w.cwr := by simp [hf]
  have hgeo : x.sdr.geo = some g := by simp [hf, hwq, hg]
  have hport : x.cwr.port = none := by rw [hcw, hw]; exact hp
  have hrun : x.cwr.run = u.cwr.run := by rw [hcw, hw]; rfl
  have hnow : x.now = u.now := by simp only [hf]; rw [hw]; rfl
  have hent : x.sdr.entries.map unqueued = u.sdr.entries.map unqueued := by rw [hk.2.2.1, hwq]
  have hnext : nextUpdate u = x.sdr.queue.head? := by rw [nextUpdate, find?_eq_head?_dropWhile, hq]
  have hafter : queueAfter u = x.sdr.queue.drop 1 := by rw [queueAfter, hq]
  cases hxq : x.sdr.queue with
  | cons i rest =>
      rw [hxq] at hnext hafter
      have hnu : needsUpdate u i = true := List.find?_some (p := needsUpdate u) hnext
      obtain ⟨e, he⟩ := needsUpdate_entry hnu
      have hg1 : grantOf g u = some ⟨.headerUpdate i, headerBlock g i, 1, updateHeader g e, 1, u.now⟩ := by
        simp [grantOf, hnext, headerTransfer, he]
      have hd := dequeue_frame i (x.sdr.queue.drop 1) x
      have hde : (dequeue i (x.sdr.queue.drop 1) x).sdr.entries.map unqueued = u.sdr.entries.map unqueued := by
        rw [(dequeue_keeps i _ x).2.2.1, hent]
      have k := beginHeader_rest (.headerUpdate i) i updateHeader (dequeue i (x.sdr.queue.drop 1) x)
      have hb := entryAt_congr hde (updateHeader g) (fun _ => rfl) i
      simp only [grantUpdate]
      refine ⟨?_, ?_, ?_⟩
      · rw [beginHeader_port _ _ _ g _ (by simp [hgeo]) (by simp [hport]), hg1]
        simp only [he, Option.map_some] at hb
        cases h1 : entryAt (dequeue i (x.sdr.queue.drop 1) x) i with
        | none => rw [h1] at hb; cases hb
        | some e' =>
            rw [h1] at hb
            simp only [Option.map_some, Option.some.injEq] at hb
            rw [headerTransfer, h1, Option.map_some, hb]
            simp [hnow]
      · rw [k.1, hg1]; simp [hrun, runAfter]
      · rw [k.2, hafter]
        simp [dequeue, hxq]
  | nil =>
      rw [hxq] at hnext hafter
      have hsee : SlotsAlike x u :=
        ⟨hent, by simp only [hf]; rw [hw]; rfl, hrun, by rw [hcw, hw]; rfl, by simp only [hf]; rw [hw]; rfl, hnow⟩
      have hfirst : ∀ o p, readyUnit x = some o → readyBlock x = some p →
          x.cwr.blockFirst = blockEarlier u ∧ x.cwr.blockFirst = blockEarlier x := by
        intro o p ho hb
        have h1 : (offeredUnit u).isSome = true := by
          rw [hsee.readyUnit_eq] at ho
          simp [(Option.filter_eq_some_iff.mp ho).1]
        have h2 : (offeredBlock u).isSome = true := by
          rw [hsee.readyBlock_eq] at hb
          simp [(Option.filter_eq_some_iff.mp hb).1]
        rw [blockEarlier, blockEarlier, hcw, hw]
        simp [refreshOffers, h1, h2]
      have hrest := grantRest_grants g x hgeo hport fun o p ho hb => (hfirst o p ho hb).2
      have hdata : dataTransfer g x = dataTransfer g u := hsee.dataTransfer_eq g fun o p ho hb => by
        rw [← hsee.readyUnit_eq] at ho
        rw [← hsee.readyBlock_eq] at hb
        rw [← (hfirst o p ho hb).1, (hfirst o p ho hb).2]
      rw [hsee.closedTransfer_eq, hsee.openingTransfer_eq, hsee.readTransfer_eq, hdata, hrun] at hrest
      have hg1 : grantOf g u = (closedTransfer g u).or ((openingTransfer g u).or
          ((if u.cwr.run = 4 then readTransfer g u else none).or ((dataTransfer g u).or (readTransfer g u)))) := by
        simp [grantOf, hnext]
      rw [hg1, hafter]
      exact ⟨hrest.1, hrest.2.1, (congrArg Sdr.queue hrest.2.2).trans hxq⟩

/-- Under `PortLaw`, on the free port of a writer in whose states the arbiter works, `settle` grants as `ArbiterGrants`
says: `v` is a state with the queue, the run count and the record of what is offered of `s`, and `t` one with the card
side, part time and held request of what `settle` leaves. -/
theorem settle_grants {s v t : State} (h : PortLaw s) (hp : s.cwr.port = none) (ha : arbitrating s.cwr.writer = true)
    (hq : v.sdr.queue = s.sdr.queue) (hr : v.cwr.run = s.cwr.run) (hu : v.cwr.offUnit = s.cwr.offUnit)
    (hb : v.cwr.offBlock = s.cwr.offBlock) (hf : v.cwr.blockFirst = s.cwr.blockFirst)
    (hw : t.cwr = (settle s).cwr) (hd : t.sdr = (settle s).sdr) (hc : t.cbf = (settle s).cbf)
    (hn : t.now = (settle s).now) (hl : t.lnk.req = (settle s).lnk.req) :
    ArbiterGrants (beforeGrant v t) t := by
  obtain ⟨k1, k2, k3, k4⟩ := (settle_keeps h).1
  have k5 : (settle s).lnk = s.lnk := (settle_keeps h).2.2.2.2
  have e : settle s = grantPort (refreshOffers s) := by simp [settle_eq h, hp, ha]
  have hs : ArbiterSees s (beforeGrant v t) := by
    refine ⟨⟨?_, ?_, ?_, ?_, ?_, ?_⟩, hq.symm, hu.symm, hb.symm, hf.symm⟩ <;> simp only [beforeGrant]
    · rw [hd]; exact k3.symm
    · rw [hc]; exact k1.symm
    · exact hr.symm
    · rw [hw, k4]
    · rw [hl, k5]
    · rw [hn]; simp
  have hgeo : s.sdr.geo = (beforeGrant v t).sdr.geo := by simp only [beforeGrant]; rw [hd, k2]
  intro g h1
  have := (grantPort_grants s hp).congr hs hgeo g h1
  rw [← e] at this
  rwa [hw, hd]

end Sys2Proof.Machine
end

