-- ==== Sys2Proof/Laws/Contexts.lean ====
section
/-! SUPPORT. What a commit of a switch can do (R46 to R48), said once. -/

set_option linter.unusedSimpArgs false

namespace Sys2Proof.Machine

/-- R22, R25: a commit outside RUNNING forces every held step to 0. -/
theorem recommitSteps_standing (f : CtxFields) (s : State) (h : s.msu.stab ≠ .running) :
    recommitSteps f s = zeroSteps s := by
  simp [recommitSteps, recommitChan, forcedZero, zeroSteps, h]

/-- R47: the path a commit loads. -/
theorem clampPaths_loadedPath (x : Context) (a : PerAxis Int) :
    clampPaths x.fields.limit a (loadedPath x.saved a) = pathTaken x a := by
  simp only [clampPaths, loadedPath, pathTaken]
  cases x.saved <;> rfl

/-- R47: the clamp is reported exactly where it changes the path. -/
theorem pathClamped_eq (limit : Nat) (a p : Int) : pathClamped limit a p = (clampPath limit a p != p) := by
  simp only [pathClamped, clampPath]
  rw [Bool.eq_iff_iff]
  simp
  split
  · simp_all; omega
  · split <;> simp_all; omega

/-- R47: the axes on which the loaded path is clamped. -/
theorem clampsOf_loadedPath (x : Context) (a : PerAxis Int) :
    clampsOf x.fields.limit a (loadedPath x.saved a) = pathHeld x a := by
  have := clampPaths_loadedPath x a
  simp only [clampsOf, pathClamped_eq]
  simp only [clampPaths] at this
  have h1 := congrArg PerAxis.yaw this
  have h2 := congrArg PerAxis.pitch this
  have h3 := congrArg PerAxis.roll this
  simp only at h1 h2 h3
  rw [h1, h2, h3]
  simp only [pathHeld, loadedPath]
  cases x.saved <;> simp [pathNear, axisMap2, nearestTurn]

/-- R46: all that the commit point does. -/
theorem commitPoint_spec (i : CtxIx) (ret : Bool) (p : PerAxis Int) (c : Ctx) (hi : c.active ≠ some i) :
    (commitPoint i ret p c).active = some i ∧ (commitPoint i ret p c).pendingSwitch = none ∧
      ∀ j, ctxGet (commitPoint i ret p c) j =
          { ctxGet c j with
            saved := if c.active = some j then some p else (ctxGet c j).saved
            link := if ret = true ∧ c.active = some j then none
              else if j = i then c.active else (ctxGet c j).link } := by
  rcases c with ⟨t0, t1, t2, t3, a, w⟩
  refine ⟨?_, ?_, ?_⟩
  · simp only [commitPoint]
  · simp only [commitPoint]
  · intro j
    rcases a with _ | a
    · cases i <;> cases j <;> simp [commitPoint, ctxGet, ctxSet]
    · cases i <;> cases a <;> (try exact absurd rfl hi) <;> cases j <;> cases ret <;> simp [commitPoint, ctxGet, ctxSet]

/-- R46 to R48: all that a commit outside RUNNING does. -/
theorem commit_standing (i : CtxIx) (ret : Bool) (s : State) (h : s.msu.stab ≠ .running) :
    commit i ret s = { s with
      ctx := commitPoint i ret s.msu.path s.ctx
      msu := { s.msu with
        path := pathTaken (ctxGet s.ctx i) s.msu.angle
        stab := if s.msu.stab = .standby ∧ s.msu.fault = false then .running else s.msu.stab }
      csu := { s.csu with
        step := ⟨0, 0, 0⟩
        absorbed := ⟨0, 0, 0⟩
        carried := if s.msu.stab = .off then s.csu.carried else
          carriedUnion s.csu.carried
            { Carried.empty with pathClamp := pathHeld (ctxGet s.ctx i) s.msu.angle, ctxSwitch := true } }
      adu := ⟨handStep 0 s.adu.sx, handStep 0 s.adu.sy, handStep 0 s.adu.rt⟩
      lnk := raiseIn s.lnk (.switched i s.ctx.active ret s.csu.frame s.now) } := by
  simp only [commit, clampPaths_loadedPath, clampsOf_loadedPath]
  rw [recommitSteps_standing _ _ (by simpa using h)]
  simp only [zeroSteps, zeroStep, setStep, chanSet, chanGet, carry, runIfHealthy, raise]
  by_cases ho : s.msu.stab = .off
  · simp [ho]
  · by_cases hs : s.msu.stab = .standby ∧ s.msu.fault = false
    · simp [hs, ho, clampsOf_loadedPath]
    · simp [ho, hs, clampsOf_loadedPath]

end Sys2Proof.Machine
end

