-- ==== Sys2Proof/Laws/Drive.lean ====
section
/-! SUPPORT. What the actuator drive's shared operations do, channel by channel: joining and leaving a park-reason set,
moving a channel, handing a step. -/

namespace Sys2Proof.Machine

set_option linter.unusedSimpArgs false

theorem chanGet_chanSet {α : Type} (t : PerChan α) (c d : Chan) (x : α) :
    chanGet (chanSet t c x) d = if d = c then x else chanGet t d := by
  cases c <;> cases d <;> simp [chanGet, chanSet]

@[simp] theorem chanGet_chanSet_self {α : Type} (t : PerChan α) (c : Chan) (x : α) :
    chanGet (chanSet t c x) c = x := by simp [chanGet_chanSet]

/-- Two triples that agree on every channel are equal. -/
theorem perChan_ext {α : Type} {t u : PerChan α} (h : ∀ c, chanGet t c = chanGet u c) : t = u := by
  have h1 := h .sx
  have h2 := h .sy
  have h3 := h .rt
  simp only [chanGet] at h1 h2 h3
  cases t; cases u; simp_all

/-- A handed step waits on a channel that can drive it, and nowhere else. -/
theorem handStep_eq (v : Int) (ch : Channel) :
    handStep v ch = if ch.st = .active ∨ ch.st = .parked then { ch with waiting := some v } else ch := rfl

/-- A channel moved to another state: its own record, the step it loses when it leaves ACTIVE. -/
theorem moveChannel_spec (c : Chan) (ch : Channel) (s : State) :
    ∃ st ab, moveChannel c ch s =
        { s with adu := (moveChannel c ch s).adu, csu := { s.csu with step := st, absorbed := ab } } ∧
      (∀ d, chanGet (moveChannel c ch s).adu d =
        if d = c then
          if (chanGet s.adu c).st = .active ∧ ch.st ≠ .active then handStep 0 ch else ch
        else chanGet s.adu d) ∧
      (∀ d, chanGet st d =
        if d = c ∧ (chanGet s.adu c).st = .active ∧ ch.st ≠ .active then 0 else chanGet s.csu.step d) ∧
      (∀ d, chanGet ab d =
        if d = c ∧ (chanGet s.adu c).st = .active ∧ ch.st ≠ .active then 0 else chanGet s.csu.absorbed d) := by
  by_cases h : (chanGet s.adu c).st = .active ∧ ch.st ≠ .active
  · have he : moveChannel c ch s = zeroStep c (putChan c ch s) := if_pos h
    refine ⟨chanSet s.csu.step c 0, chanSet s.csu.absorbed c 0, ?_, ?_, ?_, ?_⟩
    · rw [he]; rfl
    · intro d
      rw [he]
      simp only [zeroStep, setStep, putChan, chanGet_chanSet, if_pos h, if_true]
      split <;> rfl
    · intro d; by_cases hd : d = c <;> simp [chanGet_chanSet, h, hd]
    · intro d; by_cases hd : d = c <;> simp [chanGet_chanSet, h, hd]
  · refine ⟨s.csu.step, s.csu.absorbed, ?_, ?_, ?_, ?_⟩
    · simp only [moveChannel, if_neg h, putChan]
    · intro d
      simp only [moveChannel, if_neg h, putChan, chanGet_chanSet]
    · intro d; simp [h]
    · intro d; simp [h]

/-- R61, one channel: what `addPark` does, all of it. -/
theorem addPark_spec (r : ParkReason) (c : Chan) (s : State) :
    ∃ st ab, addPark r c s =
        { s with adu := (addPark r c s).adu, csu := { s.csu with step := st, absorbed := ab } } ∧
      (∀ d, chanGet (addPark r c s).adu d = if d = c then parkedBy r (chanGet s.adu d) else chanGet s.adu d) ∧
      (∀ d, chanGet st d = if d = c ∧ (chanGet s.adu d).st = .active then 0 else chanGet s.csu.step d) ∧
      (∀ d, chanGet ab d = if d = c ∧ (chanGet s.adu d).st = .active then 0 else chanGet s.csu.absorbed d) := by
  by_cases h : (chanGet s.adu c).st = .active
  · obtain ⟨st, ab, h1, h2, h3, h4⟩ := moveChannel_spec c
      { chanGet s.adu c with
        park := parkPut (chanGet s.adu c).park r true
        st := .parked
        waiting := none
        finalPeriod := true
        cleanStart := none } s
    have he : addPark r c s = moveChannel c
        { chanGet s.adu c with
          park := parkPut (chanGet s.adu c).park r true
          st := .parked
          waiting := none
          finalPeriod := true
          cleanStart := none } s := by simp [addPark, h]
    rw [he]
    refine ⟨st, ab, h1, ?_, ?_, ?_⟩
    · intro d
      rw [h2]
      by_cases hd : d = c
      · subst hd
        simp [h, parkedBy, handStep]
      · simp [hd]
    · intro d
      rw [h3]
      by_cases hd : d = c
      · subst hd; simp [h]
      · simp [hd]
    · intro d
      rw [h4]
      by_cases hd : d = c
      · subst hd; simp [h]
      · simp [hd]
  · refine ⟨s.csu.step, s.csu.absorbed, ?_, ?_, ?_, ?_⟩
    · simp [addPark, h, putChan]
    · intro d
      by_cases hd : d = c
      · subst hd
        simp [addPark, h, putChan, chanGet_chanSet, parkedBy]
      · simp [addPark, h, putChan, chanGet_chanSet, hd]
    · intro d
      by_cases hd : d = c
      · subst hd; simp [h]
      · simp [hd]
    · intro d
      by_cases hd : d = c
      · subst hd; simp [h]
      · simp [hd]

/-- R61 on the three channels: all that `addParkAll` does. -/
theorem addParkAll_spec (r : ParkReason) (s : State) :
    ∃ st ab, addParkAll r s =
        { s with adu := (addParkAll r s).adu, csu := { s.csu with step := st, absorbed := ab } } ∧
      (∀ c, chanGet (addParkAll r s).adu c = parkedBy r (chanGet s.adu c)) ∧
      (∀ c, chanGet st c = if (chanGet s.adu c).st = .active then 0 else chanGet s.csu.step c) ∧
      (∀ c, chanGet ab c = if (chanGet s.adu c).st = .active then 0 else chanGet s.csu.absorbed c) := by
  obtain ⟨st1, ab1, h1, h2, h3, h4⟩ := addPark_spec r .sx s
  obtain ⟨st2, ab2, k1, k2, k3, k4⟩ := addPark_spec r .sy (addPark r .sx s)
  obtain ⟨st3, ab3, l1, l2, l3, l4⟩ := addPark_spec r .rt (addPark r .sy (addPark r .sx s))
  have e1 : (addPark r .sx s).csu = { s.csu with step := st1, absorbed := ab1 } := by rw [h1]
  have e2 : (addPark r .sy (addPark r .sx s)).csu = { s.csu with step := st2, absorbed := ab2 } := by rw [k1, e1]
  refine ⟨st3, ab3, ?_, ?_, ?_, ?_⟩
  · simp only [addParkAll]
    rw [l1, k1, h1]
  · intro c
    simp only [addParkAll]
    cases c
    · rw [l2, if_neg (by decide), k2, if_neg (by decide), h2, if_pos rfl]
    · rw [l2, if_neg (by decide), k2, if_pos rfl, h2, if_neg (by decide)]
    · rw [l2, if_pos rfl, k2, if_neg (by decide), h2, if_neg (by decide)]
  · intro c
    cases c
    · rw [l3, if_neg (by simp), e2]
      simp only
      rw [k3, if_neg (by simp), e1]
      simp only
      rw [h3]; simp
    · rw [l3, if_neg (by simp), e2]
      simp only
      rw [k3, e1, h2, if_neg (by decide : ¬ (Chan.sy = Chan.sx))]
      simp only
      rw [h3]; simp
    · rw [l3, e2, k2, if_neg (by decide : ¬ (Chan.rt = Chan.sy)), h2, if_neg (by decide : ¬ (Chan.rt = Chan.sx))]
      simp only
      rw [k3, e1]
      simp only
      rw [h3]; simp
  · intro c
    cases c
    · rw [l4, if_neg (by simp), e2]
      simp only
      rw [k4, if_neg (by simp), e1]
      simp only
      rw [h4]; simp
    · rw [l4, if_neg (by simp), e2]
      simp only
      rw [k4, e1, h2, if_neg (by decide : ¬ (Chan.sy = Chan.sx))]
      simp only
      rw [h4]; simp
    · rw [l4, e2, k2, if_neg (by decide : ¬ (Chan.rt = Chan.sy)), h2, if_neg (by decide : ¬ (Chan.rt = Chan.sx))]
      simp only
      rw [k4, e1]
      simp only
      rw [h4]; simp

/-- R62, one channel: all that `removePark` does. -/
theorem removePark_spec (r : ParkReason) (c : Chan) (s : State) :
    removePark r c s = { s with adu := (removePark r c s).adu } ∧
      ∀ d, chanGet (removePark r c s).adu d =
        if d = c then unparkedBy r s.now (chanGet s.adu d) else chanGet s.adu d := by
  by_cases h : (chanGet s.adu c).st = .parked ∧ parkHas (chanGet s.adu c).park r = true ∧
      parkEmpty (parkPut (chanGet s.adu c).park r false) = true
  · refine ⟨by simp [removePark, h, putChan], ?_⟩
    intro d
    by_cases hd : d = c
    · subst hd
      simp [removePark, h, putChan, unparkedBy, activateChannel]
    · simp [removePark, h, putChan, chanGet_chanSet, hd]
  · refine ⟨by simp [removePark, h, putChan], ?_⟩
    intro d
    by_cases hd : d = c
    · subst hd
      simp only [removePark, if_neg h, putChan, chanGet_chanSet, if_true, unparkedBy]
    · simp only [removePark, if_neg h, putChan, chanGet_chanSet, if_neg hd]

/-- R62 on the three channels: all that `removeParkAll` does. -/
theorem removeParkAll_spec (r : ParkReason) (s : State) :
    removeParkAll r s = { s with adu := (removeParkAll r s).adu } ∧
      ∀ c, chanGet (removeParkAll r s).adu c = unparkedBy r s.now (chanGet s.adu c) := by
  obtain ⟨h1, h2⟩ := removePark_spec r .sx s
  obtain ⟨k1, k2⟩ := removePark_spec r .sy (removePark r .sx s)
  obtain ⟨l1, l2⟩ := removePark_spec r .rt (removePark r .sy (removePark r .sx s))
  have n1 : (removePark r .sx s).now = s.now := by rw [h1]
  have n2 : (removePark r .sy (removePark r .sx s)).now = s.now := by rw [k1, n1]
  refine ⟨?_, ?_⟩
  · simp only [removeParkAll]
    rw [l1, k1, h1]
  · intro c
    simp only [removeParkAll]
    cases c
    · rw [l2, if_neg (by decide), k2, if_neg (by decide), h2, if_pos rfl]
    · rw [l2, if_neg (by decide), k2, if_pos rfl, h2, if_neg (by decide), n1]
    · rw [l2, if_pos rfl, k2, if_neg (by decide), h2, if_neg (by decide), n2]

end Sys2Proof.Machine
end

