-- ==== Sys2Proof/Laws/Guard.lean ====
section
/-! SUPPORT. What asking for a stop (R131) and a guard trip (R196) can do, each said once. -/

set_option linter.unusedSimpArgs false

namespace Sys2Proof.Machine

/-- R131: all that asking for a stop does. -/
theorem askStop_spec (reason : CloseReason) (s : State) :
    (∀ i, s.cwr.writer = .recording → openSlot s = some i →
      askStop reason s = { s with
        sdr := { s.sdr with entries := rewritten i (fun e => { e with st := .closing }) s.sdr.entries, mark := none }
        cwr := { s.cwr with writer := .stopping, closeReason := some reason } }) ∧
      (s.cwr.writer = .recording → openSlot s = none → askStop reason s = s) ∧
      (s.cwr.writer = .rolling →
        askStop reason s = { s with cwr := { s.cwr with stopMark := some (s.cwr.stopMark.getD reason) } }) ∧
      (s.cwr.writer ≠ .recording → s.cwr.writer ≠ .rolling → askStop reason s = s) := by
  refine ⟨?_, ?_, ?_, ?_⟩
  · intro i hw ho
    have hm := modEntry_rewritten i (fun e => { e with st := .closing }) s
    have hs : modEntry i (fun e => { e with st := SlotState.closing }) s =
        { s with sdr := { s.sdr with entries := rewritten i (fun e => { e with st := .closing }) s.sdr.entries } } := by
      rw [← hm]; simp only [modEntry]; split <;> rfl
    simp only [askStop, hw, ho, setSlotState, hs, setWriter]
    simp
  · intro hw ho; simp only [askStop, hw, ho]
  · intro hw; simp only [askStop, hw]
  · intro h1 h2; simp only [askStop]

/-- What asking for a stop leaves alone. -/
theorem askStop_keeps (reason : CloseReason) (s : State) :
    (askStop reason s).cbf = s.cbf ∧ (askStop reason s).sdr.queue = s.sdr.queue ∧
      (askStop reason s).sdr.geo = s.sdr.geo ∧ (askStop reason s).cwr.port = s.cwr.port ∧
      (askStop reason s).cwr.run = s.cwr.run ∧ (askStop reason s).cwr.offUnit = s.cwr.offUnit ∧
      (askStop reason s).cwr.offBlock = s.cwr.offBlock ∧ (askStop reason s).cwr.blockFirst = s.cwr.blockFirst ∧
      arbitrating (askStop reason s).cwr.writer = arbitrating s.cwr.writer ∧
      ((askStop reason s).cwr.writer = .emergencyClose ↔ s.cwr.writer = .emergencyClose) ∧
      ((askStop reason s).cwr.writer = .ready ↔ s.cwr.writer = .ready) := by
  obtain ⟨h1, h2, h3, h4⟩ := askStop_spec reason s
  by_cases hr : s.cwr.writer = .recording
  · cases ho : openSlot s with
    | some i => rw [h1 i hr ho]; simp [hr, arbitrating]
    | none => rw [h2 hr ho]; simp
  · by_cases hl : s.cwr.writer = .rolling
    · rw [h3 hl]; simp
    · rw [h4 hr hl]; simp

/-- Asking for a stop keeps `PortLaw`. -/
theorem askStop_portLaw (reason : CloseReason) {s u v : State} (h : PortLaw s) (hd : u.sdr = s.sdr) (hw : u.cwr = s.cwr)
    (hl : u.lnk.req = s.lnk.req) {l : Lnk} (hr : l.req = u.lnk.req) (hv : v = { askStop reason u with lnk := l }) :
    PortLaw v := by
  obtain ⟨k1, k2, k3, k4, k5, k6, k7, k8, k9, k10, k11⟩ := askStop_keeps reason u
  refine ⟨?_, ?_⟩
  · intro he
    have : s.cwr.writer = .emergencyClose := by rw [← hw]; exact k10.mp (by rw [hv] at he; exact he)
    rw [hv]; simp only [k4, hw]; exact h.1 this
  · intro tag ht
    have ht' : s.lnk.req = some (.unmount tag) := by rw [← hl, ← hr]; rw [hv] at ht; exact ht
    obtain ⟨p1, p2, p3⟩ := h.2 tag ht'
    have hh : headerUnderWay v = headerUnderWay s := by rw [hv]; simp only [headerUnderWay, k4, hw]
    rw [hh]
    rw [hv]
    simp only [k4, k2, hw, hd]
    exact ⟨k11.mpr (by rw [hw]; exact p1), p2, p3⟩

/-- R125, R131: a stop asked for and then the port settled, on a state `u` with the card side and the held request of
`s`. -/
theorem askStop_settle_asked (reason : CloseReason) {s u t : State} (h : PortLaw s) (hb : u.cbf = s.cbf) (hd : u.sdr = s.sdr)
    (hw : u.cwr = s.cwr) (hl : u.lnk.req = s.lnk.req) (l : Lnk) (hr : l.req = u.lnk.req)
    (ht : t = settle { askStop reason u with lnk := l }) : StopAsked reason s t := by
  obtain ⟨v, hv⟩ : ∃ v, v = { askStop reason u with lnk := l } := ⟨_, rfl⟩
  rw [← hv] at ht
  obtain ⟨k1, k2, k3, k4, k5, k6, k7, k8, k9, k10, k11⟩ := askStop_keeps reason u
  have hp := askStop_portLaw reason h hd hw hl hr hv
  have hk := (settle_keeps hp).1
  have ho : openSlot u = openSlot s := by simp only [openSlot, hd]
  obtain ⟨s1, s2, s3, s4⟩ := askStop_spec reason u
  rw [← ht] at hk
  have key : ∀ x : State, x.cbf = v.cbf → x.sdr = v.sdr → x.cwr = v.cwr → KeepsCardButPort x t := by
    intro x e1 e2 e3
    obtain ⟨m1, m2, m3, m4⟩ := hk
    exact ⟨by rw [m1, e1], by rw [m2, e2], by rw [m3, e2], by rw [m4, e3]⟩
  refine ⟨?_, ?_, ?_, ?_, ?_⟩
  · intro i h1 h2
    have e := s1 i (by rw [hw]; exact h1) (by rw [ho]; exact h2)
    apply key <;> rw [hv, e] <;> simp [hb, hd, hw]
  · intro h1
    have e := s3 (by rw [hw]; exact h1)
    apply key <;> rw [hv, e] <;> simp [hb, hd, hw]
  · intro h1 h2
    have e := s4 (by rw [hw]; exact h1) (by rw [hw]; exact h2)
    apply key <;> rw [hv, e] <;> simp [hb, hd, hw]
  · intro hn
    have : (v.cwr.port.isNone && arbitrating v.cwr.writer) = false := by
      rw [hv]
      simp only [k4, k9, hw]
      rcases hn with hn | hn
      · cases hq : s.cwr.port <;> simp_all
      · simp [hn]
    rw [settle_eq hp, this] at ht
    simp only [Bool.false_eq_true, if_false] at ht
    rw [ht, hv]
    exact ⟨by simp [refreshOffers, k4, hw], by simp [refreshOffers, k5, hw], by simp [refreshOffers, k2, hd]⟩
  · intro h1 h2
    have hs := @settle_grants v s t hp (by rw [hv]; simp [k4, hw, h1]) (by rw [hv]; simp [k9, hw, h2])
      (by rw [hv]; simp [k2, hd]) (by rw [hv]; simp [k5, hw]) (by rw [hv]; simp [k6, hw]) (by rw [hv]; simp [k7, hw])
      (by rw [hv]; simp [k8, hw]) (by rw [ht]) (by rw [ht]) (by rw [ht]) (by rw [ht]) (by rw [ht])
    exact hs

/-- R196: a guard trip, all of it. -/
theorem tripGuard_trips (cause : Trip) {s : State} (h : PortLaw s) :
    GuardTrips cause s (tripGuard cause s) ∧ (tripGuard cause s).lnk.reply = s.lnk.reply ∧
      KeepsPower s (tripGuard cause s) := by
  obtain ⟨u, hu⟩ : ∃ u, u = addParkAll .guard (setGuard .tripped (some cause) none s) := ⟨_, rfl⟩
  obtain ⟨st, ab, h1, h2, h3, h4⟩ := addParkAll_spec .guard (setGuard .tripped (some cause) none s)
  rw [← hu] at h1 h2
  have hn : u.now = s.now := by rw [h1]; rfl
  have hw : u.cwr = s.cwr := by rw [h1]; rfl
  have hd : u.sdr = s.sdr := by rw [h1]; rfl
  have hb : u.cbf = s.cbf := by rw [h1]; rfl
  have hp : KeepsPower s u := by rw [h1]; exact ⟨rfl, rfl, rfl, rfl⟩
  have hc : u.csu = { s.csu with step := st, absorbed := ab } := by rw [h1]; rfl
  have hl : u.lnk = { s.lnk with guard := .tripped, trip := some cause, guardEnd := none } := by rw [h1]; rfl
  obtain ⟨d, hd'⟩ : ∃ d, d = Detail.guardTripped cause s.cwr.writer (stopTaken s.cwr.writer) s.now := ⟨_, rfl⟩
  obtain ⟨v, hv⟩ : ∃ v, v = { askStop .guard u with lnk := raiseIn u.lnk d } := ⟨_, rfl⟩
  have e : tripGuard cause s = settle v := by
    simp only [tripGuard, ← hu, raise, hv, hd']
    simp [hn]
  have hq : (raiseIn u.lnk d).req = u.lnk.req := by simp
  have hreq : u.lnk.req = s.lnk.req := by rw [hl]
  have hs := askStop_settle_asked .guard h hb hd hw hreq _ hq (e.trans (by rw [hv]))
  have hv' := askStop_portLaw .guard h hd hw hreq hq hv
  obtain ⟨m1, m2, m3, m4, m5⟩ := settle_keeps hv'
  have mf := settle_frame v
  have ha := askStop_frame .guard u
  have hvl : v.lnk = raiseIn u.lnk d := by rw [hv]
  have hvc : v.csu = u.csu := by rw [hv]; simp
  have hva : v.adu = u.adu := by rw [hv]; simp
  have hvp : KeepsPower u v := by rw [hv]; simp [KeepsPower]
  have hmc : (settle v).csu = v.csu := by simp
  have hmp : KeepsPower v (settle v) := ⟨by simp, by simp, m3, m4⟩
  have hev : (raiseIn u.lnk d) = { s.lnk with
      guard := .tripped
      trip := some cause
      guardEnd := none
      events := eventsWith d s } := by
    rw [hl]; simp only [raiseIn, eventsWith]; split <;> rfl
  rw [e] at hs ⊢
  refine ⟨⟨?_, ?_, ?_, hs⟩, ?_, ?_⟩
  · rw [m5, hvl, hev, hd']; rfl
  · rw [hmc, hvc, hc]
  · intro c
    rw [m2, hva, hmc, hvc, hc]
    refine ⟨h2 c, ?_, ?_⟩
    · intro k; exact ⟨by rw [h3]; exact if_pos k, by rw [h4]; exact if_pos k⟩
    · intro k; exact ⟨by rw [h3]; exact if_neg k, by rw [h4]; exact if_neg k⟩
  · rw [m5, hvl, hev]
  · obtain ⟨a1, a2, a3, a4⟩ := hp
    obtain ⟨b1, b2, b3, b4⟩ := hvp
    obtain ⟨c1, c2, c3, c4⟩ := hmp
    exact ⟨by rw [c1, b1, a1], by rw [c2, b2, a2], by rw [c3, b3, a3], by rw [c4, b4, a4]⟩
end Sys2Proof.Machine
end

