-- ==== Sys2Proof/Laws/Header.lean ====
section
/-! SUPPORT. What every header block the part writes carries: its length, and the check that R205 asks for. -/

namespace Sys2Proof.Machine

/-- R205: a header block is 512 bytes. -/
theorem sealHeader_length (body : List Byte) (h : body.length ≤ 508) : (sealHeader body).length = 512 := by
  simp only [sealHeader, u32, List.length_append, List.length_replicate, List.length_cons, List.length_nil]
  omega

/-- R205: the word at offset 508 of a header block is the CRC-32 of its first 508 bytes. -/
theorem sealHeader_check (body : List Byte) (h : body.length ≤ 508) :
    let byte (k : Nat) : Nat := ((sealHeader body)[k]?.getD 0#8).toNat
    (crc32 ((sealHeader body).take 508)).toNat =
      byte 508 + 256 * byte 509 + 65536 * (byte 510 + 256 * byte 511) := by
  have hl : (body ++ List.replicate (508 - body.length) 0#8).length = 508 := by
    rw [List.length_append, List.length_replicate]; omega
  intro byte
  have at_ (k : Nat) (hk : k < 4) : byte (508 + k) =
      ((u32 (crc32 (body ++ List.replicate (508 - body.length) 0#8)).toNat)[k]?.getD 0#8).toNat := by
    simp only [byte, sealHeader]
    rw [List.getElem?_append_right (by omega), hl, Nat.add_sub_cancel_left]
  have ht : (sealHeader body).take 508 = body ++ List.replicate (508 - body.length) 0#8 := List.take_left' hl
  rw [ht, at_ 0 (by decide), at_ 1 (by decide), at_ 2 (by decide), at_ 3 (by decide)]
  have := (crc32 (body ++ List.replicate (508 - body.length) 0#8)).isLt
  generalize (crc32 (body ++ List.replicate (508 - body.length) 0#8)).toNat = n at *
  simp only [u32, List.getElem?_cons_zero, List.getElem?_cons_succ, Option.getD_some, BitVec.toNat_ofNat]
  omega

/-- The fields of a header end at offset 44. -/
theorem entryHeader_seals (regionId : Word) (code reason : Nat) (e : Entry) :
    ∃ body, body.length = 44 ∧ entryHeader regionId code reason e = sealHeader body := ⟨_, rfl, rfl⟩

end Sys2Proof.Machine
end

