-- ==== Sys2Proof/Laws/Supply.lean ====
section
/-! SUPPORT. What the return to NORMAL (R167, R168) and the start of an emergency close (R173) can do, said once. -/

set_option linter.unusedSimpArgs false

namespace Sys2Proof.Machine

/-- R167, R168: all that the return to NORMAL does. -/
theorem toNormal_spec (kind : SupplyKind) (s : State) :
    let t := toNormal kind s
    t = { s with
      ssv := { s.ssv with st := .normal, timerEnd := none }
      chg := { s.chg with pause := { s.chg.pause with supply := false } }
      adu := t.adu
      lnk := { s.lnk with
        events := eventsWith (.supply kind s.ssv.st .normal s.scn.vSys.latest s.now false 0) s } } ∧
      ∀ c, chanGet t.adu c = unparkedBy .supply s.now (chanGet s.adu c) := by
  simp only [toNormal, removeSupply]
  obtain ⟨h1, h2⟩ := removeParkAll_spec .supply { s with ssv := { s.ssv with st := .normal, timerEnd := none } }
  generalize removeParkAll .supply { s with ssv := { s.ssv with st := .normal, timerEnd := none } } = u at h1 h2
  have hp : pauseSupply false u = { u with chg := { u.chg with pause := { u.chg.pause with supply := false } } } := by
    simp [pauseSupply, setPause, pauseAdds]
  rw [hp]
  constructor
  · conv_lhs => rw [h1]
    simp [supplyEvent, raise, eventsWith, raiseIn]
    split <;> rfl
  · intro c
    simp [supplyEvent, raise]
    exact h2 c

/-- R173: what the start of an emergency close makes of the supervisor and the writer. -/
theorem startClose_begins (u : State) :
    (startClose u).ssv = { u.ssv with close := some ⟨u.ssv.budget, u.ssv.budget, .inherited,
      (closingSlot u).toList ++ (openSlot u).toList, false⟩ } ∧
      (startClose u).cwr.writer = .emergencyClose ∧ (u.cwr.port ≠ none → (startClose u).cwr.port ≠ none) := by
  have k : (endMotionRead .state u).ssv = u.ssv ∧ (endMotionRead .state u).sdr = u.sdr ∧
      (u.cwr.port ≠ none → (endMotionRead .state u).cwr.port ≠ none) := by
    simp only [endMotionRead]
    refine ⟨?_, ?_, ?_⟩
    · (repeat' split) <;> rfl
    · (repeat' split) <;> rfl
    · intro hu
      (repeat' split) <;> first | exact hu | simp
  obtain ⟨k1, k2, k3⟩ := k
  simp only [startClose]
  generalize endMotionRead .state u = v at *
  have hc : closeList v = (closingSlot u).toList ++ (openSlot u).toList := by
    have e1 : closingSlot u = closingSlot v := by simp [closingSlot, k2]
    have e2 : openSlot u = openSlot v := by simp [openSlot, k2]
    rw [e1, e2]
    simp only [closeList]
    (repeat' split) <;> simp_all
  refine ⟨?_, ?_, ?_⟩
  · rw [hc]
    simp [k1]
  · simp
  · intro hu
    have := k3 hu
    simpa using this

end Sys2Proof.Machine
end

