-- ==== Sys2Proof/Tests/Slice0.lean ====
section
/-! SUPPORT. The model's own tests: ill-formed commands are refused by `wellFormed`; one command each on a small state,
the expected values taken from the spec or worked out from it by hand; and, for every statement with hypotheses, a
state and operands that meet them, clause by clause. -/

namespace Sys2Proof.Tests
open Sys2Proof Sys2Proof.Machine

/-! ## Helpers -/

/-- What `f` reads from the state a command leads to; none when it stops. -/
def after {α : Type} (c : Instr) (s : State) (f : State → α) : Option α :=
  match exec c s with
  | .next t => some (f t)
  | _ => none

/-- The reply's kind, status and data after a command. -/
def replied (c : Instr) (s : State) : Option (Option (Byte × Status × List Byte)) :=
  after c s fun t => t.lnk.reply.map fun r => (r.kind, r.status, r.data)

def up : State := State.reset

/-- A context within every range of Figure 3.1. -/
def goodFields : CtxFields :=
  { CtxFields.zero with
    mode := 2
    shift := ⟨6, 6, 6⟩
    limit := ⟨262144, 262144, 262144⟩
    gain := ⟨25600, 0, 0⟩
    travel := ⟨64, 0, 0⟩
    lookahead := 2
    pxX := 12800
    marginX := 96
    rollMargin := 1280
    readout := 8 }

def gyroSample (yaw : Half) : Sample := ⟨⟨yaw, 0, 0⟩, 0, 0, 0⟩

/-- The state of worked example 2.5, first tick: context 0 active, SX driven, a sample of 1,200 read. -/
def moving : State :=
  { up with
    msu := { up.msu with angle := ⟨40000, 0, 0⟩, path := ⟨30000, 0, 0⟩, stab := .running, read := .good (gyroSample 1200) }
    ctx := { up.ctx with t0 := { Context.blank with fields := goodFields }, active := some .c0 }
    adu := { up.adu with sx := { up.adu.sx with st := .active } } }

def emptyEntry : Entry := freeEntry

def closedEntry (q : Nat) (imp : Bool) : Entry :=
  { emptyEntry with st := .closed, sequence := some q, recId := some 3, locks := ⟨imp, false⟩, openTime := some 0 }

/-- Slots of 1 + 128 + 1 blocks from block 100, at most 2 impact locks. -/
def region (n : Nat) : Geometry := ⟨100, 130 * n, 0xA7, 1, 1, 2, false, 130, n⟩

/-- A mounted card of three slots: one recorded, one open or free, one free. -/
def mounted (w : Writer) (second : Entry) : State :=
  { up with
    sdr := { up.sdr with geo := some (region 3), entries := [closedEntry 5 false, second, emptyEntry], nextSeq := some 7 }
    cwr := { up.cwr with writer := w, present := true, cdet := true } }

def openEntry : Entry :=
  { emptyEntry with st := .opened, sequence := some 6, recId := some 4, openTime := some 0, headerWritten := true }

def ready : State := mounted .ready emptyEntry

def recording : State :=
  let s := mounted .recording openEntry
  { s with cwr := { s.cwr with recId := some 4, lastSlot := some 1 } }

/-- `s` with a transfer under way on the port. -/
def onPort (op : Xfer) (attempt : Nat) (s : State) : State :=
  { s with cwr := { s.cwr with port := some ⟨op, 100, 1, [], attempt, s.now⟩ } }

def impactSample : Sample := ⟨⟨0, 0, 0⟩, 18000, 4000, 2000⟩

/-! ## Ill-formed commands -/

theorem test_wf_data_empty : ¬ WellFormed (.data 1 []) := by decide
theorem test_wf_data_long : ¬ WellFormed (.data 1 (List.replicate 16385 0)) := by decide +kernel
theorem test_wf_scan_block : ¬ WellFormed (.scanReadDone (List.replicate 511 0)) := by decide +kernel
theorem test_wf_host_blocks : ¬ WellFormed (.hostReadDone (List.replicate 1536 0)) := by decide +kernel
theorem test_wf_capacity : ¬ WellFormed (.bringUpDone 4294967297) := by decide
theorem test_wf_write_opens_with_read_code : ¬ WellFormed (.writeTransaction (lanesOf [0xA5#8, 1#8])) := by decide
theorem test_wf_reset_ends_below_brownout : ¬ WellFormed (.powerOnResetEnd .belowBrownout) := by decide
theorem test_wf_reset_ends_below_power_on : ¬ WellFormed (.powerOnResetEnd .belowPowerOn) := by decide

/-! ## The check values of R203 and R205 -/

def digits : List Byte := [0x31, 0x32, 0x33, 0x34, 0x35, 0x36, 0x37, 0x38, 0x39]

theorem test_crc16_check_value : crc16 digits = 0x29B1#16 := by decide +kernel
theorem test_crc32_check_value : crc32 digits = 0xCBF43926#32 := by decide +kernel

/-! ## The step, and the table's words -/

theorem test_step_idles : step up = .next up := by rfl
theorem test_step_takes_the_front : step (up.withPending [.fsyncEdge, .tick]) = exec .fsyncEdge (up.withPending [.tick]) :=
  rfl
theorem test_no_row_has_bits : decodeTableWord 8 1 = none := by decide

/-! ## Link and reports (spec/11, spec/12) -/

theorem test_ident : replied (.ident 7) up = some (some (0x81#8, .ok,
    [0x57, 0x4C, 0x10, 0x34, 1, 4, 0x40, 4, 0, 1, 0, 0, 0x40, 0, 0x80, 12, 0, 0x10])) := rfl
theorem test_status_mask_0 : replied (.status 7 0) up = some (some (0x82#8, .ok, [0, 0])) := rfl
theorem test_status_part_time : replied (.status 7 1) { up with now := 258 } =
    some (some (0x82#8, .ok, [1, 0, 2, 1, 0, 0])) := rfl
theorem test_events_none : replied (.events 7) up = some (some (0x83#8, .ok, [0])) := rfl
theorem test_alert_set_bit_12 : replied (.alertSet 7 0x1000 0) up = some (some (0x84#8, .range, [])) := rfl
theorem test_reset_waits : after (.reset 7) { up with now := 9 } (fun t => (t.lnk.resetTaken, t.now)) =
    some (some 9#32, 9#32) := rfl
theorem test_reset_wait_expiry : after .resetWaitExpiry
    { up with now := 410, lnk := { up.lnk with resetTaken := some 0, reply := some ⟨0x85, 7, .ok, []⟩ } }
    (fun t => (t.now, t.rst.cause, t.lnk.reply)) = some (0#32, .request, none) := rfl
theorem test_checkin_early : after (.checkin 7) { up with lnk := { up.lnk with guard := .quiet, guardEnd := some 100 } }
    (fun t => (t.lnk.guard, t.lnk.trip)) = some (.tripped, some .early) := rfl
/-- 100 × 10 ms are 4,096 ticks. -/
theorem test_guard_set : after (.guardSet 7 100 1) up (fun t => (t.lnk.guard, t.lnk.guardEnd)) =
    some (.quiet, some 4096#32) := rfl
theorem test_quiet_timer : after .quietTimerExpiry
    { up with now := 50, lnk := { up.lnk with guard := .quiet, guardEnd := some 50, window := 100 } }
    (fun t => (t.lnk.guard, t.lnk.guardEnd)) = some (.window, some 4146#32) := rfl
theorem test_window_timer : after .windowTimerExpiry
    { moving with now := 50, lnk := { up.lnk with guard := .window, guardEnd := some 50 } }
    (fun t => (t.lnk.trip, t.adu.sx.st)) = some (some .missed, .parked) := rfl
/-- R182: 0xA1 is 1010 and then 0001, LD0 the least significant bit of each half. -/
theorem test_lane_order : lanesOf [0xA1#8] = [⟨false, true, false, true⟩, ⟨true, false, false, false⟩] ∧
    bytesOfLanes [⟨false, true, false, true⟩, ⟨true, false, false, false⟩, ⟨true, true, true, true⟩] = [0xA1#8] := by decide
/-- An IDENT frame of tag 7, its CRC computed by hand. -/
theorem test_write_ident : (after (.writeTransaction (lanesOf [0x5C, 1, 7, 0, 0, 0xE4, 0x77])) up (fun t => t.lnk.reply)) =
    after (.ident 7) up (fun t => t.lnk.reply) := by decide +kernel
theorem test_write_unknown_kind : replied (.writeTransaction (lanesOf [0x5C, 0x40, 7, 0, 0, 0xCC, 0x6F])) up =
    some (some (0xC0#8, .badKind, [])) := by decide +kernel
theorem test_read_reply : after (.readTransaction 9) { up with lnk := { up.lnk with reply := some ⟨0x85, 7, .ok, []⟩ } }
    (fun t => (t.lnk.lanes.take 14, t.lnk.reply)) = some (lanesOf [1, 0x5C, 0x85, 7, 1, 0, 0], none) := by decide +kernel
/-- The read that delivers RESET's reply shows what it sent, and the part is reset. -/
theorem test_reset_read : after (.readTransaction 9)
    { up with now := 9, lnk := { up.lnk with resetTaken := some 0, reply := some ⟨0x85, 7, .ok, []⟩ } }
    (fun t => (t.lnk.lanes.take 14, t.lnk.reply, t.rst.cause, t.now)) =
      some (lanesOf [1, 0x5C, 0x85, 7, 1, 0, 0], none, .request, 0) := by decide +kernel
theorem test_read_short_keeps_reply : after (.readTransaction 8)
    { up with lnk := { up.lnk with reply := some ⟨0x85, 7, .ok, []⟩ } } (fun t => t.lnk.reply.isSome) = some true :=
  rfl

/-! ## Motion and frames (spec/01, spec/02) -/

theorem test_stab_set_without_context : replied (.stabSet 7 1 0 0) up = some (some (0x90#8, .clamped, [1, 1])) :=
  rfl
theorem test_bias_set : replied (.biasSet 7 512 0 0xFDFF) up =
    some (some (0x91#8, .clamped, [0xFF, 1, 0, 0, 0, 0xFE])) := rfl
theorem test_impact_set : replied (.impactSet 7 15 0 249 5000 60 61) up =
    some (some (0x92#8, .clamped, [16, 1, 250, 0, 0x88, 0x13, 60, 60])) := rfl
/-- R6, R17: the tick under way keeps its bias and its settings; the next one takes the new ones. -/
theorem test_tick_takes_settings : after .tick { up with msu := { up.msu with
      bias := ⟨100, 0, 0⟩
      imp := { up.msu.imp with thr := 200 }
      read := .good (gyroSample 1200) } }
    (fun t => (t.msu.angle.yaw, t.msu.tickBias.yaw, t.msu.tickImp.thr)) = some (1200, 100, 200) := rfl
/-- Worked example 2.5, first line: A 41,200, P 30,175, S 20. -/
theorem test_tick_integrates : after .tick moving (fun t => (t.msu.angle.yaw, t.msu.path.yaw, t.csu.step.sx, t.now)) =
    some (41200, 30175, 20, 1) := rfl
theorem test_tick_wraps : after .tick
    { up with msu := { up.msu with angle := ⟨11796480, 0, 0⟩, path := ⟨11796480, 0, 0⟩, read := .good (gyroSample 1) } }
    (fun t => (t.msu.angle.yaw, t.msu.path.yaw)) = some (-11796479, -11796479) := rfl
theorem test_sensor_read : after (.sensorReadDone none) { up with msu := { up.msu with read := .waiting } }
    (fun t => t.msu.read) = some .failed := rfl
theorem test_sensor_lost : after .sensorLost
    { moving with msu := { moving.msu with read := .failed, missing := 15 } } (fun t => (t.msu.fault, t.msu.stab)) =
    some (true, .standby) := rfl
theorem test_sensor_restored : after .sensorRestored
    { moving with msu := { moving.msu with missing := 16, fault := true, goodRun := 63, stab := .standby } }
    (fun t => (t.msu.fault, t.msu.stab, t.msu.path.yaw)) = some (false, .running, 41200) := rfl
/-- 4,096 samples of 16 counts: the mean is 16. -/
theorem test_bias_learned : after .biasLearned
    { up with msu := { up.msu with learn := true, winCount := 4095, winSum := ⟨65520, 0, 0⟩, read := .good (gyroSample 16) } }
    (fun t => (t.msu.bias, t.msu.winCount)) = some (⟨16, 0, 0⟩, 0) := rfl
/-- 18,000, 4,000 and 2,000 counts against 8 g: the sum of squares is 344,000,000. -/
theorem test_impact : after .impactQualify
    { up with msu := { up.msu with read := .good impactSample, qCount := 7 } }
    (fun t => (t.lnk.events.impact.detail, t.msu.rearmEnd)) =
    some (some (.impact 0 344000000 []), some 8192#32) := rfl
theorem test_rearm_expiry : after .rearmHoldExpiry { up with msu := { up.msu with rearmEnd := some 0 } }
    (fun t => t.msu.rearmEnd) = some none := rfl
theorem test_impact_park_expiry : after .impactParkExpiry
    { up with msu := { up.msu with parkEnd := some 0 }
              adu := { up.adu with rt := { up.adu.rt with st := .parked, park := ⟨true, false, false, false⟩ } } }
    (fun t => (t.msu.parkEnd, t.adu.rt.st)) = some (none, .active) := rfl
theorem test_fsync_schedules : after .fsyncEdge moving (fun t => (t.csu.frame, t.csu.sample)) =
    some (1#32, some ⟨1, 8⟩) := rfl
theorem test_crop_sample : after .cropSample
    { moving with csu := { up.csu with offset := ⟨11025, 0, 0⟩, absorbed := ⟨13107, 0, 0⟩, sample := some ⟨5, 0⟩ } }
    (fun t => t.csu.ring.map fun r => (r.frame, r.cropX)) = some [(5#32, -2)] := rfl
theorem test_frame_get_off : replied (.frameGet 7 1) up = some (some (0x97#8, .state, [])) := rfl
theorem test_frame_get_next_is_held : after (.frameGet 7 1) moving (fun t => t.lnk.req) =
    some (some (.frameGet 7 1 0)) := rfl
theorem test_frame_get_timeout : replied .frameGetTimeout
    { moving with now := 410, lnk := { up.lnk with req := some (.frameGet 7 1 0) } } =
    some (some (0x97#8, .notReady, [])) := rfl

/-! ## Contexts and the drive (spec/03, spec/04) -/

theorem test_ctx_write_range : replied (.ctxWrite 7 4 goodFields) up = some (some (0x93#8, .range, [])) := rfl
theorem test_ctx_write_active : replied (.ctxWrite 7 0 goodFields) moving = some (some (0x93#8, .busy, [])) :=
  rfl
theorem test_ctx_read : (replied (.ctxRead 7 0) moving).map (·.map fun r => r.2.2.take 3) =
    some (some [0, 1, 2]) := rfl
/-- The mode of a context never written is 0, outside 1..2: outcome FAULT. -/
theorem test_ctx_select_fault : (replied (.ctxSelect 7 1) up).map (·.map fun r => (r.2.1, r.2.2.take 1)) =
    some (some (.ok, [2])) := rfl
theorem test_ctx_select_running : replied (.ctxSelect 7 1) moving = some (some (0x95#8, .accepted, [])) :=
  rfl
theorem test_ctx_return_no_link : replied (.ctxReturn 7) moving = some (some (0x96#8, .noLink, [])) := rfl
/-- R43, R45: the return to a context never written is answered OK with FAULT, code 1 and the mode's 0. -/
theorem test_ctx_return_fault : replied (.ctxReturn 7) { moving with
    msu := { moving.msu with stab := .standby }
    ctx := { moving.ctx with t0 := ⟨goodFields, none, some .c2⟩ } } =
    some (some (0x96#8, .ok, [2, 1, 0, 0, 0, 0])) := rfl
theorem test_act_enable_on : replied (.actEnableOn 7 1) up = some (some (0x98#8, .ok, [1, 0, 0])) := rfl
theorem test_act_enable_off : after (.actEnableOff 7 1)
    { moving with csu := { moving.csu with step := ⟨20, 0, 0⟩ } } (fun t => (t.adu.sx.st, t.csu.step.sx)) =
    some (.off, 0) := rfl
theorem test_act_set : replied (.actSet 7 0 0 15 849 64 1 5 0) up =
    some (some (0x9A#8, .clamped, [1, 16, 0, 0x20, 3, 63, 1, 5, 1])) := rfl
theorem test_act_group : replied (.actGroup 7 7 33 2000) up =
    some (some (0x9B#8, .clamped, [32, 0xD0, 7])) := rfl
/-- R56: a mask of 0 is answered OK and changes nothing. -/
theorem test_act_group_mask_0 : after (.actGroup 7 0 33 0) up (fun t => (t.lnk.reply.map Reply.status, t.adu)) =
    some (some .ok, up.adu) := rfl
theorem test_act_park_on : after (.actParkOn 7 1) moving (fun t => (t.adu.sx.st, t.adu.sx.waiting)) =
    some (.parked, some 0) := rfl
theorem test_act_park_off : after (.actParkOff 7 4)
    { up with adu := { up.adu with rt := { up.adu.rt with st := .parked, park := ⟨false, false, false, true⟩ } } }
    (fun t => t.adu.rt.st) = some .active := rfl
/-- A step of 20 of 1,024 at a period of 2,000 is a duty of 39 counts. -/
theorem test_period_start : after (.pwmPeriodStart .sx)
    { moving with adu := { moving.adu with sx := { moving.adu.sx with waiting := some 20 } } }
    (fun t => (t.adu.sx.applied, t.adu.sx.duty)) = some (20, 39) := rfl
theorem test_comparator : after (.ocComparatorChange .rt true) up (fun t => t.adu.rt.comparator) = some true :=
  rfl
theorem test_overcurrent : after (.overcurrentFault .sx 200000)
    { moving with adu := { moving.adu with sx := { moving.adu.sx with comparator := true } } }
    (fun t => (t.adu.sx.st, t.adu.sx.attempts)) = some (.retryWait, 2) := rfl
theorem test_retry_expiry : after (.retryDelayExpiry .sx)
    { up with adu := { up.adu with sx := { up.adu.sx with st := .retryWait, retryEnd := some 0 } } }
    (fun t => t.adu.sx.st) = some .active := rfl
theorem test_clean_run : after (.cleanRunExpiry .sx)
    { moving with now := 40960, adu := { moving.adu with sx := { moving.adu.sx with attempts := 0, cleanStart := some 0 } } }
    (fun t => t.adu.sx.attempts) = some 3 := rfl

/-! ## Scan, charger and supply (spec/05, spec/09, spec/10) -/

/-- A V_IN of 23,000 mV is kept as 20,000 mV (R72). -/
theorem test_scan_clamps : after (.scanConversion (.value 23000)) up (fun t => (t.scn.vIn.latest, t.scn.slot)) =
    some (20000, 2) := rfl
theorem test_battery_absent : after .batteryAbsent
    { up with scn := { up.scn with slot := 7, battery := true, batZone := .normal, openCount := 1 } }
    (fun t => (t.scn.battery, t.scn.batZone)) = some (false, .absent) := rfl
theorem test_battery_present : after (.batteryPresent 250)
    { up with scn := { up.scn with slot := 7, validCount := 7, tBat := ⟨250, List.replicate 7 250⟩ } }
    (fun t => (t.scn.battery, t.scn.batZone, t.scn.validCount)) = some (true, .normal, 8) := rfl
theorem test_source_present : after (.sourcePresent .usb 300)
    { up with scn := { up.scn with slot := 8, usb := 5000 }, ips := { up.ips with usb := ⟨false, 31, 0⟩ } }
    (fun t => (t.ips.sel, t.ips.iEff)) = some (some .usb, 500) := rfl
theorem test_source_lost : after (.sourceLost .usb 300)
    { up with scn := { up.scn with slot := 8, usb := 4300 }
              ips := { up.ips with usb := ⟨true, 0, 1⟩, sel := some .usb, iEff := 500 } }
    (fun t => (t.ips.sel, t.chg.phase)) = some (none, .noInput) := rfl
theorem test_i_eff_raise : after (.iEffRaise 300)
    { up with scn := { up.scn with slot := 8, usb := 5000, vIn := ⟨5000, [5000]⟩ }
              ips := { up.ips with usb := ⟨true, 0, 0⟩, sel := some .usb, iEff := 500, sag := 31 } }
    (fun t => t.ips.iEff) = some 550 := rfl
theorem test_charge_done : after (.chargeDone 300)
    { up with scn := { up.scn with slot := 8, usb := 5000, vIn := ⟨5000, [5000]⟩, battery := true, batZone := .normal
                                   vBat := ⟨4190, [4190]⟩, iBat := ⟨40, [40]⟩ }
              ips := { up.ips with usb := ⟨true, 0, 0⟩, sel := some .usb, iEff := 500 }
              chg := { up.chg with phase := .fastCv, cycle := some .fastCv, term := 7 } }
    (fun t => (t.chg.phase, t.chg.iCmd)) = some (.done, 0) := rfl
theorem test_charge_set : replied (.chargeSet 7 1 4205 99 24 481) up =
    some (some (0xB0#8, .clamped, [1, 0x68, 0x10, 100, 0, 25, 0, 0xE0, 1, 1])) := rfl
theorem test_input_set_none : replied (.inputSet 7 0 500 4600 500 6000) up = some (some (0xB1#8, .range, [])) :=
  rfl
theorem test_supply_set : replied (.supplySet 7 33 7) up = some (some (0xB2#8, .clamped, [32, 8])) := rfl
/-- 8 ms are 33 ticks. -/
theorem test_rail_below_warn : after .railBelowWarn moving (fun t => (t.ssv.st, t.ssv.timerEnd, t.adu.sx.st)) =
    some (.rideThrough, some 33#32, .parked) := rfl
theorem test_rail_recover : after .railRecover
    { up with ssv := { up.ssv with st := .rideThrough, rail := .belowWarn, stable := none } }
    (fun t => (t.ssv.st, t.ssv.stable)) = some (.normal, some 0) := rfl
theorem test_rail_below_recover : after .railBelowRecover up (fun t => (t.ssv.rail, t.ssv.stable)) =
    some (.belowRecover, none) := rfl
theorem test_ride_through_expiry : after .rideThroughExpiry
    { up with ssv := { up.ssv with st := .rideThrough, timerEnd := some 0, rail := .belowWarn, stable := none } }
    (fun t => t.ssv.st) = some .emergency := rfl
theorem test_stable_time : after .stableTimeReached { up with ssv := { up.ssv with st := .emergency, stable := some 262 } }
    (fun t => t.ssv.st) = some .normal := rfl

/-! ## Card (spec/06, spec/07, spec/08) -/

/-- Slots of 1 + 128 × 16 + 64 = 2,113 blocks: 500,000 blocks hold 236. -/
theorem test_mount : replied (.mount 7 8192 500000 1 16 64 4 0)
    { up with cwr := { up.cwr with present := true } } =
    some (some (0xA0#8, .accepted, [236, 0, 0x41, 8, 0, 0, 4])) := rfl
theorem test_mount_no_card : replied (.mount 7 8192 500000 1 16 64 4 0) up = some (some (0xA0#8, .noCard, [])) :=
  rfl
theorem test_unmount : after (.unmount 7) ready (fun t => (t.cwr.writer, t.sdr.geo)) = some (.unmounted, none) :=
  rfl
theorem test_rec_start : replied (.recStart 7) ready = some (some (0xA2#8, .accepted, [1, 0, 7, 0, 0, 0, 1, 0])) :=
  rfl
theorem test_rec_stop : after (.recStop 7) recording (fun t => (t.cwr.writer, t.cwr.closeReason)) =
    some (.stopping, some .stop) := rfl
theorem test_data : replied (.data 7 [1, 2, 3]) recording =
    some (some (0xA4#8, .ok, [3, 0, 0xFD, 0xFF, 0x3F, 0, 1, 0])) := rfl
theorem test_slot_read_range : replied (.slotRead 7 3 1) ready = some (some (0xA5#8, .range, [])) := rfl
theorem test_slot_lock_on_impact : replied (.slotLockOn 7 0 1) ready = some (some (0xA6#8, .range, [])) := rfl
theorem test_slot_lock_off : replied (.slotLockOff 7 0 1)
    { ready with sdr := { ready.sdr with entries := [closedEntry 5 true] } } =
    some (some (0xA7#8, .ok, [0])) := rfl
theorem test_motion_read_gone : replied (.motionRead 7 0 0 1) ready = some (some (0xA8#8, .gone, [])) := rfl
theorem test_motion_read_timeout : replied .motionReadTimeout
    { ready with now := 4096, lnk := { up.lnk with req := some (.motionRead 7 0 0 1 0) } } =
    some (some (0xA8#8, .busy, [])) := rfl
theorem test_attempt_again : after .cardAttemptFailed (onPort (.headerUpdate 0) 1 { ready with now := 6 })
    (fun t => t.cwr.port.map fun x => (x.attempt, x.began)) = some (some (2, 6#32)) := rfl
theorem test_attempt_timeout_early : after .cardAttemptTimeout (onPort (.headerUpdate 0) 1 { ready with now := 6 })
    (fun t => t.cwr.port.map fun x => x.attempt) = some (some 1) := rfl
theorem test_bring_up_too_small : after (.bringUpDone 489) (onPort .identify 1 (mounted .mounting emptyEntry))
    (fun t => (t.cwr.writer, t.lnk.events.card.detail)) = some (.unmounted, some (.cardFault .range none)) :=
  rfl
theorem test_format_header : after .formatHeaderDone
    (onPort (.formatHeader 2) 1 { up with
      sdr := { up.sdr with geo := some { region 3 with format := true }, entries := [emptyEntry, emptyEntry] }
      cwr := { up.cwr with writer := .mounting } })
    (fun t => (t.cwr.writer, t.sdr.entries.length, t.sdr.nextSeq)) = some (.ready, 3, some 1) := rfl
theorem test_scan_read_short_stops : exec (.scanReadDone []) (onPort (.scanRead 2) 1 { up with
      sdr := { up.sdr with geo := some (region 3), entries := [closedEntry 5 false, emptyEntry] }
      cwr := { up.cwr with writer := .mounting } }) = .fault .badBlockLength := rfl
theorem test_unit_write : after .unitWriteDone
    (onPort (.streamUnit 1 3) 1 { recording with cbf := ⟨[⟨1, [1, 2, 3]⟩], 3, [], []⟩ })
    (fun t => ((entryAt t 1).map Entry.streamBytes, t.cwr.units, t.cbf.segs)) = some (some 3, 1, []) := rfl
theorem test_checkpoint : after .checkpoint
    (onPort (.streamUnit 1 3) 1 { recording with
      cbf := ⟨[⟨1, [1, 2, 3]⟩], 3, [], []⟩
      cwr := { recording.cwr with units := 15 } })
    (fun t => t.cwr.port.map Transfer.op) = some (some (.headerUpdate 1)) := rfl
theorem test_block_write : after .blockWriteDone
    (onPort (.motionBlock 1 1) 1 { recording with cbf := ⟨[], 0, [⟨1, 1⟩], [⟨1, ⟨9, 0, 0, 0, 0, 0⟩⟩]⟩ })
    (fun t => ((entryAt t 1).map Entry.motionRecords, t.cbf.pend)) = some (some 1, []) := rfl
theorem test_header_update : after .headerUpdateDone (onPort (.headerUpdate 0) 1 ready) (fun t => t.cwr.port) =
    some none := rfl
theorem test_opening_header : after .openingHeaderDone (onPort (.openingHeader 1) 1 { recording with
      cwr := { recording.cwr with writer := .rolling } }) (fun t => t.cwr.writer) = some .recording := rfl
theorem test_closed_header : after .closedHeaderDone (onPort (.closedHeader 1 .stop) 1 { recording with
      sdr := { recording.sdr with entries := [closedEntry 5 false, { openEntry with st := .closing }, emptyEntry] }
      cwr := { recording.cwr with writer := .stopping } })
    (fun t => (t.cwr.writer, (entryAt t 1).map Entry.st, (entryAt t 1).map Entry.reason)) =
    some (.ready, some .closed, some (some .stop)) := rfl
theorem test_host_read : (replied (.hostReadDone (List.replicate 16 7 ++ List.replicate 496 0))
    (onPort (.hostRead true) 1 { ready with
      sdr := { ready.sdr with entries := [{ closedEntry 5 false with motionRecords := 1 }] }
      lnk := { up.lnk with req := some (.motionRead 7 0 0 1 0) } })) =
    some (some (0xA8#8, .ok, [0, 0, 0, 0, 0, 0, 1, 1] ++ List.replicate 16 7)) := by decide +kernel
theorem test_host_read_short_stops : exec (.hostReadDone []) (onPort (.hostRead true) 1 { ready with
      lnk := { up.lnk with req := some (.motionRead 7 0 0 1 0) } }) = .fault .badBlockLength := by rfl
theorem test_cdet_change : after (.cdetChange true) { up with now := 3 } (fun t => t.cwr.cdetSince) = some (some 3) :=
  rfl
theorem test_card_inserted : after .cardInserted { up with now := 20, cwr := { up.cwr with cdet := true, cdetSince := some 0 } }
    (fun t => t.cwr.present) = some true := rfl
theorem test_card_removed : after .cardRemoved
    { recording with now := 20, cwr := { recording.cwr with cdet := false, cdetSince := some 0 } }
    (fun t => (t.cwr.writer, t.lnk.events.record.detail)) =
    some (.unmounted, some (.recordStopped 4 .cardRemoved 20 (some 1) 0 0)) := rfl

/-! ## Emergency close and resets (spec/10, spec/11) -/

/-- A close at its CLOSED header of slot 1. -/
def closing : State :=
  onPort (.emClosed 1) 1 { recording with
    sdr := { recording.sdr with entries := [closedEntry 5 false, { openEntry with st := .closing }, emptyEntry] }
    cwr := { recording.cwr with writer := .emergencyClose }
    ssv := { up.ssv with st := .emergency, rail := .belowWarn, stable := none, close := some ⟨20, 12, .header, [1], false⟩ } }

theorem test_emergency_done : after .emergencyWriteDone closing
    (fun t => (t.cwr.writer, t.ssv.close, t.lnk.events.record.detail)) =
    some (.ready, none, some (.recordStopped 4 .emergency 0 (some 1) 20 8)) := rfl
theorem test_emergency_failed : after .emergencyWriteFailed closing (fun t => (t.cwr.writer, t.ssv.close)) =
    some (.fault, none) := rfl
theorem test_brownout : after .brownout recording (fun t => (t.rst, t.cwr.recId)) =
    some (⟨true, true, false, .brownout⟩, none) := rfl
theorem test_power_on_reset_end : exec (.powerOnResetEnd .atRecover)
    { up with now := 77, rst := ⟨true, true, false, .powerOn⟩ } = .next up := rfl
theorem test_rstn_low : after .rstnLow moving (fun t => t.rst) = some ⟨true, false, true, .line⟩ := rfl
theorem test_rstn_high : after .rstnHigh { moving with now := 9, rst := ⟨true, false, true, .line⟩ }
    (fun t => (t.now, t.rst.active, t.adu.sx.st)) = some (0#32, false, .off) := rfl
/-- R164: a brownout's rail that has risen to warn while RSTN is low rides through nothing as RSTN goes high. -/
theorem test_rise_to_warn : after (.powerOnResetEnd .belowRecover) { up with
      rst := ⟨true, false, true, .brownout⟩
      ssv := { up.ssv with rail := .belowWarn } } (fun t => after .rstnHigh t (fun u => (u.ssv.st, u.ssv.rail))) =
    some (some (.normal, .belowRecover)) := rfl
/-- R165: the rail between warn and recover at the end of a power-on reset: NORMAL, and no stable time. -/
theorem test_power_on_reset_end_below_recover : after (.powerOnResetEnd .belowRecover)
    { moving with rst := ⟨true, true, false, .brownout⟩ } (fun t => (t.rst.active, t.ssv.st, t.ssv.stable, t.ssv.rail)) =
    some (false, .normal, none, .belowRecover) := rfl
/-- R198: RSTN low during a brownout leaves the cause. -/
theorem test_rstn_low_in_brownout : after .rstnLow { moving with rst := ⟨true, true, false, .brownout⟩ } (fun t => t.rst) =
    some ⟨true, true, true, .brownout⟩ := rfl
theorem test_below_power_on_level : after .railBelowPowerOnLevel
    { up with rst := ⟨true, true, false, .brownout⟩, ssv := { up.ssv with rail := .belowBrownout } } (fun t => t.rst.cause) =
    some .powerOn := rfl


/-! ## States and operands that meet the hypotheses of each statement

`witness_<Statement>_<clause>`: the premises of that clause, at a boundary value where the clause has a range. -/

theorem portLaw_of {s : State} (h : s.cwr.writer ≠ .emergencyClose) (g : ∀ tag, s.lnk.req ≠ some (.unmount tag)) :
    PortLaw s := ⟨fun e => absurd e h, fun tag e => absurd e (g tag)⟩

theorem portLaw_free {s : State} (h : s.cwr.writer ≠ .emergencyClose) (g : s.lnk.req = none) : PortLaw s :=
  portLaw_of h fun _ e => nomatch g.symm.trans e

/-- `s` with both link slots empty. -/
def busyLink : State := { up with lnk := { up.lnk with reply := some ⟨0x81, 7, .ok, []⟩ } }

def inReset : State := { moving with rst := ⟨true, false, true, .line⟩ }

/-- `s` with the guard in state `g`, its timer at its end when `late` and one tick before it otherwise. -/
def guarded (g : Guard) (late : Bool) (s : State) : State :=
  { s with now := if late then 100 else 99, lnk := { s.lnk with guard := g, guardEnd := some 100, quiet := 2, window := 2 } }

def standing : State := { moving with msu := { moving.msu with stab := .standby } }

def readOf (r : SensorRead) (s : State) : State := { s with msu := { s.msu with read := r } }

theorem witness_StepRunsFrontCommand_idle : up.pending = [] := rfl

theorem witness_CommandsLeaveTheQueue : ∃ t, exec .tick moving = .next t := ⟨_, rfl⟩

theorem witness_GatesHold_reset : inReset.rst.active = true ∧ movesInReset .tick = false ∧
    movesInReset (.readTransaction 3) = false := ⟨rfl, rfl, rfl⟩
theorem witness_GatesHold_occupied : isRequest (.checkin 7) = true ∧ Awake busyLink ∧ ¬ LinkFree busyLink ∧
    (0x5C#8 ≠ 0xA5#8) := ⟨rfl, rfl, (fun h => nomatch h.2), by decide⟩

theorem witness_WriteTransactionTakesFrame : Takes up ∧ (0x5C#8 ≠ 0xA5#8) ∧ framed [0x5C#8] = false ∧
    framed [0x5C#8, 1, 7, 0, 0, 0xE4, 0x77] = true ∧ parseFrame [0x5C#8, 1, 7, 0, 0, 0xE4, 0x77] = .request (.ident 7) ∧
    parseFrame [0x5C#8, 0x40, 7, 0, 0, 0xCC, 0x6F] = .badKind ∧
    parseFrame [0x5C#8, 1, 7, 1, 0, 0, 0x40, 0xDD] = .badLength :=
  ⟨⟨rfl, rfl, rfl⟩, by decide +kernel⟩

/-- R183's three checks, each failing and passing at its boundary: framing, kind, length. -/
theorem witness_WriteTransactionTakesFrame_checks :
    let field (bytes : List Byte) (i : Nat) : Nat := (bytes.getD i 0).toNat + 256 * (bytes.getD (i + 1) 0).toNat
    let framing (bytes : List Byte) : Prop := bytes.head? = some 0x5C#8 ∧ field bytes 3 ≤ 16388 ∧
      7 + field bytes 3 ≤ bytes.length ∧
      (crc16 ((bytes.drop 1).take (4 + field bytes 3))).toNat = field bytes (5 + field bytes 3)
    framing [0x5C#8, 1, 7, 0, 0, 0xE4, 0x77] ∧ ¬ framing [0x5D#8, 1, 7, 0, 0, 0xE4, 0x77] ∧
      ¬ framing [0x5C#8, 1, 7, 0, 0, 0xE4, 0x78] ∧ ¬ framing [0x5C#8, 1, 7, 0, 0, 0xE4] ∧
      framing [0x5C#8, 0x40, 7, 0, 0, 0xCC, 0x6F] ∧ (0x40#8).toNat ≠ 0x24 ∧
      framing [0x5C#8, 1, 7, 1, 0, 0, 0x40, 0xDD] ∧ field [0x5C#8, 1, 7, 1, 0, 0, 0x40, 0xDD] 3 ≠ 0 := by
  decide +kernel

theorem witness_RequestFramesReadBack : WellFormed (.data 7 [1]) ∧ isRequest (.data 7 [1]) = true ∧
    WellFormed (.mount 7 1 2 3 4 5 6 1) ∧ isRequest (.mount 7 1 2 3 4 5 6 1) = true := by decide

theorem witness_ReadTransactionSends : Awake busyLink ∧ busyLink.lnk.resetTaken = none ∧ Awake up ∧
    up.lnk.resetTaken = none := ⟨rfl, rfl, rfl, rfl⟩

theorem witness_takes : Takes up ∧ Takes moving ∧ Takes standing ∧ Takes ready ∧ Takes recording :=
  ⟨⟨rfl, rfl, rfl⟩, ⟨rfl, rfl, rfl⟩, ⟨rfl, rfl, rfl⟩, ⟨rfl, rfl, rfl⟩, ⟨rfl, rfl, rfl⟩⟩

theorem witness_IdentDescribesThePart : Takes moving := ⟨rfl, rfl, rfl⟩
theorem witness_StatusReportsSelectedBlocks : Takes recording := ⟨rfl, rfl, rfl⟩
theorem witness_EventsReadsAndClears : Takes { up with lnk := (raiseIn up.lnk .cardInserted) } ∧
    (eventGet (raiseIn up.lnk .cardInserted).events .card).count = 1 := ⟨⟨rfl, rfl, rfl⟩, rfl⟩
theorem witness_AlertSetStoresMasks : Takes up ∧ 4096 ≤ (4096#16).toNat ∧ (4095#16).toNat < 4096 :=
  ⟨⟨rfl, rfl, rfl⟩, by decide⟩
theorem witness_RaisedEventsAreCounted : up.lnk.recordMask.getLsbD (classBit (detailClass .cardInserted)) = true ∧
    ({ up with lnk := { up.lnk with recordMask := 0 } } : State).lnk.recordMask.getLsbD
      (classBit (detailClass .cardInserted)) = false := by decide

/-- RESET taken at part time 0; the reply frame is 8 bytes. -/
def resetting (now : Word) : State :=
  { moving with now := now, lnk := { up.lnk with resetTaken := some 0, reply := some ⟨0x85, 7, .ok, []⟩ } }

theorem witness_ResetRequestWaits_take : Takes moving := ⟨rfl, rfl, rfl⟩
theorem witness_ResetRequestWaits_waiting : Awake (resetting 410) ∧ (resetting 410).rst.supplyLow = false ∧
    (resetting 410).rst.lineLow = false ∧ (resetting 410).lnk.resetTaken = some 0 ∧
    (resetting 410).lnk.reply = some ⟨0x85, 7, .ok, []⟩ ∧ (replyFrame ⟨0x85, 7, .ok, []⟩).length = 8 ∧
    410 ≤ ((resetting 410).now - 0).toNat ∧ ((resetting 409).now - 0).toNat < 410 :=
  ⟨rfl, rfl, rfl, rfl, rfl, rfl, by decide⟩

theorem witness_CheckInByGuardState : ∀ g : Guard, Takes (guarded g false recording) ∧
    PortLaw (guarded g false recording) ∧ (guarded g false recording).lnk.guard = g ∧
    (guarded g false recording).cwr.writer = .recording ∧ openSlot (guarded g false recording) = some 1 := by
  intro g
  cases g <;> exact ⟨⟨rfl, rfl, rfl⟩, portLaw_free (by decide) rfl, rfl, rfl, rfl⟩
theorem witness_CheckInByGuardState_rolling :
    let s := { guarded .quiet false recording with cwr := { recording.cwr with writer := .rolling } }
    Takes s ∧ PortLaw s ∧ s.cwr.writer = .rolling :=
  ⟨⟨rfl, rfl, rfl⟩, portLaw_free (by decide) rfl, rfl⟩

/-- The port when the guard trips: free in a state in which the arbiter works, recording or not; free in one in which it
does not; and with a transfer under way. -/
theorem witness_GuardTrips_port : ∀ g late,
    let free := guarded g late recording
    let idle := guarded g late ready
    let out := guarded g late up
    let busy := guarded g late (onPort (.streamUnit 1 3) 1 recording)
    (free.cwr.port = none ∧ arbitrating free.cwr.writer = true ∧ free.sdr.geo = some (region 3)) ∧
      (Takes idle ∧ PortLaw idle ∧ idle.cwr.port = none ∧ arbitrating idle.cwr.writer = true ∧
        idle.cwr.writer ≠ .recording ∧ idle.cwr.writer ≠ .rolling) ∧
      (Takes out ∧ PortLaw out ∧ arbitrating out.cwr.writer = false) ∧
      Takes busy ∧ PortLaw busy ∧ busy.cwr.port ≠ none ∧ openSlot busy = some 1 ∧
        (chanGet (guarded g late moving).adu .sx).st = .active ∧ (chanGet (guarded g late moving).adu .sy).st ≠ .active := by
  intro g late
  cases g <;> cases late <;> exact ⟨⟨rfl, rfl, rfl⟩,
    ⟨⟨rfl, rfl, rfl⟩, portLaw_free (by decide) rfl, rfl, rfl, (fun h => nomatch h), fun h => nomatch h⟩,
    ⟨⟨rfl, rfl, rfl⟩, portLaw_free (by decide) rfl, rfl⟩, ⟨rfl, rfl, rfl⟩, portLaw_free (by decide) rfl,
    (fun h => nomatch h), rfl, rfl, fun h => nomatch h⟩

theorem witness_GuardSetAndTimers_set : Takes (guarded .tripped false up) := ⟨rfl, rfl, rfl⟩
theorem witness_GuardSetAndTimers_timers : ∀ g : Guard, Awake (guarded g true recording) ∧
    PortLaw (guarded g true recording) ∧ (guarded g true recording).lnk.guard = g ∧
    (guarded g true recording).lnk.guardEnd = some 100 ∧ ((guarded g true recording).now - 100).toNat < 2147483648 ∧
    2147483648 ≤ ((guarded g false recording).now - 100).toNat := by
  intro g
  cases g <;> exact ⟨rfl, portLaw_free (by decide) rfl, rfl, rfl, by decide, by decide⟩

theorem witness_StabSetByState : Takes up ∧ 1 < (2#8).toNat ∧ (1#8).toNat ≤ 1 ∧ (0#8).toNat ≤ 1 ∧
    up.msu.stab = .off ∧ Takes moving ∧ moving.msu.stab = .running ∧ Takes standing ∧ standing.msu.stab = .standby :=
  ⟨⟨rfl, rfl, rfl⟩, by decide, by decide, by decide, rfl, ⟨rfl, rfl, rfl⟩, rfl, ⟨rfl, rfl, rfl⟩, rfl⟩

theorem witness_MotionSettingsAreClamped : Takes up := ⟨rfl, rfl, rfl⟩

theorem witness_TickIntegratesMotion : Awake up ∧ up.msu.read = .idle ∧ Awake moving ∧ moving.msu.read ≠ .idle ∧
    (∃ x, moving.msu.read = .good x) ∧ activeFields moving = some goodFields ∧ moving.msu.fault = false ∧
    (readOf .failed up).msu.read ≠ .idle ∧ (readOf .failed up).msu.missing < 15 ∧
    activeFields (readOf .failed up) = none :=
  ⟨rfl, rfl, rfl, by decide, ⟨_, rfl⟩, rfl, rfl, by decide, by decide, rfl⟩

theorem witness_TickIntegratesMotion_fault :
    let lost := readOf .failed { moving with msu := { moving.msu with missing := 15 } }
    let good := { moving with msu := { moving.msu with missing := 16, fault := true, goodRun := 63, stab := .standby } }
    Awake lost ∧ lost.msu.read ≠ .idle ∧ lost.msu.missing = 15 ∧ lost.msu.stab = .running ∧
      lost.ctx.pendingSwitch = none ∧ activeFields lost = some goodFields ∧ lost.msu.winCount < 4095 ∧
      good.msu.fault = true ∧ 63 ≤ good.msu.goodRun ∧ good.msu.read = .good (gyroSample 1200) :=
  ⟨rfl, by decide, rfl, rfl, rfl, rfl, by decide, rfl, by decide, rfl⟩

/-- One short of 4,096 still samples, one short of 64 good ones; a gyro of 16 is still, of 17 is not, by default. -/
theorem witness_TickIntegratesMotion_counts :
    let learning (r : SensorRead) := readOf r { moving with msu := { moving.msu with learn := true, winCount := 4094 } }
    let faulty := { moving with msu := { moving.msu with fault := true, goodRun := 62 } }
    (∀ r, (learning r).msu.learn = true ∧ (learning r).msu.fault = false ∧ (learning r).msu.winCount < 4095 ∧
      (learning r).msu.stab ≠ .off ∧ activeFields (learning r) = some goodFields ∧ (learning r).msu.missing < 15) ∧
      (∀ g : Half, ((gyroSample g).gyro.yaw.toInt - moving.msu.tickBias.yaw).natAbs ≤ moving.msu.still ↔
        g.toInt.natAbs ≤ 16) ∧
      Awake faulty ∧ faulty.msu.read = .good (gyroSample 1200) ∧ faulty.msu.fault = true ∧ faulty.msu.goodRun < 63 := by
  refine ⟨fun r => ⟨rfl, rfl, show (4094 : Nat) < 4095 by decide, show Stab.running ≠ .off by decide, rfl,
    show (0 : Nat) < 15 by decide⟩, fun g => ?_, rfl, rfl, rfl, by decide⟩
  show (g.toInt - 0).natAbs ≤ 16 ↔ g.toInt.natAbs ≤ 16
  rw [Int.sub_zero]

theorem witness_TickSplitsCorrection : Awake moving ∧ moving.msu.read ≠ .idle ∧ moving.msu.stab = .running ∧
    moving.msu.fault = false ∧ activeFields moving = some goodFields ∧ (∃ x, moving.msu.read = .good x) ∧
    impactNow moving.msu = false := ⟨rfl, by decide, rfl, rfl, rfl, ⟨_, rfl⟩, rfl⟩

/-- Both holds end at part time 100. -/
def holding (now : Word) : State := { up with now := now, msu := { up.msu with rearmEnd := some 100, parkEnd := some 100 } }

theorem witness_SensorAnswersAndHoldsEnd : Awake (readOf .waiting up) ∧ (readOf .waiting up).msu.read = .waiting ∧
    up.msu.read ≠ .waiting ∧ Awake (holding 100) ∧ (holding 100).msu.rearmEnd = some 100 ∧
    (holding 100).msu.parkEnd = some 100 ∧ ((holding 100).now - 100).toNat < 2147483648 ∧
    2147483648 ≤ ((holding 99).now - 100).toNat :=
  ⟨rfl, rfl, by decide, rfl, rfl, rfl, by decide, by decide⟩

theorem witness_SensorFaultAndBiasTicks_lost :
    let s := readOf .failed { moving with msu := { moving.msu with missing := 15 } }
    Awake s ∧ s.msu.read = .failed ∧ s.msu.fault = false ∧ 15 ≤ s.msu.missing ∧ s.msu.winCount < 4096 ∧
      s.ctx.pendingSwitch = none ∧ s.msu.stab = .running := ⟨rfl, rfl, rfl, by decide, by decide, rfl, rfl⟩
theorem witness_SensorFaultAndBiasTicks_restored :
    let s := { moving with msu := { moving.msu with missing := 16, fault := true, goodRun := 63, stab := .standby } }
    Awake s ∧ s.msu.read = .good (gyroSample 1200) ∧ s.msu.fault = true ∧ 63 ≤ s.msu.goodRun ∧ s.msu.winCount < 4096 ∧
      impactNow s.msu = false := ⟨rfl, rfl, rfl, by decide, by decide, rfl⟩
theorem witness_SensorFaultAndBiasTicks_learned :
    let s := readOf (.good (gyroSample 16)) { up with msu := { up.msu with learn := true, winCount := 4095 } }
    Awake s ∧ s.msu.read = .good (gyroSample 16) ∧ s.msu.fault = false ∧ s.msu.learn = true ∧ s.msu.winCount = 4095 ∧
      ((gyroSample 16).gyro.yaw.toInt - s.msu.bias.yaw).natAbs ≤ s.msu.still ∧
      ((gyroSample 16).gyro.pitch.toInt - s.msu.bias.pitch).natAbs ≤ s.msu.still ∧
      ((gyroSample 16).gyro.roll.toInt - s.msu.bias.roll).natAbs ≤ s.msu.still ∧ impactNow s.msu = false :=
  ⟨rfl, rfl, rfl, rfl, rfl, by decide, by decide, by decide, rfl⟩
theorem witness_SensorFaultAndBiasTicks_nothing : Awake moving ∧ moving.msu.read = .good (gyroSample 1200) ∧
    moving.msu.fault = false ∧ moving.msu.winCount < 4095 := ⟨rfl, rfl, rfl, by decide⟩

def struck (count : Nat) : State := readOf (.good impactSample) { recording with msu := { up.msu with qCount := count } }

theorem witness_ImpactQualifies_qualifies : Awake (struck 7) ∧ PortLaw (struck 7) ∧
    (struck 7).msu.read = .good impactSample ∧ (struck 7).msu.rearmEnd = none ∧
    ((struck 7).msu.imp.thr * 128) ^ 2 <
      impactSample.accX.toInt.natAbs ^ 2 + impactSample.accY.toInt.natAbs ^ 2 + impactSample.accZ.toInt.natAbs ^ 2 ∧
    (struck 7).msu.imp.count ≤ (struck 7).msu.qCount + 1 ∧ (struck 7).lnk.recordMask.getLsbD 0 = true :=
  ⟨rfl, portLaw_free (by decide) rfl, rfl, rfl, by decide, by decide, rfl⟩
theorem witness_ImpactQualifies_not : Awake (holding 99) ∧ (holding 99).msu.rearmEnd = some 100 ∧ Awake moving ∧
    moving.msu.rearmEnd = none ∧ gyroSaturated (gyroSample 1200) = false ∧
    (gyroSample 1200).accX.toInt.natAbs ^ 2 + (gyroSample 1200).accY.toInt.natAbs ^ 2 +
      (gyroSample 1200).accZ.toInt.natAbs ^ 2 ≤ (moving.msu.imp.thr * 128) ^ 2 ∧
    (struck 6).msu.qCount + 1 < (struck 6).msu.imp.count :=
  ⟨rfl, rfl, rfl, rfl, rfl, by decide, by decide⟩

/-- Above threshold and one short of the count; a missing sample, and one in a hold. -/
theorem witness_ImpactQualifies_below : Awake (struck 6) ∧ (struck 6).msu.read = .good impactSample ∧
    (struck 6).msu.rearmEnd = none ∧ (struck 6).msu.qCount + 1 < (struck 6).msu.tickImp.count ∧
    ((struck 6).msu.tickImp.thr * 128) ^ 2 <
      impactSample.accX.toInt.natAbs ^ 2 + impactSample.accY.toInt.natAbs ^ 2 + impactSample.accZ.toInt.natAbs ^ 2 ∧
    (readOf .failed (struck 6)).msu.read = .failed ∧ (holding 99).msu.rearmEnd ≠ none :=
  ⟨rfl, rfl, rfl, by decide, by decide, rfl, by decide⟩

/-- Slot 0 is the slot before the OPEN one, slot 1, in recording 4; `pre` s of pre-roll and `post` s of post-roll. -/
def rolled (pre post : Nat) : State :=
  let s := struck 7
  { s with
    msu := { s.msu with tickImp := { s.msu.tickImp with pre := pre, post := post } }
    sdr := { s.sdr with entries := [{ closedEntry 5 false with recId := some 4 }, openEntry, emptyEntry] } }

theorem witness_ImpactQualifies_locks : ∀ pre post,
    let s := rolled pre post
    Awake s ∧ PortLaw s ∧ s.msu.read = .good impactSample ∧ s.msu.rearmEnd = none ∧ s.cwr.writer = .recording ∧
      (openSlot s).or (closingSlot s) = some 1 ∧ entryAt s 1 = some openEntry ∧ openEntry.openTime = some 0 ∧
      openEntry.sequence = some 6 ∧ LocksSequenced s.sdr.entries ∧ s.lnk.recordMask.getLsbD 0 = true ∧
      s.lnk.recordMask.getLsbD 1 = true ∧ s.cwr.port = none ∧ s.sdr.geo = some (region 3) := by
  intro pre post
  refine ⟨rfl, portLaw_free (s := rolled pre post) (show Writer.recording ≠ .emergencyClose by decide) rfl, rfl, rfl, rfl,
    rfl, rfl, rfl, rfl, ⟨?_, ?_⟩, (by decide : up.lnk.recordMask.getLsbD 0 = true),
    (by decide : up.lnk.recordMask.getLsbD 1 = true), rfl, rfl⟩
  · intro e he h
    simp only [rolled, List.mem_cons, List.not_mem_nil, or_false] at he
    obtain rfl | rfl | rfl := he <;> exact nomatch h
  · intro j k h
    match j, h with
    | 0, h => exact nomatch h
    | 1, h => exact nomatch h
    | 2, h => exact nomatch h
    | _ + 3, h => exact nomatch h
/-- With no pre-roll the candidate is the OPEN slot alone. -/
theorem witness_ImpactQualifies_alone : ∀ now : Word, ¬ (now - 0).toNat < (rolled 0 5).msu.tickImp.pre * 4096 :=
  fun _ => Nat.not_lt_zero _
/-- With one the slot before it joins: its sequence, 5, is the greatest below 6 in its recording. -/
theorem witness_ImpactQualifies_before :
    let s := rolled 1 5
    (s.now - 0).toNat < s.msu.tickImp.pre * 4096 ∧
      ∃ y p, s.sdr.entries[0]? = some y ∧ y.sequence = some p ∧ p < 6 ∧ y.recId = openEntry.recId ∧
        ∀ k z r, s.sdr.entries[k]? = some z → z.sequence = some r → r < 6 → r < p ∨ (r = p ∧ 0 ≤ k) := by
  refine ⟨by decide, _, 5, rfl, rfl, by decide, rfl, ?_⟩
  intro k z r hz hr hlt
  match k with
  | 0 => cases (Option.some.inj hz); cases (Option.some.inj hr); exact .inr ⟨rfl, Nat.le_refl _⟩
  | 1 => cases (Option.some.inj hz); cases (Option.some.inj hr); exact absurd hlt (by decide)
  | 2 => cases (Option.some.inj hz); exact nomatch hr
  | _ + 3 => exact nomatch hz

theorem witness_PathLawIsKept : PathLaw (moving.withPending [.tick]) ∧
    ∃ t, step (moving.withPending [.tick]) = .next t :=
  ⟨⟨show Int.natAbs (40000 - 30000) ≤ 262144 by decide, show Int.natAbs (0 - 0) ≤ 262144 by decide,
    show Int.natAbs (0 - 0) ≤ 262144 by decide⟩, _, rfl⟩

def stepping : State := { moving with csu := { moving.csu with step := ⟨20, 0, 0⟩ } }

theorem witness_StepLawIsKept : StepLaw (stepping.withPending [.actParkOn 7 1]) ∧ stepping.csu.step.sx ≠ 0 ∧
    ∃ t, step (stepping.withPending [.actParkOn 7 1]) = .next t := by
  refine ⟨fun c => ?_, by decide, _, rfl⟩
  cases c with
  | sx => exact fun _ => ⟨rfl, rfl, goodFields, rfl, by decide, by decide, by decide⟩
  | sy => exact fun h => absurd rfl h
  | rt => exact fun h => absurd rfl h

def sampling (now : Word) : State := { moving with now := now, csu := { moving.csu with frame := 5, sample := some ⟨5, 100⟩ } }

theorem witness_FsyncEdgeCountsFrame : Awake up ∧ up.csu.sample = none ∧ up.ctx.pendingSwitch = none ∧ up.msu.stab = .off ∧
    moving.csu.sample = none ∧ moving.msu.stab ≠ .off ∧ activeFields moving = some goodFields ∧ goodFields.readout ≠ 0#8 ∧
    (sampling 99).csu.sample = some ⟨5, 100⟩ ∧ (sampling 99).ctx.pendingSwitch = none ∧ (sampling 99).msu.stab ≠ .off ∧
    activeFields (sampling 99) = some goodFields :=
  ⟨rfl, rfl, rfl, rfl, rfl, by decide, rfl, by decide, rfl, rfl, by decide, rfl⟩
theorem witness_FsyncEdgeCountsFrame_at_once :
    let s := { up with msu := { up.msu with stab := .standby } }
    s.csu.sample = none ∧ s.msu.stab ≠ .off ∧ ∀ f, activeFields s = some f → f.readout = 0#8 :=
  ⟨rfl, by decide, fun _ h => nomatch h⟩

theorem witness_CropSampleMakesRecord :
    let s := { sampling 100 with
      sdr := recording.sdr
      cwr := recording.cwr
      lnk := { up.lnk with req := some (.frameGet 7 5 90) } }
    Awake s ∧ PortLaw s ∧ s.csu.sample = some ⟨5, 100⟩ ∧ (s.now - 100).toNat < 2147483648 ∧
      2147483648 ≤ ((sampling 99).now - 100).toNat ∧ s.msu.stab = .running ∧ activeFields s = some goodFields ∧
      s.cwr.writer = .recording ∧ openSlot s = some 1 ∧ s.lnk.req = some (.frameGet 7 5 90) :=
  ⟨rfl, portLaw_of (by decide) (fun _ => by simp), rfl, by decide, by decide, rfl, rfl, rfl, rfl, rfl⟩

/-- The slot's motion area of 32 records and the list of 128: with room for one more, and full. -/
theorem witness_CropSampleMakesRecord_intake :
    let s (n m : Nat) : State := { recording with cbf := ⟨[], 0, [⟨1, n⟩], List.replicate m ⟨1, ⟨9, 0, 0, 0, 0, 0⟩⟩⟩ }
    openSlot (s 0 0) = some 1 ∧ motionCapacity (s 0 0) = 32 ∧ arbitrating (s 0 0).cwr.writer = true ∧
      ((s 31 127).cbf.pend.length < 128 ∧ admittedOf 1 (s 31 127).cbf.admitted < motionCapacity (s 31 127)) ∧
      ¬ (s 0 128).cbf.pend.length < 128 ∧ ¬ admittedOf 1 (s 32 0).cbf.admitted < motionCapacity (s 32 0) := by
  decide +kernel

/-- Frame 5 counted, the record of frame 4 in the ring. -/
def ringed (sample : Option PendingSample) : State :=
  { moving with csu := { moving.csu with frame := 5, ring := [⟨4, 0, 0, 0, 0, 0⟩], sample := sample } }

theorem witness_FrameGetCases : Takes up ∧ up.msu.stab = .off ∧ Takes (ringed none) ∧ (ringed none).msu.stab ≠ .off ∧
    (¬ ∀ r ∈ (ringed none).csu.ring, r.frame ≠ 4#32) ∧ (∀ r ∈ (ringed none).csu.ring, r.frame ≠ 5#32) ∧
    (5#32 - (ringed none).csu.frame).toInt = 0 ∧ (ringed none).csu.sample = none ∧
    (ringed (some ⟨5, 9⟩)).csu.sample ≠ none ∧ (6#32 - (ringed none).csu.frame).toInt = 1 ∧
    2 ≤ (7#32 - (ringed none).csu.frame).toInt ∧ (3#32 - (ringed none).csu.frame).toInt < 0 :=
  ⟨⟨rfl, rfl, rfl⟩, rfl, ⟨rfl, rfl, rfl⟩, by decide, by decide, by decide, by decide, rfl, by decide, by decide, by decide,
    by decide⟩
theorem witness_FrameGetCases_timeout :
    let s (now : Word) : State := { moving with now := now, lnk := { up.lnk with req := some (.frameGet 7 1 0) } }
    Awake (s 410) ∧ (s 410).lnk.req = some (.frameGet 7 1 0) ∧ 410 ≤ ((s 410).now - 0).toNat ∧
      ((s 409).now - 0).toNat < 410 := ⟨rfl, rfl, by decide, by decide⟩

/-- A switch to context 1 waits for the next frame edge. -/
def pendingTo1 : State := { moving with ctx := { moving.ctx with pendingSwitch := some ⟨.c1, false⟩ } }

theorem witness_ContextsAreWrittenAndRead : Takes moving ∧ 4 ≤ (4#8).toNat ∧ (0#8).toNat = ctxCode .c0 ∧
    moving.ctx.active = some .c0 ∧ (3#8).toNat = ctxCode .c3 ∧ moving.ctx.active ≠ some .c3 ∧
    (¬ ∃ w, moving.ctx.pendingSwitch = some w ∧ w.index = .c3) ∧ (1#8).toNat = ctxCode .c1 ∧
    (∃ w, pendingTo1.ctx.pendingSwitch = some w ∧ w.index = .c1) :=
  ⟨⟨rfl, rfl, rfl⟩, by decide, rfl, rfl, rfl, by decide, (fun ⟨_, h, _⟩ => nomatch h), rfl, _, rfl, rfl⟩

/-- Context 1 is good and not active; context 0 is active and links to it. -/
def linked (stab : Stab) : State :=
  { moving with
    msu := { moving.msu with stab := stab }
    ctx := { moving.ctx with
      t0 := ⟨goodFields, none, some .c1⟩
      t1 := ⟨goodFields, some ⟨50000, 0, 0⟩, none⟩ } }

/-- A switch to a good context 1 waits, of a CTX_RETURN or of a CTX_SELECT. -/
def commits (ret : Bool) : State :=
  { linked .running with ctx := { (linked .running).ctx with pendingSwitch := some ⟨.c1, ret⟩ } }

/-- In each of the two a pending switch ends, in `pendingTo1` in a fault and in `commits` in a commit. -/
theorem witness_pending_switches : firstBad (ctxGet pendingTo1.ctx .c1).fields ≠ none ∧
    pendingTo1.ctx.pendingSwitch = some ⟨.c1, false⟩ ∧ pendingTo1.msu.stab = .running ∧
    ∀ ret, firstBad (ctxGet (commits ret).ctx .c1).fields = none ∧
      (commits ret).ctx.pendingSwitch = some ⟨.c1, ret⟩ ∧ (commits ret).msu.stab = .running := by decide

theorem witness_StabSetByState_pending : Takes pendingTo1 ∧ pendingTo1.msu.stab = .running ∧
    ∀ ret, Takes (commits ret) ∧ (commits ret).msu.stab = .running :=
  ⟨⟨rfl, rfl, rfl⟩, rfl, fun _ => ⟨⟨rfl, rfl, rfl⟩, rfl⟩⟩

theorem witness_SensorFaultAndBiasTicks_pending : ∀ ret,
    let s := readOf .failed { commits ret with msu := { moving.msu with missing := 15 } }
    Awake s ∧ s.msu.read = .failed ∧ s.msu.fault = false ∧ 15 ≤ s.msu.missing ∧ s.msu.winCount < 4096 ∧
      s.msu.stab = .running ∧ s.ctx.pendingSwitch = some ⟨.c1, ret⟩ ∧ activeFields s = some goodFields := by
  intro ret
  cases ret <;> exact ⟨rfl, rfl, rfl, by decide, by decide, rfl, rfl, rfl⟩

/-- At the frame edge: a switch that commits, a sample of frame 5 still pending, and a channel a step may stand on. -/
theorem witness_FsyncEdgeCountsFrame_switch : ∀ ret,
    let s := { commits ret with csu := { moving.csu with frame := 5, sample := some ⟨5, 100⟩, step := ⟨70, 0, 0⟩ } }
    Awake s ∧ PortLaw s ∧ s.ctx.pendingSwitch = some ⟨.c1, ret⟩ ∧ s.msu.stab = .running ∧ s.csu.sample = some ⟨5, 100⟩ ∧
      (ctxGet s.ctx .c1).fields.mode ≠ 1#8 ∧ (axisOf (ctxGet s.ctx .c1).fields.gain .sx).toNat ≠ 0 ∧
      (chanGet s.adu .sx).st = .active ∧ (axisOf (ctxGet s.ctx .c1).fields.gain .sy).toNat = 0 := by
  intro ret
  cases ret <;> exact ⟨rfl, portLaw_free (by decide) rfl, rfl, rfl, rfl, by decide, by decide, rfl, rfl⟩
theorem witness_FsyncEdgeCountsFrame_fault : Awake pendingTo1 ∧ PortLaw pendingTo1 ∧
    pendingTo1.ctx.pendingSwitch = some ⟨.c1, false⟩ ∧ firstBad (ctxGet pendingTo1.ctx .c1).fields ≠ none :=
  ⟨rfl, portLaw_free (by decide) rfl, rfl, by decide⟩

theorem witness_ContextSwitches_select : Takes (linked .standby) ∧ 4 ≤ (4#8).toNat ∧ (1#8).toNat = ctxCode .c1 ∧
    (linked .standby).ctx.active = some .c0 ∧ (linked .standby).ctx.active ≠ some .c1 ∧
    pendingTo1.ctx.pendingSwitch ≠ none ∧ (linked .running).ctx.pendingSwitch = none ∧
    (linked .running).msu.stab = .running ∧ (linked .standby).msu.stab ≠ .running ∧
    firstBad (ctxGet (linked .standby).ctx .c1).fields = none ∧
    (∃ c, firstBad (ctxGet (linked .standby).ctx .c2).fields = some c) :=
  ⟨⟨rfl, rfl, rfl⟩, by decide, rfl, rfl, by decide, by decide, rfl, rfl, by decide, rfl, _, rfl⟩
theorem witness_ContextSwitches_return : Takes moving ∧
    (∀ o, moving.ctx.active = some o → (ctxGet moving.ctx o).link = none) ∧ Takes (linked .standby) ∧
    (linked .standby).ctx.active = some .c0 ∧ (ctxGet (linked .standby).ctx .c0).link = some .c1 ∧
    (linked .standby).ctx.pendingSwitch = none :=
  ⟨⟨rfl, rfl, rfl⟩, (fun o h => by cases (Option.some.inj h); rfl), ⟨rfl, rfl, rfl⟩, rfl, rfl, rfl⟩
/-- A return made at once in OFF and in STANDBY: to a good context, and to one never written. -/
theorem witness_ContextSwitches_return_at_once : ∀ stab, stab = Stab.off ∨ stab = .standby →
    let s := linked stab
    let u := { s with ctx := { s.ctx with t0 := ⟨goodFields, none, some .c2⟩ } }
    (Takes s ∧ s.ctx.active = some .c0 ∧ (ctxGet s.ctx .c0).link = some .c1 ∧ CtxIx.c1 ≠ .c0 ∧ s.ctx.pendingSwitch = none ∧
      s.msu.stab ≠ .running ∧ firstBad (ctxGet s.ctx .c1).fields = none) ∧
      Takes u ∧ u.ctx.active = some .c0 ∧ (ctxGet u.ctx .c0).link = some .c2 ∧ CtxIx.c2 ≠ .c0 ∧
        u.ctx.pendingSwitch = none ∧ u.msu.stab ≠ .running ∧
        firstBad (ctxGet u.ctx .c2).fields = some ⟨1, 0, 1, 2⟩ := by
  rintro stab (rfl | rfl) <;>
    exact ⟨⟨⟨rfl, rfl, rfl⟩, rfl, rfl, by decide, rfl, by decide, rfl⟩, ⟨rfl, rfl, rfl⟩, rfl, rfl, by decide, rfl, by decide,
      rfl⟩
theorem witness_ContextSwitches_return_same :
    let s := { moving with ctx := { moving.ctx with t0 := ⟨goodFields, none, some .c0⟩ } }
    Takes s ∧ s.ctx.active = some .c0 ∧ (ctxGet s.ctx .c0).link = some .c0 ∧ s.ctx.pendingSwitch = none :=
  ⟨⟨rfl, rfl, rfl⟩, rfl, rfl, rfl⟩

def drive (st : ChanState) (s : State) : State := { s with adu := { s.adu with sx := { s.adu.sx with st := st } } }

def dieAt (tDie : Int) (d : DieSides) (s : State) : State := { s with scn := { s.scn with tDie := ⟨tDie, [tDie]⟩, die := d } }

theorem witness_ActEnableSwitchesChannels : Takes up ∧ 8 ≤ (8#8).toNat ∧ (7#8).toNat < 8 ∧
    (1#8 ≠ 0#8 ∧ ((dieAt 1050 ⟨true, true, true⟩ up).scn.die.b105 = true)) ∧
    (1000 ≤ (dieAt 1000 ⟨true, true, false⟩ (drive .thermal up)).scn.tDie.latest ∧
      ∃ c, named 1#8 c = true ∧ (chanGet (dieAt 1000 ⟨true, true, false⟩ (drive .thermal up)).adu c).st = .thermal) ∧
    (∀ mask : Byte, ¬ (mask ≠ 0#8 ∧ (up.scn.die.b105 = true ∨
      (1000 ≤ up.scn.tDie.latest ∧ ∃ c, named mask c = true ∧ (chanGet up.adu c).st = .thermal)))) :=
  ⟨⟨rfl, rfl, rfl⟩, by decide, by decide, ⟨by decide, rfl⟩, ⟨by decide, .sx, rfl, rfl⟩,
    fun _ h => h.2.elim (fun e => nomatch e) fun e => absurd e.1 (by decide)⟩

theorem witness_ActSettingsAreStored : Takes moving ∧ 1 < (2#8).toNat ∧ 2 < (3#8).toNat ∧ (1#8).toNat ≤ 1 ∧
    (2#8).toNat = chanCode .rt ∧ 8 ≤ (8#8).toNat ∧ (7#8).toNat < 8 ∧ 7#8 ≠ 0#8 ∧ ∃ mask : Byte, mask = 0#8 :=
  ⟨⟨rfl, rfl, rfl⟩, by decide, by decide, by decide, by decide, by decide, by decide, by decide, _, rfl⟩

theorem witness_ActParkAddsAndRemovesHost : Takes moving ∧ 8 ≤ (8#8).toNat ∧ (7#8).toNat < 8 :=
  ⟨⟨rfl, rfl, rfl⟩, by decide⟩

/-- SX driven above its limit, `q` cycles of 48 MHz qualified. -/
def overloaded (q : Nat) (retry : Bool) : State :=
  { moving with adu := { moving.adu with sx :=
      { moving.adu.sx with comparator := true, qual := q, cfg := { ChanSettings.powerOn with retry := retry, delay := 4 } } } }

def waitingRetry (now : Word) : State :=
  { up with now := now, adu := { up.adu with sx := { up.adu.sx with st := .retryWait, retryEnd := some 100 } } }

def running (now : Word) : State :=
  { moving with now := now, adu := { moving.adu with sx := { moving.adu.sx with cleanStart := some 0 } } }

theorem witness_DriveOvercurrentAndRetry_fault : Awake (overloaded 0 true) ∧
    (chanGet (overloaded 0 true).adu .sx).st = .active ∧ (chanGet (overloaded 0 true).adu .sx).comparator = true ∧
    max (chanGet (overloaded 0 true).adu .sx).qual 9599 < (chanGet (overloaded 0 true).adu .sx).cfg.delay * 2400 ∧
    (chanGet (overloaded 0 true).adu .sx).cfg.delay * 2400 ≤ max (chanGet (overloaded 0 true).adu .sx).qual 9600 ∧
    (chanGet (overloaded 0 true).adu .sx).cfg.retry = true ∧ 0 < (chanGet (overloaded 0 true).adu .sx).attempts ∧
    (chanGet (overloaded 0 false).adu .sx).cfg.retry = false ∧ (chanGet up.adu .sx).comparator = false :=
  ⟨rfl, rfl, rfl, by decide, by decide, rfl, by decide, rfl, rfl⟩
/-- R54: both outputs at the boundary of the duty ticks, and in a park's final period. -/
theorem witness_DriveOvercurrentAndRetry_bridge :
    let ch (st : ChanState) (final : Bool) (count : Nat) (v : Int) : Channel :=
      { Channel.reset with st := st, finalPeriod := final, periodCount := count, duty := 39, applied := v }
    bridge (ch .active false 38 20) = (true, false) ∧ bridge (ch .active false 39 20) = (false, false) ∧
      bridge (ch .parked true 38 (-20)) = (false, true) ∧ bridge (ch .parked false 38 (-20)) = (false, false) := by decide
theorem witness_DriveOvercurrentAndRetry_expiries : Awake (waitingRetry 100) ∧
    (chanGet (waitingRetry 100).adu .sx).st = .retryWait ∧ (chanGet (waitingRetry 100).adu .sx).retryEnd = some 100 ∧
    ((waitingRetry 100).now - 100).toNat < 2147483648 ∧ 2147483648 ≤ ((waitingRetry 99).now - 100).toNat ∧
    (chanGet (running 40960).adu .sx).cleanStart = some 0 ∧ 40960 ≤ ((running 40960).now - 0).toNat ∧
    ((running 40959).now - 0).toNat < 40960 :=
  ⟨rfl, rfl, rfl, by decide, by decide, rfl, by decide, by decide⟩

/-- The scan at slot `k`. -/
def atSlot (k : Nat) (s : State) : State := { s with scn := { s.scn with slot := k } }

theorem witness_ScanConversionsTakeReadings : ∀ k, Awake (atSlot k up) ∧ (atSlot k up).scn.slot = k := fun _ => ⟨rfl, rfl⟩

/-- Slot 7, the battery present or absent, its counts as given. -/
def battery (present : Bool) (openCount validCount : Nat) : State :=
  { up with scn := { up.scn with slot := 7, battery := present, openCount := openCount, validCount := validCount } }

theorem witness_BatteryComesAndGoes : Awake (battery true 0 0) ∧ (battery true 0 0).scn.slot = 7 ∧
    (battery true 0 0).scn.battery = true ∧ (battery true 0 0).scn.openCount = 0 ∧
    1 ≤ (battery true 1 0).scn.openCount ∧ (battery false 0 6).scn.battery = false ∧
    (battery false 0 6).scn.validCount < 7 ∧ 7 ≤ (battery false 0 7).scn.validCount :=
  ⟨rfl, rfl, rfl, rfl, by decide, rfl, by decide, by decide⟩

theorem witness_DieZonesAndShutdown : Awake (atSlot 8 moving) ∧ (atSlot 8 moving).scn.slot = 8 := ⟨rfl, rfl⟩
theorem witness_DieZonesAndShutdown_entry :
    let s := dieAt 1049 ⟨true, true, false⟩ (atSlot 8 moving)
    Awake s ∧ s.scn.slot = 8 ∧ s.scn.die.b105 = false ∧ ¬ (1050 : Int) ≤ max (-400) (min 1500 1049) ∧
      (1050 : Int) ≤ max (-400) (min 1500 1050) ∧ s.adu.sx.st ≠ .off ∧ s.adu.sx.st ≠ .thermal ∧ s.adu.sy.st = .off ∧
      s.lnk.recordMask.getLsbD 4 = true ∧ s.lnk.recordMask.getLsbD 9 = true :=
  ⟨rfl, rfl, rfl, by decide, by decide, by decide, by decide, rfl, rfl, rfl⟩
/-- R147: the draw of the start-up, from the higher input, and of a selected source. -/
theorem witness_RoundEndSelectsInput_draw :
    let s := { up with scn := { up.scn with usb := 5000, aux := 4999 } }
    s.ips.sel = none ∧ s.scn.aux < s.scn.usb ∧ inputStage s = ⟨.usb, 100⟩ ∧
      inputStage { up with scn := { up.scn with usb := 4999, aux := 5000 } } = ⟨.aux, 100⟩ ∧
      inputStage { up with ips := { up.ips with sel := some .aux, iEff := 500 } } = ⟨.aux, 500⟩ := by decide
theorem witness_RoundEndSelectsInput : Awake (atSlot 8 up) ∧ (atSlot 8 up).scn.slot = 8 ∧
    (atSlot 8 up).lnk.recordMask.getLsbD 7 = true := ⟨rfl, rfl, rfl⟩

/-- A round end with USB selected, in the cycle phase given. -/
def charger (cycle : Option Cycle) (phase : Phase) (vBat : Int) : State :=
  { up with
    scn := { up.scn with slot := 8, usb := 5000, vIn := ⟨5000, [5000]⟩, battery := true, batZone := .normal
                         vBat := ⟨vBat, [vBat]⟩ }
    ips := { up.ips with usb := ⟨true, 0, 0⟩, sel := some .usb, iEff := 500 }
    chg := { up.chg with phase := phase, cycle := cycle } }

theorem witness_RoundEndDrivesCharger : Awake (charger (some .fastCc) .fastCc 4180) ∧
    (charger (some .fastCc) .fastCc 4180).scn.slot = 8 ∧
    dieCross (charger (some .fastCc) .fastCc 4180).scn.die (max (-400) (min 1500 300)) =
      (charger (some .fastCc) .fastCc 4180).scn.die ∧
    (charger (some .fastCc) .fastCc 4180).chg.latch = none ∧ (charger (some .fastCc) .fastCc 4180).scn.battery = true ∧
    (charger (some .fastCc) .fastCc 4180).chg.enable = true ∧
    pauseEmpty (charger (some .fastCc) .fastCc 4180).chg.pause = true ∧
    (charger (some .fastCc) .fastCc 4180).chg.fastTicks < (charger (some .fastCc) .fastCc 4180).chg.fastTimer * 245760 ∧
    inputAvg (charger (some .fastCc) .fastCc 4180).scn.vBat = 4180 ∧
    (after (.scanConversion (.value 300)) (charger (some .fastCc) .fastCc 4180) fun t => (t.ips.sel, t.chg.phase)) =
      some (some .usb, .fastCv) := ⟨rfl, rfl, rfl, rfl, rfl, rfl, rfl, by decide, rfl, rfl⟩
theorem witness_RoundEndDrivesCharger_cycles :
    (charger none .noInput 3000).chg.cycle = none ∧ (charger (some .done) .done 4079).chg.cycle = some .done ∧
    inputAvg (charger (some .done) .done 4079).scn.vBat < 4200 - 120 ∧
    (4200 - 120 : Int) ≤ inputAvg (charger (some .done) .done 4080).scn.vBat ∧
    (charger (some .precharge) .precharge 2999).chg.preTicks < 7372800 ∧
    (charger (some .fastCv) .fastCv 4200).chg.termination ≤ 50 ∧ up.ips.sel = none := by decide

/-- A reason added in FAST_CC pauses, the same reason or one in NO_INPUT does not; at the round end, at the T_BAT
conversion and at a fall of the rail. A die boundary crossed at the round end. -/
theorem witness_reasons_pause :
    let g (p : PauseSet) (phase : Phase) : Chg := { up.chg with phase := phase, pause := p }
    let cold : PauseSet := ⟨true, false, false, false⟩
    pausesAt cold (g ⟨false, false, false, false⟩ .fastCc) = true ∧ pausesAt cold (g cold .fastCc) = false ∧
      pausesAt cold (g ⟨false, false, false, false⟩ .noInput) = false ∧
      dieZone (dieCross up.scn.die 850) ≠ dieZone up.scn.die ∧ (dieCross up.scn.die 850).b85 = true ∧
      dieZone (dieCross up.scn.die 699) = dieZone up.scn.die ∧
      targetAfter .cool false .fastCc 500 = 250 ∧ targetAfter .cool true .fastCc 500 = 125 ∧
      targetAfter .normal false .precharge 500 = 50 := by decide

/-- R162: the charge stage in FAST_CV at the default target, in FAST_CC, and at a command of 0. -/
theorem witness_RoundEndDrivesCharger_stage :
    let s (c : Nat) (p : Phase) : State := { up with chg := { up.chg with phase := p, iCmd := c } }
    chargeStage (s 25 .fastCv) = .hold 4200 25 ∧ chargeStage (s 25 .fastCc) = .deliver 25 ∧
      chargeStage (s 0 .fastCv) = .none := by decide
/-- 4,350 mV is no overvoltage, 4,351 mV is; the event class is recorded. -/
theorem witness_RoundEndDrivesCharger_overvoltage :
    (charger (some .fastCv) .fastCv 4351).chg.fastTicks < 117964800 ∧
    (4200 + 150 : Int) < inputAvg (charger (some .fastCv) .fastCv 4351).scn.vBat ∧
    inputAvg (charger (some .fastCv) .fastCv 4350).scn.vBat ≤ 4200 + 150 ∧
    (charger (some .fastCv) .fastCv 4351).lnk.recordMask.getLsbD 6 = true := by decide

/-- R155: a lower target voltage waits for the next notice: the stage and STATUS bit 8 hold the old one until then. -/
theorem test_charge_set_target_waits :
    let s : State := { charger (some .fastCv) .fastCv 4100 with
      chg := { (charger (some .fastCv) .fastCv 4100).chg with iCmd := 100 } }
    after (.chargeSet 7 1 4100 500 50 240) s (fun t => (t.chg.target, chargeStage t, effTarget t)) =
      some (4100, .hold 4200 100, 4200) := by decide
theorem test_notice_uses_target :
    let s : State := { charger (some .fastCv) .fastCv 4100 with
      chg := { (charger (some .fastCv) .fastCv 4100).chg with target := 4100 } }
    after (.scanConversion (.value 300)) s (fun t => (t.chg.targetInUse, effTarget t)) = some (4100, 4100) := by decide

theorem witness_PowerSettingsAreStored : Takes up ∧ 1 < (2#8).toNat ∧ (1#8).toNat ≤ 1 ∧ (0#8 ≠ 1#8 ∧ 0#8 ≠ 2#8) ∧
    (1#8).toNat = srcCode .usb ∧ (2#8).toNat = srcCode .aux := ⟨⟨rfl, rfl, rfl⟩, by decide⟩

theorem witness_PowerSettingsAreStored_ends : Takes (charger (some .fastCc) .fastCc 4000) ∧
    (charger (some .fastCc) .fastCc 4000).chg.phase ≠ .noInput ∧
    (charger (some .fastCc) .fastCc 4000).chg.phase ≠ .noBattery ∧
    (charger (some .fastCc) .fastCc 4000).chg.phase ≠ .disabled := ⟨⟨rfl, rfl, rfl⟩, by decide, by decide, by decide⟩

/-- A fast current lowered in FAST_CC, below the command and above it; in NO_INPUT nothing is lowered. -/
theorem witness_PowerSettingsAreStored_lowers :
    let s := charger (some .fastCc) .fastCc 4000
    (s.chg.phase = .precharge ∨ s.chg.phase = .fastCc ∨ s.chg.phase = .fastCv) ∧
      targetAfter s.scn.batZone s.scn.die.b70 s.chg.phase 300 = 300 ∧ min 500 (300 / 25 * 25) = 300 ∧
      min 200 (300 / 25 * 25) = 200 ∧ up.chg.phase = .noInput ∧ charging up.chg.phase = false := by decide

/-- A charge command of 500 mA under a derated target of 500 mA and 600 mA available. -/
def chargingNow : State :=
  let s := charger (some .fastCc) .fastCc 4000
  { s with chg := { s.chg with iCmd := 500, iAvail := 600, derated := 500 } }

theorem witness_ChargeLawIsKept : ChargeLaw (chargingNow.withPending [.railBelowWarn]) ∧
    ∃ t, step (chargingNow.withPending [.railBelowWarn]) = .next t := by
  refine ⟨?_, _, rfl⟩
  exact (if_pos rfl).mpr ⟨show (500 : Nat) ≤ 500 by decide, show (500 : Nat) ≤ 600 by decide⟩

theorem witness_SupplyLawIsKept : SupplyLaw (moving.withPending [.railBelowWarn]) ∧
    (moving.adu.sx.st = .active) ∧ ∃ t, step (moving.withPending [.railBelowWarn]) = .next t := by
  refine ⟨⟨fun c => ?_, ?_, fun h => absurd h (by decide), fun _ => rfl⟩, rfl, _, rfl⟩
  · cases c <;> exact ⟨⟨(fun h => nomatch h), fun h => absurd rfl h⟩, fun _ => rfl⟩
  · exact ⟨(fun h => nomatch h), fun h => absurd rfl h⟩

/-- The geometry of two slots of 130 blocks from block 100. -/
theorem witness_MountAndUnmount_mount :
    let s := { up with cwr := { up.cwr with present := true } }
    Takes s ∧ 1 < (2#8).toNat ∧ (1#8).toNat ≤ 1 ∧ s.cwr.writer = .unmounted ∧ s.cwr.present = true ∧
      up.cwr.present = false ∧ ready.cwr.writer ≠ .unmounted ∧ ready.cwr.writer ≠ .fault ∧
      (1#16 ≠ 0#16 ∧ ¬ 4096 < (4096#16).toNat ∧ ¬ 4294967296 < (4294967295#32).toNat + (1#32).toNat ∧
        ¬ min 256 ((260#32).toNat / (1 + 128 * (1#16).toNat + (1#16).toNat)) < 2) ∧
      4096 < (4097#16).toNat ∧ 4294967296 < (4294967295#32).toNat + (2#32).toNat ∧
      min 256 ((259#32).toNat / (1 + 128 * (1#16).toNat + (1#16).toNat)) < 2 :=
  ⟨⟨rfl, rfl, rfl⟩, by decide, by decide, rfl, rfl, rfl, by decide, by decide, by decide, by decide, by decide, by decide⟩
theorem witness_MountAndUnmount_unmount : Takes ready ∧ ready.cwr.writer = .ready ∧ ready.sdr.queue = [] ∧
    ready.cwr.port = none ∧ openSlot ready = none ∧ closingSlot ready = none ∧ ready.cbf.segs = [] ∧
    ready.cbf.pend = [] ∧ up.cwr.writer ≠ .ready ∧
    (let s := { ready with sdr := { ready.sdr with queue := [0] } }
     s.sdr.queue = 0 :: [] ∧ s.sdr.geo = some (region 3) ∧ entryAt s 0 = some (closedEntry 5 false) ∧
      (closedEntry 5 false).st = .closed) :=
  ⟨⟨rfl, rfl, rfl⟩, rfl, rfl, rfl, rfl, rfl, rfl, rfl, by decide, rfl, rfl, rfl, rfl⟩

/-- READY with the header updates of `queue` to write, and an UNMOUNT held when `held`. -/
def updating (queue : List Nat) (held : Bool) : State :=
  { ready with
    sdr := { ready.sdr with queue := queue }
    lnk := { up.lnk with req := if held then some (.unmount 7) else none } }

/-- An UNMOUNT that finds the port free or at a read nobody waits for, or at a header update. -/
theorem witness_MountAndUnmount_held : CardIdle ready ∧ ready.sdr.geo ≠ none ∧ ready.sdr.queue = [] ∧
    Takes (updating [0] false) ∧ CardIdle (updating [0] false) ∧ needsUpdate (updating [0] false) 0 = true ∧
    (updating [0] false).cwr.port = none ∧ needsUpdate (updating [2] false) 2 = false ∧
    (let s := onPort (.hostRead false) 1 ready
     Takes s ∧ s.cwr.writer = .ready ∧ CardIdle s ∧ s.sdr.queue = [] ∧
      s.cwr.port = some ⟨.hostRead false, 100, 1, [], 1, 0⟩) ∧
    (let s := onPort (.headerUpdate 0) 1 ready
     Takes s ∧ CardIdle s ∧ s.cwr.port = some ⟨.headerUpdate 0, 100, 1, [], 1, 0⟩) :=
  ⟨⟨rfl, rfl, rfl, rfl⟩, by decide, rfl, ⟨rfl, rfl, rfl⟩, ⟨rfl, rfl, rfl, rfl⟩, rfl, rfl, rfl,
    ⟨⟨rfl, rfl, rfl⟩, rfl, ⟨rfl, rfl, rfl, rfl⟩, rfl, rfl⟩, ⟨rfl, rfl, rfl⟩, ⟨rfl, rfl, rfl, rfl⟩, rfl⟩
/-- A header update ends under a held UNMOUNT: with another to write, and with none. -/
theorem witness_MountAndUnmount_end : ∀ queue,
    let s := onPort (.headerUpdate 1) 1 (updating queue true)
    Awake s ∧ s.cwr.writer = .ready ∧ s.lnk.req = some (.unmount 7) ∧
      s.cwr.port = some ⟨.headerUpdate 1, 100, 1, [], 1, 0⟩ ∧ s.sdr.geo = some (region 3) ∧ CardIdle s ∧
      needsUpdate s 0 = true := fun _ => ⟨rfl, rfl, rfl, rfl, rfl, ⟨rfl, rfl, rfl, rfl⟩, rfl⟩

theorem witness_RecordingStartsAndStops_start : Takes ready ∧ ready.cwr.writer = .ready ∧ ready.sdr.nextSeq = some 7 ∧
    ready.sdr.mark = none ∧ (entryAt ready 1).map Entry.st = some .free ∧
    (∀ j < 1, (entryAt ready j).map Entry.st ≠ some .free) ∧ ready.ssv.st ≠ .emergency ∧
    ({ ready with sdr := { ready.sdr with nextSeq := none } } : State).sdr.nextSeq = none ∧ recording.cwr.writer ≠ .ready :=
  ⟨⟨rfl, rfl, rfl⟩, rfl, rfl, rfl, rfl, by decide, by decide, rfl, by decide⟩
theorem witness_RecordingStartsAndStops_emergency :
    let s := onPort (.hostRead true) 1 { ready with ssv := { up.ssv with st := .emergency } }
    Takes s ∧ s.ssv.st = .emergency ∧ s.cwr.port ≠ none ∧ openSlot s = none ∧ closingSlot s = none :=
  ⟨⟨rfl, rfl, rfl⟩, rfl, by decide, rfl, rfl⟩
/-- The port free: what the arbiter grants after a start, at the start of a close and after a stop. -/
theorem witness_RecordingStartsAndStops_grants :
    let s := { ready with ssv := { up.ssv with st := .emergency } }
    Takes s ∧ s.ssv.st = .emergency ∧ s.cwr.port = none ∧ openSlot s = none ∧ closingSlot s = none ∧
      s.sdr.geo = some (region 3) ∧ ready.cwr.port = none ∧ ready.sdr.geo = some (region 3) ∧ recording.cwr.port = none ∧
      recording.sdr.geo = some (region 3) := ⟨⟨rfl, rfl, rfl⟩, rfl, rfl, rfl, rfl, rfl, rfl, rfl, rfl, rfl⟩
theorem witness_RecordingStartsAndStops_stop :
    let s := { recording with cwr := { recording.cwr with writer := .rolling } }
    Takes recording ∧ PortLaw recording ∧ recording.cwr.writer = .recording ∧ openSlot recording = some 1 ∧ PortLaw s ∧
      s.cwr.writer = .rolling ∧ openSlot s = some 1 ∧ PortLaw ready ∧ ready.cwr.writer ≠ .recording ∧
      ready.cwr.writer ≠ .rolling :=
  ⟨⟨rfl, rfl, rfl⟩, portLaw_free (by decide) rfl, rfl, rfl, portLaw_free (by decide) rfl, rfl, rfl,
    portLaw_free (by decide) rfl, by decide, by decide⟩

/-- A slot of this region takes 65,536 stream bytes; `n` of them are assigned. -/
def assigned (n : Nat) : State := { recording with cbf := { up.cbf with assigned := n } }

theorem witness_DataIsTaken : Takes (assigned 65532) ∧ PortLaw (assigned 65532) ∧ 1 ≤ [1#8, 2, 3].length ∧
    [1#8, 2, 3].length ≤ 16384 ∧ (assigned 65532).cwr.writer = .recording ∧ openSlot (assigned 65532) = some 1 ∧
    entryAt (assigned 65532) 1 = some openEntry ∧ [1#8, 2, 3].length ≤ 4194304 - fillOf (assigned 65532).cbf.segs ∧
    (assigned 65532).cbf.assigned + [1#8, 2, 3].length < slotCapacity (assigned 65532) ∧
    closingSlot (assigned 65533) = none ∧ (assigned 65533).cbf.assigned < slotCapacity (assigned 65533) ∧
    slotCapacity (assigned 65533) ≤ (assigned 65533).cbf.assigned + [1#8, 2, 3].length ∧
    chooseSlot (setSlotState .closing 1 (assigned 65533)) = some 2 ∧ (assigned 65533).sdr.mark = none ∧
    ready.cwr.writer ≠ .recording ∧ ready.cwr.writer ≠ .rolling :=
  ⟨⟨rfl, rfl, rfl⟩, portLaw_free (by decide) rfl, by decide, by decide, rfl, rfl, rfl, by decide, by decide, rfl, by decide,
    by decide, rfl, rfl, by decide, by decide⟩
/-- The post-roll mark of an impact at part time 0 on slot 1, 5 s long, one tick before its end and at it. -/
def marked (now : Word) (quota : Nat) : State :=
  { assigned 65533 with
    now := now
    sdr := { recording.sdr with geo := some { region 3 with quota := quota }, mark := some ⟨0, [1], 5⟩ } }

theorem witness_DataIsTaken_crossing : ∀ quota,
    Takes (marked 20479 quota) ∧ PortLaw (marked 20479 quota) ∧ openSlot (marked 20479 quota) = some 1 ∧
      closingSlot (marked 20479 quota) = none ∧ chooseSlot (setSlotState .closing 1 (marked 20479 quota)) = some 2 ∧
      ((20479 : Word) - 0).toNat < 5 * 4096 ∧ ¬ ((20480 : Word) - 0).toNat < 5 * 4096 ∧
      (∀ k, (marked 20479 quota).cbf.segs.countP (fun g => g.slot == k) ≤ 1) ∧
      (marked 20479 quota).cwr.port = none ∧
      LocksSequenced (rewritten 2 (fun _ => openEntry) (marked 20479 quota).sdr.entries) := by
  intro quota
  refine ⟨⟨rfl, rfl, rfl⟩, portLaw_free (s := marked 20479 quota) (show Writer.recording ≠ .emergencyClose by decide) rfl,
    rfl, rfl, rfl, by decide, by decide, fun _ => Nat.zero_le _, rfl, ?_, ?_⟩
  · intro e he h
    have hs : (rewritten 2 (fun _ => openEntry) (marked 20479 quota).sdr.entries) =
      [closedEntry 5 false, openEntry, openEntry] := rfl
    rw [hs] at he
    simp only [List.mem_cons, List.not_mem_nil, or_false] at he
    obtain rfl | rfl | rfl := he <;> exact nomatch h
  · intro j k h
    match j, h with
    | 0, h => exact nomatch h
    | 1, h => exact nomatch h
    | 2, h => exact nomatch h
    | _ + 3, h => exact nomatch h
/-- The slot opened is locked with room in the quota, and not with a quota of 0. -/
theorem witness_DataIsTaken_post_roll : ∀ quota, quota = 1 ∨ quota = 0 →
    impactAfter quota [1, 2] [2] [closedEntry 5 false, openEntry, openEntry] 2 = (quota == 1) := by
  rintro quota (rfl | rfl) <;> rfl
theorem witness_DataIsTaken_full :
    let s := { assigned 65533 with sdr := { recording.sdr with entries :=
      [{ openEntry with st := .closing }, openEntry, closedEntry 5 true] } }
    Takes s ∧ PortLaw s ∧ openSlot s = some 1 ∧ closingSlot s ≠ none ∧
      slotCapacity s ≤ s.cbf.assigned + [1#8, 2, 3].length :=
  ⟨⟨rfl, rfl, rfl⟩, portLaw_free (by decide) rfl, rfl, by decide, by decide⟩
theorem witness_DataIsTaken_no_slot :
    let s := { assigned 65533 with sdr := { recording.sdr with entries := [closedEntry 5 true, openEntry] } }
    Takes s ∧ PortLaw s ∧ openSlot s = some 1 ∧ closingSlot s = none ∧ chooseSlot (setSlotState .closing 1 s) = none :=
  ⟨⟨rfl, rfl, rfl⟩, portLaw_free (by decide) rfl, rfl, rfl, rfl⟩

theorem witness_DirectoryIsReadAndLocked : Takes ready ∧ PortLaw ready ∧ ready.cwr.writer ≠ .unmounted ∧
    ready.cwr.writer ≠ .mounting ∧ ready.cwr.writer ≠ .fault ∧ 1 ≤ (16#8).toNat ∧ (16#8).toNat ≤ 16 ∧
    (2#16).toNat < ready.sdr.entries.length ∧ ready.sdr.geo = some (region 3) ∧ ready.sdr.nextSeq = some 7 ∧
    ¬ (17#8).toNat ≤ 16 ∧ ¬ (3#16).toNat < ready.sdr.entries.length ∧ up.cwr.writer = .unmounted ∧
    (3#8 ≠ 1#8 ∧ 3#8 ≠ 2#8) ∧ entryAt ready 3 = none ∧ entryAt ready 0 = some (closedEntry 5 false) ∧
    (closedEntry 5 false).st ≠ .free ∧ (closedEntry 5 false).st ≠ .bad ∧ entryAt ready 1 = some emptyEntry ∧
    emptyEntry.st = .free ∧ ((2#8) = if LockKind.keep = .impact then 1#8 else 2#8) ∧
    ((1#8) = if LockKind.impact = .impact then 1#8 else 2#8) :=
  ⟨⟨rfl, rfl, rfl⟩, portLaw_free (by decide) rfl, by decide⟩

/-- A recorded slot with two records, and a cursor. -/
def motionCard (cursor : Option Cursor) : State :=
  { ready with
    sdr := { ready.sdr with entries := [{ closedEntry 5 false with motionRecords := 2 }, closedEntry 6 false, emptyEntry] }
    cwr := { ready.cwr with cursor := cursor } }

theorem witness_MotionReadsRecords_requests : Takes (motionCard none) ∧ PortLaw (motionCard none) ∧ 1 < (2#8).toNat ∧
    (1#8).toNat ≤ 1 ∧ up.cwr.writer = .unmounted ∧ (motionCard none).cwr.writer = .ready ∧ 32 < (33#8).toNat ∧
    (32#8).toNat ≤ 32 ∧ entryAt (motionCard none) 3 = none ∧
    ((entryAt (motionCard none) 0).map fun e => (e.st, e.motionRecords)) = some (.closed, 2) ∧
    ((entryAt (motionCard none) 1).map fun e => (e.st, e.motionRecords)) = some (.closed, 0) ∧
    ((entryAt (motionCard none) 2).map Entry.st) = some .free ∧ (motionCard none).cwr.cursor = none ∧
    (motionCard (some ⟨0, 1, false⟩)).cwr.cursor = some ⟨0, 1, false⟩ ∧
    (motionCard (some ⟨0, 1, true⟩)).cwr.cursor = some ⟨0, 1, true⟩ ∧
    (motionCard (some ⟨1, 0, false⟩)).cwr.cursor = some ⟨1, 0, false⟩ :=
  ⟨⟨rfl, rfl, rfl⟩, portLaw_free (by decide) rfl, by decide⟩

/-- A MOTION_READ of record 1 of slot 0, held since part time 0. -/
def heldRead (now : Word) : State :=
  onPort (.hostRead true) 1 { motionCard (some ⟨0, 1, false⟩) with
    now := now
    lnk := { up.lnk with req := some (.motionRead 7 0 1 1 0) } }

theorem witness_MotionReadsRecords_read : Awake (heldRead 0) ∧ (heldRead 0).cwr.writer ≠ .emergencyClose ∧
    (heldRead 0).cwr.port = some ⟨.hostRead true, 100, 1, [], 1, 0⟩ ∧
    (heldRead 0).lnk.req = some (.motionRead 7 0 1 1 0) ∧
    entryAt (heldRead 0) 0 = some { closedEntry 5 false with motionRecords := 2 } ∧
    (List.replicate 512 0#8).length = 512 * 1 ∧ ([] : List Byte).length ≠ 512 * 1 :=
  ⟨rfl, by decide, rfl, rfl, rfl, List.length_replicate, by decide⟩
theorem witness_MotionReadsRecords_grants : Takes (motionCard none) ∧ (motionCard none).cwr.port = none ∧
    CardIdle (motionCard none) ∧ (motionCard none).sdr.geo = some (region 3) ∧ (motionCard none).sdr.queue = [] ∧
    arbitrating (motionCard none).cwr.writer = true ∧ arbitrating (heldRead 0).cwr.writer = true :=
  ⟨⟨rfl, rfl, rfl⟩, rfl, ⟨rfl, rfl, rfl, rfl⟩, rfl, rfl, rfl, rfl⟩
theorem witness_MotionReadsRecords_unwanted :
    let s := onPort (.hostRead false) 1 ready
    Awake s ∧ s.cwr.port = some ⟨.hostRead false, 100, 1, [], 1, 0⟩ ∧ (List.replicate 512 0#8).length = 512 * 1 ∧
      arbitrating s.cwr.writer = true ∧ s.lnk.req = none := ⟨rfl, rfl, List.length_replicate, rfl, rfl⟩
theorem witness_MotionReadsRecords_timeout : Awake (heldRead 4096) ∧
    (heldRead 4096).lnk.req = some (.motionRead 7 0 1 1 0) ∧ 4096 ≤ ((heldRead 4096).now - 0).toNat ∧
    ((heldRead 4095).now - 0).toNat < 4096 := ⟨rfl, rfl, by decide, by decide⟩

/-- A mount in its pass, at slot `k` with the slots before it done. -/
def mounting (format : Bool) (op : Xfer) (done : List Entry) : State :=
  onPort op 1 { up with
    sdr := { up.sdr with geo := some { region 3 with format := format }, entries := done }
    cwr := { up.cwr with writer := .mounting, present := true, cdet := true } }

theorem witness_MountPassesSlots_bring_up : Awake (mounting false .identify []) ∧
    (mounting false .identify []).cwr.writer = .mounting ∧ (mounting false .identify []).sdr.geo = some (region 3) ∧
    ((mounting false .identify []).cwr.port.map Transfer.op) = some .identify ∧ 2 ≤ (region 3).slotCount ∧
    489 < (region 3).base + (region 3).len ∧ (region 3).base + (region 3).len ≤ 490 :=
  ⟨rfl, rfl, rfl, rfl, by decide, by decide, by decide⟩
theorem witness_MountPassesSlots_format : ∀ k ∈ [1, 2],
    let s := mounting true (.formatHeader k) (List.replicate k emptyEntry)
    Awake s ∧ PortLaw s ∧ s.cwr.writer = .mounting ∧ s.sdr.geo = some { region 3 with format := true } ∧
      (s.cwr.port.map Transfer.op) = some (.formatHeader k) ∧ k + 1 = s.sdr.entries.length + 1 ∧
      (∀ e ∈ s.sdr.entries, e.st = .free ∨ e.st = .bad) ∧ (∀ e ∈ s.sdr.entries, e.locks.impact = false) ∧
      k + 1 ≤ (region 3).slotCount := by
  intro k hk
  refine ⟨rfl, portLaw_free (s := mounting true (.formatHeader k) _) ?_ rfl, rfl, rfl, rfl, ?_, ?_, ?_, ?_⟩
  · exact fun h => nomatch (show Writer.mounting = .emergencyClose from h)
  · exact congrArg (· + 1) List.length_replicate.symm
  · exact fun e he => .inl (by rw [List.eq_of_mem_replicate he]; rfl)
  · exact fun e he => by rw [List.eq_of_mem_replicate he]; rfl
  · simp only [List.mem_cons, List.not_mem_nil, or_false] at hk
    obtain rfl | rfl := hk <;> decide
theorem witness_MountPassesSlots_scan :
    let s := mounting false (.scanRead 2) [closedEntry 5 true, emptyEntry]
    let t := mounting false (.scanRead 1) [closedEntry 5 true]
    Awake s ∧ PortLaw s ∧ s.cwr.writer = .mounting ∧ s.sdr.geo = some (region 3) ∧
      (s.cwr.port.map Transfer.op) = some (.scanRead 2) ∧ (region 3).format = false ∧ 2 = s.sdr.entries.length ∧
      2 + 1 = (region 3).slotCount ∧ 1 = t.sdr.entries.length ∧ 1 + 1 < (region 3).slotCount ∧
      (List.replicate 512 0#8).length = 512 ∧ ([] : List Byte).length ≠ 512 :=
  ⟨rfl, portLaw_free (by decide) rfl, rfl, rfl, rfl, rfl, rfl, rfl, rfl, by decide, List.length_replicate, by decide⟩
/-- A block of zeros has no header, whatever its check value. -/
theorem witness_MountPassesSlots_blank : classify (region 3) (List.replicate 512 0#8) = freeEntry := by
  have h : fieldAt (List.replicate 512 0#8) 0 4 ≠ headerMarker := by decide +kernel
  simp only [classify]
  split
  · rfl
  · rfl
/-- The further premises of the last scan read: every lock on an entry with a sequence, an empty queue. -/
theorem witness_MountPassesSlots_scan_last :
    (∀ e ∈ [closedEntry 5 true, emptyEntry] ++ [classify (region 3) (List.replicate 512 0#8)],
      e.locks.impact = true → e.sequence ≠ none) ∧
      (mounting false (.scanRead 2) [closedEntry 5 true, emptyEntry]).sdr.queue = [] := by
  rw [witness_MountPassesSlots_blank]
  exact ⟨by decide, rfl⟩
/-- Two slots with sequence 5 and three IMPACT locks for a quota of two: one conflict, and the lowest lock released. -/
theorem witness_MountPassesSlots_conflict :
    let read := [closedEntry 5 true, closedEntry 7 true, closedEntry 6 true, closedEntry 5 true]
    let es := withoutRepeats read
    es = [closedEntry 5 true, closedEntry 7 true, closedEntry 6 true, freeEntry] ∧ impactLocks es - (region 4).quota = 1 ∧
      (List.range 4).countP (repeated read) = 1 ∧ amongLowest 1 (releasable [] es) es 0 = true ∧
      amongLowest 1 (releasable [] es) es 2 = false ∧ (∀ x ∈ es, ∀ p, x.sequence = some p → p ≤ 7) := by
  refine ⟨by decide, by decide, by decide, by decide, by decide, ?_⟩
  intro x hx p hp
  have hs : withoutRepeats [closedEntry 5 true, closedEntry 7 true, closedEntry 6 true, closedEntry 5 true] =
    [closedEntry 5 true, closedEntry 7 true, closedEntry 6 true, freeEntry] := by decide
  rw [hs] at hx
  simp only [List.mem_cons, List.not_mem_nil, or_false] at hx
  obtain rfl | rfl | rfl | rfl := hx
  · cases (Option.some.inj hp); decide
  · cases (Option.some.inj hp); decide
  · cases (Option.some.inj hp); decide
  · exact nomatch hp

/-- Slot 1 CLOSING or OPEN with `n` bytes in the ring and `m` records in the list. -/
def waiting (st : SlotState) (n m : Nat) : State :=
  { recording with
    sdr := { recording.sdr with entries := [closedEntry 5 false, { openEntry with st := st }, emptyEntry] }
    cbf := ⟨[⟨1, List.replicate n 0⟩], n, [], List.replicate m ⟨1, ⟨9, 0, 0, 0, 0, 0⟩⟩⟩ }

/-- The boundaries of what is offered: 65,536 bytes and 32 records, the last of a CLOSING slot marked so. -/
theorem witness_UnitsAndBlocksComplete_offers : ∀ st, st = SlotState.opened ∨ st = .closing →
    (waiting st 65536 32).cbf.segs = [⟨1, List.replicate 65536 0⟩] ∧
    entryAt (waiting st 65536 32) 1 = some { openEntry with st := st } ∧
    (List.replicate 65536 (0 : Byte)).length = 65536 ∧ (List.replicate 65535 (0 : Byte)).length < 65536 ∧
    offeredBlock (waiting st 0 32) = some ⟨1, 0, 32, st == .closing⟩ ∧
    offeredBlock (waiting st 0 31) = (if st = .closing then some ⟨1, 0, 31, true⟩ else none) ∧
    offeredUnit up = none ∧ offeredBlock up = none := by
  intro st h
  refine ⟨rfl, rfl, List.length_replicate, ?_, ?_, ?_, rfl, rfl⟩
  · rw [List.length_replicate]; decide
  · obtain rfl | rfl := h <;> decide +kernel
  · obtain rfl | rfl := h <;> decide +kernel

theorem witness_UnitsAndBlocksComplete : ∀ op, op = Xfer.streamUnit 1 3 ∨ op = .motionBlock 1 1 →
    let s := onPort op 1 { recording with cwr := { recording.cwr with units := 15 }, cbf := ⟨[⟨1, [1, 2, 3]⟩], 3, [], []⟩ }
    Awake s ∧ PortLaw s ∧ s.cwr.writer = .recording ∧ (s.cwr.port.map Transfer.op) = some op ∧
      entryAt s 1 = some openEntry ∧ openSlot s = some 1 ∧ (s.cwr.units + 1) % 16 = 0 ∧ s.sdr.geo ≠ none ∧
      s.sdr.queue = [] ∧ openEntry.headerWritten = true := by
  rintro op (rfl | rfl) <;>
    exact ⟨rfl, portLaw_free (by decide) rfl, rfl, rfl, rfl, rfl, rfl, by decide, rfl, rfl⟩

/-- Slot 1 open in ROLLING, with a stop mark or none. -/
def rolling (mark : Option CloseReason) : State :=
  { recording with cwr := { recording.cwr with writer := .rolling, stopMark := mark } }

theorem witness_HeadersComplete : ∀ op, op = Xfer.headerUpdate 1 ∨ op = .openingHeader 1 ∨ op = .closedHeader 1 .full →
    ∀ m : Option CloseReason, m = none ∨ m = some .guard →
    Awake (onPort op 1 (rolling m)) ∧ PortLaw (onPort op 1 (rolling m)) ∧
      (onPort op 1 (rolling m)).cwr.writer = .rolling ∧ ((onPort op 1 (rolling m)).cwr.port.map Transfer.op) = some op ∧
      entryAt (onPort op 1 (rolling m)) 1 = some openEntry ∧ openSlot (onPort op 1 (rolling m)) = some 1 ∧
      (onPort op 1 (rolling m)).cwr.stopMark = m := by
  rintro op (rfl | rfl | rfl) m (rfl | rfl) <;>
    exact ⟨rfl, portLaw_free (by decide) rfl, rfl, rfl, rfl, rfl, rfl⟩
theorem witness_HeadersComplete_stopping :
    let s := onPort (.closedHeader 1 .stop) 1 { recording with
      sdr := { recording.sdr with entries := [closedEntry 5 false, { openEntry with st := .closing }] }
      cwr := { recording.cwr with writer := .stopping } }
    Awake s ∧ PortLaw s ∧ s.cwr.writer = .stopping ∧ (s.cwr.port.map Transfer.op) = some (.closedHeader 1 .stop) ∧
      entryAt s 1 = some { openEntry with st := .closing } ∧ s.cwr.recId = some 4 :=
  ⟨rfl, portLaw_free (by decide) rfl, rfl, rfl, rfl, rfl⟩

/-- A header update leaves the port: in READY, under a held UNMOUNT with more to write or none, and in a close. -/
theorem witness_HeadersComplete_port_freed : Awake (onPort (.headerUpdate 0) 1 ready) ∧
    arbitrating (onPort (.headerUpdate 0) 1 ready).cwr.writer = true ∧ ready.sdr.geo = some (region 3) ∧
    (∀ tag, ready.lnk.req ≠ some (.unmount tag)) ∧
    (∀ queue, (updating queue true).lnk.req = some (.unmount 7) ∧ CardIdle (updating queue true)) ∧
    needsUpdate (updating [0] true) 0 = true ∧ needsUpdate (updating [2] true) 2 = false :=
  ⟨rfl, rfl, rfl, (fun _ h => nomatch h), (fun _ => ⟨rfl, rfl, rfl, rfl, rfl⟩), rfl, rfl⟩

/-- An emergency close in the part and with the slots given, slot 1 of them, `op` on the port in its attempt `n`. -/
def closingWith (op : Xfer) (n : Nat) (part : ClosePart) (todo : List Nat) (left : Nat) : State :=
  onPort op n { closing with ssv := { closing.ssv with close := some ⟨20, left, part, todo, false⟩ } }

theorem portLaw_close (op : Xfer) (n : Nat) (part : ClosePart) (todo : List Nat) (left : Nat) :
    PortLaw (closingWith op n part todo left) :=
  ⟨(fun _ h => nomatch h), fun _ e => nomatch e⟩

/-- The header writes an emergency close finds on the port, with one slot and with two still to be closed. -/
theorem witness_HeadersComplete_inherited : ∀ op, op = Xfer.headerUpdate 0 ∨ op = .openingHeader 1 ∨
      op = .closedHeader 1 .full → ∀ todo,
    let s := closingWith op 1 .inherited todo 20
    Awake s ∧ PortLaw s ∧ s.cwr.writer = .emergencyClose ∧ s.ssv.close = some ⟨20, 20, .inherited, todo, false⟩ ∧
      (s.cwr.port.map Transfer.op) = some op ∧ entryAt s 1 = some { openEntry with st := .closing } ∧
      s.sdr.geo = some (region 3) ∧ ([1].filter fun k => k != 1) = [] ∧ ([1, 2].filter fun k => k != 1) = [2] :=
  fun _ _ _ => ⟨rfl, portLaw_close .., rfl, rfl, rfl, rfl, rfl, rfl, rfl⟩

/-- A transfer of the recording, in its attempt `n`, `now` ticks after its begin. -/
def attempt (op : Xfer) (n : Nat) (now : Word) : State :=
  { onPort op n { recording with now := 0 } with now := now }

theorem witness_AttemptsFail : Awake (attempt (.streamUnit 1 3) 3 1024) ∧
    (attempt (.streamUnit 1 3) 3 1024).cwr.port = some ⟨.streamUnit 1 3, 100, 1, [], 3, 0⟩ ∧
    (attempt (.streamUnit 1 3) 2 0).cwr.port = some ⟨.streamUnit 1 3, 100, 1, [], 2, 0⟩ ∧
    1024 ≤ ((attempt (.streamUnit 1 3) 3 1024).now - 0).toNat ∧
    ¬ 1024 ≤ ((attempt (.streamUnit 1 3) 3 1023).now - 0).toNat ∧
    410 ≤ ((attempt (.hostRead true) 3 410).now - 0).toNat ∧ ¬ 410 ≤ ((attempt (.hostRead true) 3 409).now - 0).toNat ∧
    (attempt (.streamUnit 1 3) 3 1024).cwr.writer = .recording ∧ (attempt (.streamUnit 1 3) 3 1024).cwr.recId = some 4 ∧
    (attempt (.streamUnit 1 3) 3 1024).lnk.recordMask.getLsbD 2 = true :=
  ⟨rfl, rfl, rfl, by decide, by decide, by decide, by decide, rfl, rfl, rfl⟩
theorem witness_AttemptsFail_reads :
    let s := { heldRead 0 with cwr := { (heldRead 0).cwr with port := some ⟨.hostRead true, 100, 1, [], 3, 0⟩ } }
    Awake s ∧ s.cwr.port = some ⟨.hostRead true, 100, 1, [], 3, 0⟩ ∧ s.cwr.writer ≠ .emergencyClose ∧
      s.lnk.req = some (.motionRead 7 0 1 1 0) := ⟨rfl, rfl, by decide, rfl⟩
theorem witness_AttemptsFail_mounts : ∀ op, op = Xfer.identify ∨ op = .scanRead 1 ∨ op = .formatHeader 1 →
    let s := onPort op 3 (mounting false op [closedEntry 5 true])
    Awake s ∧ s.cwr.port = some ⟨op, 100, 1, [], 3, 0⟩ ∧ s.sdr.geo = some (region 3) ∧ 1 + 1 < (region 3).slotCount := by
  rintro op (rfl | rfl | rfl) <;> exact ⟨rfl, rfl, rfl, by decide⟩

/-- The third failure on the last slot, of a format pass and of a header scan. -/
theorem witness_AttemptsFail_last : ∀ format,
    let op := if format = true then Xfer.formatHeader 2 else .scanRead 2
    let s := onPort op 3 (mounting format op (if format = true then [freeEntry, badEntry] else [closedEntry 5 true, badEntry]))
    Awake s ∧ PortLaw s ∧ s.cwr.writer = .mounting ∧ s.cwr.port = some ⟨op, 100, 1, [], 3, 0⟩ ∧
      s.sdr.geo = some { region 3 with format := format } ∧ 2 = s.sdr.entries.length ∧ 2 + 1 = (region 3).slotCount ∧
      s.sdr.queue = [] ∧ (format = true → (∀ e ∈ s.sdr.entries, e.st = .free ∨ e.st = .bad) ∧
        ∀ e ∈ s.sdr.entries, e.locks.impact = false) ∧
      ∀ e ∈ s.sdr.entries ++ [badEntry], e.locks.impact = true → e.sequence ≠ none := by
  intro format
  cases format
  · exact ⟨rfl, portLaw_free (by decide) rfl, rfl, rfl, rfl, rfl, rfl, rfl, (fun h => nomatch h), by decide⟩
  · exact ⟨rfl, portLaw_free (by decide) rfl, rfl, rfl, rfl, rfl, rfl, rfl, fun _ => by decide, by decide⟩

/-- The third failure of an inherited CLOSED header, and of a read that nobody waits for. -/
theorem witness_AttemptsFail_others : (closingWith (.closedHeader 1 .full) 3 .inherited [1] 20).cwr.writer =
      .emergencyClose ∧
    (closingWith (.closedHeader 1 .full) 3 .inherited [1] 20).cwr.port =
      some ⟨.closedHeader 1 .full, 100, 1, [], 3, 0⟩ ∧
    Awake (onPort (.hostRead false) 3 ready) ∧
    (onPort (.hostRead false) 3 ready).cwr.port = some ⟨.hostRead false, 100, 1, [], 3, 0⟩ ∧
    arbitrating (onPort (.hostRead false) 3 ready).cwr.writer = true ∧
    (onPort (.headerUpdate 0) 3 (updating [] true)).lnk.req = some (.unmount 7) := ⟨rfl, rfl, rfl, rfl, rfl, rfl⟩

/-- The card-detect input shows `card` against the presence since part time 0. -/
def detecting (card : Bool) (now : Word) (s : State) : State :=
  { s with now := now, cwr := { s.cwr with cdet := card, present := !card, cdetSince := some 0 } }

theorem witness_CardComesAndGoes : Awake (detecting true 20 up) ∧ (detecting true 20 up).cwr.cdetSince = some 0 ∧
    20 ≤ ((detecting true 20 up).now - 0).toNat ∧ ¬ 20 ≤ ((detecting true 19 up).now - 0).toNat ∧
    (detecting true 20 up).cwr.cdet = true ∧ (detecting true 20 up).cwr.present = false ∧
    (detecting false 20 up).cwr.cdet = false ∧ (detecting false 20 up).cwr.present = true ∧
    (detecting false 20 up).cwr.writer = .unmounted ∧ (detecting false 20 recording).cwr.writer ≠ .unmounted ∧
    (detecting false 20 recording).cwr.recId = some 4 ∧
    (detecting false 20 (heldRead 0)).lnk.req = some (.motionRead 7 0 1 1 0) :=
  ⟨rfl, rfl, by decide, by decide, rfl, rfl, rfl, rfl, rfl, by decide, rfl, rfl⟩

/-- The supply state and rail given, the ride-through timer ending at 100. -/
def supplied (st : Supply) (rail : Rail) (stable : Option Nat) (now : Word) (s : State) : State :=
  { s with now := now, ssv := { up.ssv with st := st, rail := rail, stable := stable, timerEnd := some 100 } }

theorem witness_RailMovesSupplyState_warn : Awake moving ∧ moving.ssv.st = .normal ∧
    (supplied .emergency .atRecover none 0 up).ssv.st ≠ .normal ∧ moving.chg.pause.supply = false ∧
    charging (charger (some .fastCc) .fastCc 4000).chg.phase = true :=
  ⟨rfl, rfl, by decide, rfl, rfl⟩
theorem witness_RailMovesSupplyState_recover : Awake (supplied .rideThrough .belowWarn none 0 up) ∧
    (supplied .rideThrough .belowWarn none 0 up).ssv.rail ≠ .atRecover ∧
    (supplied .rideThrough .belowWarn none 0 up).ssv.st = .rideThrough ∧ up.ssv.rail = .atRecover ∧
    (supplied .emergency .belowRecover none 0 up).ssv.st ≠ .rideThrough := ⟨rfl, by decide, rfl, rfl, by decide⟩
theorem witness_RailMovesSupplyState_expiry :
    let s := supplied .rideThrough .belowWarn none 100 (heldRead 0)
    let r := supplied .rideThrough .belowWarn none 100 (onPort (.streamUnit 1 3) 1 recording)
    Awake s ∧ s.ssv.st = .rideThrough ∧ s.ssv.timerEnd = some 100 ∧ (s.now - 100).toNat < 2147483648 ∧
      2147483648 ≤ ((99 : Word) - 100).toNat ∧ s.cwr.writer = .ready ∧ r.cwr.writer = .recording ∧ r.cwr.port ≠ none ∧
      closingSlot r = none ∧ openSlot r = some 1 :=
  ⟨rfl, rfl, rfl, by decide, by decide, rfl, rfl, by decide, rfl, rfl⟩
/-- The timer ends with the port free, the OPEN slot alone, and with a MOTION_READ held. -/
theorem witness_RailMovesSupplyState_free_port :
    let s := supplied .rideThrough .belowWarn none 100 recording
    Awake s ∧ PortLaw s ∧ s.ssv.st = .rideThrough ∧ s.ssv.timerEnd = some 100 ∧ (s.now - 100).toNat < 2147483648 ∧
      s.cwr.writer = .recording ∧ s.cwr.port = none ∧ closingSlot s = none ∧ openSlot s = some 1 ∧
      s.sdr.geo = some (region 3) :=
  ⟨rfl, portLaw_free (by decide) rfl, rfl, rfl, by decide, rfl, rfl, rfl, rfl, rfl⟩
theorem witness_RailMovesSupplyState_stable : (∃ n, (supplied .emergency .atRecover (some 262) 0 up).ssv.stable = some n ∧
    262 ≤ n) ∧ (supplied .emergency .atRecover (some 262) 0 up).ssv.st = .emergency ∧
    (supplied .emergency .atRecover (some 262) 0 up).cwr.writer ≠ .emergencyClose ∧
    (∃ n, (supplied .emergency .atRecover (some 261) 0 up).ssv.stable = some n ∧ n < 262) :=
  ⟨⟨_, rfl, by decide⟩, rfl, by decide, _, rfl, by decide⟩

theorem witness_EmergencyCloseWrites_header : Awake closing ∧ closing.cwr.writer = .emergencyClose ∧
    (closing.cwr.port.map Transfer.op) = some (.emClosed 1) ∧ closing.ssv.close = some ⟨20, 12, .header, [1], false⟩ ∧
    closing.cwr.recId = some 4 ∧ entryAt closing 1 = some { openEntry with st := .closing } ∧ closing.lnk.req = none ∧
    closing.ssv.stable = none ∧ (∀ k, pendingOf k closing.cbf.pend = 0) ∧ closing.lnk.recordMask.getLsbD 1 = true ∧
    closing.lnk.recordMask.getLsbD 2 = true := ⟨rfl, rfl, rfl, rfl, rfl, rfl, rfl, rfl, fun _ => rfl, rfl, rfl⟩
theorem witness_EmergencyCloseWrites_fails : ∀ op part, (op = Xfer.emUnit 1 3 ∧ part = ClosePart.stream) ∨
      (op = .emBlock 1 1 ∧ part = .motion) →
    let s := onPort op 1 { closing with ssv := { closing.ssv with close := some ⟨20, 2, part, [1], false⟩ } }
    Awake s ∧ s.cwr.writer = .emergencyClose ∧ (s.cwr.port.map Transfer.op) = some op ∧
      s.ssv.close = some ⟨20, 2, part, [1], false⟩ ∧ 2 ≤ 2 ∧ s.sdr.geo = some (region 3) ∧
      entryAt s 1 = some { openEntry with st := .closing } ∧ s.lnk.req = none := by
  rintro op part (⟨rfl, rfl⟩ | ⟨rfl, rfl⟩) <;> exact ⟨rfl, rfl, rfl, rfl, by decide, rfl, rfl, rfl⟩

/-- Every write of a close, done and failed, its part and its slots being what the close goes on from. -/
theorem witness_EmergencyCloseWrites_goes_on : ∀ op part todo left attempt (cbf : Cbf),
    let s := { closingWith op attempt part todo left with cbf := cbf }
    Awake s ∧ PortLaw s ∧ s.cwr.writer = .emergencyClose ∧ (s.cwr.port.map Transfer.op) = some op ∧
      (s.cwr.port.map Transfer.attempt) = some attempt ∧ s.ssv.close = some ⟨20, left, part, todo, false⟩ ∧
      entryAt s 1 = some { openEntry with st := .closing } ∧ openSlot s ≠ some 1 ∧ s.sdr.geo = some (region 3) :=
  fun _ _ _ _ _ _ => ⟨rfl, portLaw_close .., rfl, rfl, rfl, rfl, rfl, (fun h => nomatch h), rfl⟩
/-- What it goes on to at the boundaries of Figure 10.4: a reserve of 2 units for one slot. -/
theorem witness_EmergencyCloseWrites_steps :
    let s (n m : Nat) := { waiting .closing n m with sdr := { (waiting .closing n m).sdr with queue := [0] } }
    let c (part : ClosePart) (left : Nat) : EmergencyClose := ⟨20, left, part, [1], false⟩
    closeStep (c .updates 4) (s 3 1) = .update 0 ∧ closeStep (c .updates 3) (s 3 1) = .block ⟨1, 0, 1, true⟩ ∧
      closeStep (c .stream 9) (s 3 1) = .unit ⟨1, 0, 3, true⟩ ∧ closeStep (c .stream 8) (s 3 1) = .block ⟨1, 0, 1, true⟩ ∧
      closeStep (c .motion 2) (s 0 1) = .header 1 ∧ closeStep { c .header 0 with todo := [] } (s 0 0) = .over ∧
      closeStep { c .stream 20 with failed := true } (s 3 1) = .header 1 := by decide +kernel
/-- A slot whose header was never written, after the last header update. -/
theorem witness_EmergencyCloseWrites_never_written :
    let s := closingWith (.emUpdate 0) 1 .updates [1] 18
    let u := { s with sdr := { s.sdr with entries :=
      [closedEntry 5 false, { openEntry with st := .closing, headerWritten := false }, emptyEntry] } }
    Awake u ∧ PortLaw u ∧ u.cwr.writer = .emergencyClose ∧ u.sdr.queue = [] ∧ u.sdr.geo = some (region 3) ∧
      u.ssv.close = some ⟨20, 18, .updates, [1], false⟩ ∧
      (entryAt u 1).map Entry.headerWritten = some false :=
  ⟨rfl, ⟨(fun _ h => nomatch h), fun _ e => nomatch e⟩, rfl, rfl, rfl, rfl, rfl⟩

def heldIn (supplyLow lineLow : Bool) (cause : ResetCause) : State := { moving with rst := ⟨true, supplyLow, lineLow, cause⟩ }

theorem witness_ResetsBeginAndEnd : Awake moving ∧ moving.rst.supplyLow = false ∧ moving.rst.lineLow = false ∧
    (heldIn true true .brownout).rst.active = true ∧ (heldIn true true .brownout).rst.supplyLow = true ∧
    (heldIn true true .brownout).rst.lineLow = true ∧ (heldIn false true .line).rst.supplyLow = false ∧
    (heldIn false true .line).rst.cause = .line ∧ (heldIn true false .powerOn).rst.lineLow = false ∧
    (heldIn true false .powerOn).rst.cause = .powerOn := ⟨rfl, rfl, rfl, rfl, rfl, rfl, rfl, rfl, rfl, rfl⟩

/-- A rail below warn that rises to warn, running and in reset; a reset that ends with it on either side. -/
theorem witness_ResetsBeginAndEnd_rail :
    let s (active : Bool) (rail : Rail) := supplied .normal rail none 0 (if active then heldIn false true .brownout else up)
    (∀ active, (s active .belowWarn).rst.supplyLow = false ∧ (s active .belowWarn).ssv.rail = .belowWarn) ∧
      ∀ rail, (s true rail).rst.active = true ∧ (s true rail).rst.lineLow = true ∧ (s true rail).rst.cause = .brownout ∧
        (s true rail).ssv.rail = rail :=
  ⟨fun active => by cases active <;> exact ⟨rfl, rfl⟩, fun _ => ⟨rfl, rfl, rfl, rfl⟩⟩
/-- Reset held by the rail, RSTN high and low, of each power-on cause; a line that is low or high, running and in reset. -/
theorem witness_ResetsBeginAndEnd_causes : (∀ line cause, (heldIn true line cause).rst.active = true ∧
      (heldIn true line cause).rst.supplyLow = true ∧ (heldIn true line cause).rst.lineLow = line ∧
      (heldIn true line cause).rst.cause = cause) ∧
    (heldIn false true .line).rst.supplyLow = false ∧ (heldIn false true .line).rst.lineLow = true ∧
    moving.rst.lineLow = false := ⟨fun _ _ => ⟨rfl, rfl, rfl, rfl⟩, rfl, rfl, rfl⟩
/-- Reset with RSTN low alone, of each cause; a kept ride-through timer with a tick left and at its end. -/
theorem witness_ResetsBeginAndEnd_line : ∀ cause, (heldIn false true cause).rst.active = true ∧
    (heldIn false true cause).rst.supplyLow = false ∧ (heldIn false true cause).rst.lineLow = true ∧
    (heldIn false true cause).rst.cause = cause ∧
    ((supplied .rideThrough .belowWarn none 99 up).now - 100).toNat = 4294967295 ∧
    ((supplied .rideThrough .belowWarn none 100 up).now - 100).toNat < 2147483648 :=
  fun _ => ⟨rfl, rfl, rfl, rfl, by decide, by decide⟩

theorem witness_LinkLawIsKept : LinkLaw (moving.withPending [.frameGet 7 1]) ∧
    ∃ t, step (moving.withPending [.frameGet 7 1]) = .next t ∧ t.lnk.req ≠ none :=
  ⟨.inl rfl, _, rfl, (fun h => nomatch h)⟩

theorem mountLaw_free {s : State} (h : s.cwr.port = none) : MountLaw s := fun _ e => nomatch h.symm.trans e

/-- A card with one impact lock of a quota of two. -/
def lockedCard : State := { ready with sdr := { ready.sdr with entries := [closedEntry 5 true, closedEntry 6 false] } }

theorem witness_QuotaLawIsKept : QuotaLaw (lockedCard.withPending [.slotLockOff 7 0 1]) ∧
    impactLocks lockedCard.sdr.entries = 1 ∧ ∃ t, step (lockedCard.withPending [.slotLockOff 7 0 1]) = .next t :=
  ⟨⟨mountLaw_free rfl, fun _ => show (1 : Nat) ≤ 2 by decide, fun h => nomatch h⟩, rfl, _, rfl⟩

theorem witness_BudgetLawIsKept : BudgetLaw (closing.withPending [.emergencyWriteDone]) ∧
    ∃ t, step (closing.withPending [.emergencyWriteDone]) = .next t := by
  refine ⟨⟨?_, fun _ _ => by decide, by decide, fun _ => ⟨⟨fun _ => by decide, fun _ h => nomatch h⟩, fun _ => by decide⟩,
    fun _ _ => by decide, ?_⟩, _, rfl⟩
  · intro x h
    cases (Option.some.inj h)
    exact trivial
  · intro c h
    cases (Option.some.inj h)
    refine ⟨rfl, by decide, by decide, by decide, ?_, ?_⟩
    · rintro k ⟨x, hx, hk⟩
      cases (Option.some.inj hx)
      cases hk
      exact ⟨rfl, by decide⟩
    · intro h
      exact absurd ⟨_, rfl, rfl⟩ (h 1)

theorem witness_SettingsAndSizesAreKept : SettingsLaw (up.withPending [.supplySet 7 0 0]) ∧
    SizeLaw (stepping.withPending [.fsyncEdge]) ∧ (∃ t, step (up.withPending [.supplySet 7 0 0]) = .next t) ∧
    ∃ t, step (stepping.withPending [.fsyncEdge]) = .next t := by
  refine ⟨?_, ?_, ⟨_, rfl⟩, _, rfl⟩
  · simp only [SettingsLaw, BiasInRange, ImpactInRange, ChanSettingsInRange, ChargeInRange, InputInRange]
    exact ⟨by decide, by decide, by decide, by decide, by decide, fun c => by cases c <;> decide, by decide, by decide,
      by decide, by decide⟩
  · simp only [SizeLaw]
    decide

/-- Slot 1 CLOSING with its opening header on the port, slot 2 OPEN after it, and slot 0 waiting for an update. -/
def crossed : State :=
  let second : Entry := { openEntry with sequence := some 7, headerWritten := false }
  let s := rolling none
  onPort (.openingHeader 1) 1 { s with sdr := { s.sdr with
    entries := [{ closedEntry 5 false with queued := true }, { openEntry with st := .closing }, second]
    queue := [0]
    nextSeq := some 8 } }

theorem witness_SettingsAndSizesAreKept_directory : DirectoryLaw (crossed.withPending [.openingHeaderDone]) ∧
    openSlot crossed = some 2 ∧ closingSlot crossed = some 1 ∧
    ∃ t, step (crossed.withPending [.openingHeaderDone]) = .next t := by
  refine ⟨⟨⟨by decide, by decide, by decide, by decide, ?_⟩, ⟨by decide, by decide, by decide, by decide, by decide⟩,
    ⟨by decide, fun _ => ⟨by decide, ?_, by decide⟩⟩, ?_, (fun h => nomatch h), ?_, fun _ h => nomatch h⟩, rfl, rfl, _, rfl⟩
  · intro i e h
    match i with
    | 0 => cases (Option.some.inj h); decide
    | 1 => cases (Option.some.inj h); decide
    | 2 => cases (Option.some.inj h); decide
    | _ + 3 => exact nomatch h
  · intro n hn e he q hq
    cases (Option.some.inj hn)
    simp only [State.withPending, crossed, onPort, List.mem_cons, List.not_mem_nil, or_false] at he
    obtain rfl | rfl | rfl := he <;> (cases (Option.some.inj hq); decide)
  · intro g hg
    cases (Option.some.inj hg)
    decide
  · intro x hx
    cases (Option.some.inj hx)
    exact .inl rfl

/-- Figure 12.10's places of a header, read from a block: it is vouched for at the region's full stream area and at none
beyond; a blank header and a header of another region are not. -/
theorem witness_HeadersReadBack_vouched :
    let byte (block : List Byte) (k : Nat) : Nat := (block[k]?.getD 0#8).toNat
    let word (block : List Byte) (k : Nat) : Nat :=
      byte block k + 256 * byte block (k + 1) + 65536 * (byte block (k + 2) + 256 * byte block (k + 3))
    let known (block : List Byte) : Prop := word block 0 = 0x4C485750 ∧ word block 4 = (region 3).regionId.toNat ∧
      (byte block 8 = 1 ∨ byte block 8 = 2) ∧ word block 28 ≤ (region 3).units * 65536 ∧
      word block 32 ≤ 32 * (region 3).motion
    let checked (block : List Byte) : Prop := block.length = 512 ∧ (crc32 (block.take 508)).toNat = word block 508
    let block (id : Word) (n : Nat) : List Byte := closedHeader id 2 { closedEntry 5 true with streamBytes := n }
    (∀ id n, checked (block id n)) ∧ known (block 0xA7 65536) ∧ ¬ known (block 0xA7 65537) ∧
      ¬ known (block 0xA8 65536) ∧ ¬ known (blankHeader 0xA7) := by
  refine ⟨fun id n => ?_, by decide +kernel⟩
  obtain ⟨body, hl, hb⟩ := entryHeader_seals id 2 2 { closedEntry 5 true with streamBytes := n }
  have h := And.intro (sealHeader_length body (by omega)) (sealHeader_check body (by omega))
  rw [← hb] at h
  exact h

theorem witness_HeadersReadBack : (closedEntry 5 true).sequence = some 5 ∧ 5 < 4294967296 ∧
    (closedEntry 5 true).recId = some 3 ∧ 3 < 65536 ∧ (closedEntry 5 true).openTime = some 0 ∧
    (closedEntry 5 true).streamBytes ≤ (region 3).units * 65536 ∧ (closedEntry 5 true).streamBytes < 4294967296 ∧
    (closedEntry 5 true).motionRecords ≤ 32 * (region 3).motion ∧ (closedEntry 5 true).motionRecords < 4294967296 ∧
    (closedEntry 5 true).motionDropped < 4294967296 ∧ (closedEntry 5 true).lostBytes < 4294967296 ∧
    (closedEntry 5 true).impactCount < 256 ∧ (8#32 ≠ (region 3).regionId) ∧ (closedEntry 5 true).st = .closed ∧
    (closedEntry 5 true).reason = none ∧ ({ closedEntry 5 true with st := .recovered } : Entry).st = .recovered ∧
    ({ closedEntry 5 true with reason := some .stop } : Entry).reason = some .stop ∧
    ({ closedEntry 5 true with st := .opened } : Entry).st = .opened := by decide

end Sys2Proof.Tests
end

section
/-! What a step can do, said once for every law of the device. -/

namespace Sys2Proof.Machine

/-- What a row does to the part once its gate has let it through; where the card's bytes are not the blocks asked for,
on which the model stops (log 24), nothing. -/
def rowEffect (i : Instr) (s : State) : State :=
  match i with
  | .writeTransaction clocks =>
      match bytesOfLanes clocks with
      | [] => s
      | b :: rest => if b = 0xA5#8 then readTransaction rest.length s else takeFrame (b :: rest) s
  | .readTransaction count => readTransaction count s
  | .tick => tickStep s
  | .sensorReadDone sample => readAnswered sample s
  | .sensorLost => stepThat faultCame tickStep s
  | .sensorRestored => stepThat faultWent tickStep s
  | .biasLearned => stepThat (fun s _ => biasDue s) tickStep s
  | .impactQualify => stepThat (fun s _ => impactDue s) tickStep s
  | .rearmHoldExpiry => rearmExpiry s
  | .impactParkExpiry => parkExpiry s
  | .fsyncEdge => fsyncStep s
  | .cropSample => cropStep s
  | .frameGetTimeout => frameTimeout s
  | .pwmPeriodStart c => putChan c (periodStart (chanGet s.adu c)) s
  | .ocComparatorChange c above =>
      putChan c { chanGet s.adu c with comparator := above, qual := if above then (chanGet s.adu c).qual else 0 } s
  | .overcurrentFault c cycles => overcurrentStep c cycles s
  | .retryDelayExpiry c => retryExpiry c s
  | .cleanRunExpiry c => cleanExpiry c s
  | .scanConversion r => scanStep r s
  | .batteryAbsent => stepThat batteryWent (scanStep .openCircuit) s
  | .batteryPresent z => stepThat batteryCame (scanStep (.value z)) s
  | .sourcePresent src z => stepThat (atRoundEnd (sourceCame src)) (scanStep (.value z)) s
  | .sourceLost src z => stepThat (atRoundEnd (sourceWent src)) (scanStep (.value z)) s
  | .iEffRaise z => stepThat (atRoundEnd sagDone) (scanStep (.value z)) s
  | .chargeDone z => stepThat (atRoundEnd cameDone) (scanStep (.value z)) s
  | .cardAttemptFailed => attemptFailed s
  | .cardAttemptTimeout => attemptTimeout s
  | .bringUpDone capacity =>
      match portOp s with
      | some .identify => broughtUp capacity s
      | _ => s
  | .formatHeaderDone =>
      match portOp s with
      | some (.formatHeader k) => mountEntry k freeEntry s
      | _ => s
  | .scanReadDone block =>
      match portOp s, s.sdr.geo with
      | some (.scanRead k), some g => if block.length = 512 then mountEntry k (classify g block) s else s
      | _, _ => s
  | .unitWriteDone => unitCompletion s
  | .checkpoint => stepThat (fun s _ => checkpointDue s) unitCompletion s
  | .blockWriteDone =>
      match portOp s with
      | some (.motionBlock k n) => blockDone k n s
      | _ => s
  | .headerUpdateDone =>
      match portOp s with
      | some (.headerUpdate _) => settle (setPort none s)
      | _ => s
  | .openingHeaderDone =>
      match portOp s with
      | some (.openingHeader k) => openingDone k s
      | _ => s
  | .closedHeaderDone =>
      match portOp s with
      | some (.closedHeader k reason) => closedDone k reason s
      | _ => s
  | .hostReadDone blocks =>
      match s.cwr.port with
      | none => s
      | some t =>
          match t.op with
          | .hostRead wanted => if blocks.length = 512 * t.blocks then readDone wanted blocks s else s
          | _ => s
  | .motionReadTimeout => motionTimeout s
  | .cdetChange card => cdetTo card s
  | .cardInserted => inserted s
  | .cardRemoved => removed s
  | .railBelowWarn => if s.rst.active then railInReset .belowWarn s else fallBelowWarn s
  | .railRecover => if s.rst.active then railInReset .atRecover s else riseToRecover s
  | .railBelowRecover => if s.rst.active then railInReset .belowRecover s else fallBelowRecover s
  | .rideThroughExpiry => rideExpiry s
  | .emergencyWriteDone => emDone s
  | .emergencyWriteFailed => emFailed s
  | .stableTimeReached => checkStable s
  | .brownout => brownout s
  | .powerOnResetEnd rail => supplyBack rail s
  | .rstnLow => lineFalls s
  | .rstnHigh => lineRises s
  | .resetWaitExpiry => waitExpiry s
  | .quietTimerExpiry => quietExpiry s
  | .windowTimerExpiry => windowExpiry s
  | .railBelowPowerOnLevel => belowPowerOnLevel s
  | i => runRequest i s

/-- REFUSED is set (R184). -/
def refuse (s : State) : State := { s with lnk := { s.lnk with refused := true } }

theorem whenUp_effect {s t : State} {f : State → State} (h : whenUp s f = .next t) :
    t = s ∨ (Awake s ∧ t = f s) :=
  (whenUp_next h).imp_left And.right

theorem takeReq_effect {s t : State} {f : State → State} (h : takeReq s f = .next t) :
    t = s ∨ t = refuse s ∨ (Awake s ∧ t = f s) := by
  obtain ⟨-, h⟩ | ⟨-, -, h⟩ | ⟨hs, h⟩ := takeReq_next h
  · exact .inl h
  · exact .inr (.inl h)
  · exact .inr (.inr ⟨hs.1, h⟩)

/-- All that a command can do: nothing, REFUSED set, or its row's effect, in reset only a pin's or the rail's. -/
theorem exec_effect {i : Instr} {s t : State} (h : exec i s = .next t) :
    t = s ∨ t = refuse s ∨ ((Awake s ∨ movesInReset i = true) ∧ t = rowEffect i s) := by
  have up (h : whenUp s (rowEffect i) = .next t) :
      t = s ∨ t = refuse s ∨ ((Awake s ∨ movesInReset i = true) ∧ t = rowEffect i s) :=
    (whenUp_effect h).imp_right fun ⟨ha, h⟩ => .inr ⟨.inl ha, h⟩
  have req (h : takeReq s (rowEffect i) = .next t) :
      t = s ∨ t = refuse s ∨ ((Awake s ∨ movesInReset i = true) ∧ t = rowEffect i s) :=
    (takeReq_effect h).imp_right <| .imp_right fun ⟨ha, h⟩ => ⟨.inl ha, h⟩
  have pin (h : rowEffect i s = t) (hm : movesInReset i = true) :
      t = s ∨ t = refuse s ∨ ((Awake s ∨ movesInReset i = true) ∧ t = rowEffect i s) :=
    .inr (.inr ⟨.inr hm, h.symm⟩)
  cases i
  case writeTransaction clocks =>
    simp only [exec, execWriteTransaction, transaction] at h
    have hrow : rowEffect (.writeTransaction clocks) s = match bytesOfLanes clocks with
      | [] => s
      | b :: rest => if b = 0xA5#8 then readTransaction rest.length s else takeFrame (b :: rest) s := rfl
    cases hb : bytesOfLanes clocks with
    | nil => simp only [hb, Host.Outcome.next.injEq] at h; exact .inl h.symm
    | cons b rest =>
        simp only [hb] at h hrow
        split at h
        · next hc =>
          rw [if_pos hc] at hrow
          exact (whenUp_effect h).imp_right fun ⟨ha, h⟩ => .inr ⟨.inl ha, h.trans hrow.symm⟩
        · next hc =>
          rw [if_neg hc] at hrow
          exact (takeReq_effect h).imp_right <| .imp_right fun ⟨ha, h⟩ => ⟨.inl ha, h.trans hrow.symm⟩
  case scanReadDone block =>
    simp only [exec, execScanReadDone] at h
    split at h
    · simp only [Host.Outcome.next.injEq] at h; exact .inl h.symm
    · next ha =>
      simp only [Bool.not_eq_true] at ha
      split at h
      · next hp hg =>
        split at h
        · next hl =>
          simp only [Host.Outcome.next.injEq] at h
          exact .inr (.inr ⟨.inl ha, by simp [rowEffect, hp, hg, hl, ← h]⟩)
        · simp at h
      · simp only [Host.Outcome.next.injEq] at h; exact .inl h.symm
  case hostReadDone blocks =>
    simp only [exec, execHostReadDone] at h
    split at h
    · simp only [Host.Outcome.next.injEq] at h; exact .inl h.symm
    · next ha =>
      simp only [Bool.not_eq_true] at ha
      split at h
      · simp only [Host.Outcome.next.injEq] at h; exact .inl h.symm
      · next x hx =>
        split at h
        · next ho =>
          split at h
          · next hl =>
            simp only [Host.Outcome.next.injEq] at h
            exact .inr (.inr ⟨.inl ha, by simp [rowEffect, hx, ho, hl, ← h]⟩)
          · simp at h
        · simp only [Host.Outcome.next.injEq] at h; exact .inl h.symm
  case ocComparatorChange | cdetChange | brownout | powerOnResetEnd | rstnLow | rstnHigh | railBelowPowerOnLevel |
      railBelowWarn | railRecover | railBelowRecover =>
    exact pin (Host.Outcome.next.inj h) rfl
  case tick | sensorReadDone | sensorLost | sensorRestored | biasLearned | impactQualify | rearmHoldExpiry |
      impactParkExpiry | fsyncEdge | cropSample | frameGetTimeout | pwmPeriodStart | overcurrentFault |
      retryDelayExpiry | cleanRunExpiry | scanConversion | batteryAbsent | batteryPresent | sourcePresent | sourceLost |
      iEffRaise | chargeDone | cardAttemptFailed | cardAttemptTimeout | bringUpDone | formatHeaderDone |
      unitWriteDone | checkpoint | blockWriteDone | headerUpdateDone | openingHeaderDone | closedHeaderDone |
      motionReadTimeout | cardInserted | cardRemoved | rideThroughExpiry | emergencyWriteDone | emergencyWriteFailed |
      stableTimeReached | resetWaitExpiry | quietTimerExpiry | windowTimerExpiry | readTransaction =>
    exact up h
  all_goals exact req h

/-- A law that does not read the queue of commands or REFUSED is kept by every step when every row's effect keeps it. -/
theorem step_keeps {P : State → Prop} (queue : ∀ s q, P s → P (s.withPending q)) (refused : ∀ s, P s → P (refuse s))
    (row : ∀ i s, Awake s ∨ movesInReset i = true → P s → P (rowEffect i s)) {s t : State} (hs : P s)
    (h : step s = .next t) : P t := by
  simp only [step] at h
  split at h
  · exact Host.Outcome.next.inj h ▸ hs
  · next i rest _ =>
    have hq := queue s rest hs
    obtain rfl | rfl | ⟨hm, rfl⟩ := exec_effect h
    · exact hq
    · exact refused _ hq
    · exact row i _ hm hq

/-- A row that names a moment inside a step keeps what the step keeps. -/
theorem stepThat_keeps {P : State → Prop} {p : State → State → Bool} {f : State → State} {s : State} (hs : P s)
    (hf : P (f s)) : P (stepThat p f s) := by
  obtain h | ⟨-, h⟩ := stepThat_cases p f s <;> rw [h]
  · exact hs
  · exact hf

end Sys2Proof.Machine
end

section
/-! What each request leaves unchanged, in the manner of Laws/Frames1 and Laws/Frames2: one lemma a request, for
`simp`. -/

set_option linter.unusedTactic false
set_option linter.unnecessarySeqFocus false
set_option linter.unreachableTactic false

namespace Sys2Proof.Machine

@[simp] theorem identReq_frame (tag : Byte) (s : State) :
    (identReq tag s).msu = s.msu ∧ (identReq tag s).csu = s.csu ∧ (identReq tag s).ctx = s.ctx ∧
      (identReq tag s).adu = s.adu ∧ (identReq tag s).scn = s.scn ∧ (identReq tag s).cbf = s.cbf ∧
      (identReq tag s).sdr = s.sdr ∧ (identReq tag s).cwr = s.cwr ∧ (identReq tag s).ips = s.ips ∧
      (identReq tag s).chg = s.chg ∧ (identReq tag s).ssv = s.ssv ∧ (identReq tag s).rst = s.rst := by
  simp only [identReq]; (repeat' split) <;> simp

@[simp] theorem statusReq_frame (tag : Byte) (mask : Half) (s : State) :
    (statusReq tag mask s).msu = s.msu ∧ (statusReq tag mask s).csu = s.csu ∧ (statusReq tag mask s).ctx = s.ctx ∧
      (statusReq tag mask s).adu = s.adu ∧ (statusReq tag mask s).scn = s.scn ∧ (statusReq tag mask s).cbf = s.cbf ∧
      (statusReq tag mask s).sdr = s.sdr ∧ (statusReq tag mask s).cwr = s.cwr ∧ (statusReq tag mask s).ips = s.ips ∧
      (statusReq tag mask s).chg = s.chg ∧ (statusReq tag mask s).ssv = s.ssv ∧
      (statusReq tag mask s).rst = s.rst := by
  simp only [statusReq]; (repeat' split) <;> simp

@[simp] theorem eventsReq_frame (tag : Byte) (s : State) :
    (eventsReq tag s).msu = s.msu ∧ (eventsReq tag s).csu = s.csu ∧ (eventsReq tag s).ctx = s.ctx ∧
      (eventsReq tag s).adu = s.adu ∧ (eventsReq tag s).scn = s.scn ∧ (eventsReq tag s).cbf = s.cbf ∧
      (eventsReq tag s).sdr = s.sdr ∧ (eventsReq tag s).cwr = s.cwr ∧ (eventsReq tag s).ips = s.ips ∧
      (eventsReq tag s).chg = s.chg ∧ (eventsReq tag s).ssv = s.ssv ∧ (eventsReq tag s).rst = s.rst := by
  simp only [eventsReq]; (repeat' split) <;> simp

@[simp] theorem alertSetReq_frame (tag : Byte) (record alert : Half) (s : State) :
    (alertSetReq tag record alert s).msu = s.msu ∧ (alertSetReq tag record alert s).csu = s.csu ∧
      (alertSetReq tag record alert s).ctx = s.ctx ∧ (alertSetReq tag record alert s).adu = s.adu ∧
      (alertSetReq tag record alert s).scn = s.scn ∧ (alertSetReq tag record alert s).cbf = s.cbf ∧
      (alertSetReq tag record alert s).sdr = s.sdr ∧ (alertSetReq tag record alert s).cwr = s.cwr ∧
      (alertSetReq tag record alert s).ips = s.ips ∧ (alertSetReq tag record alert s).chg = s.chg ∧
      (alertSetReq tag record alert s).ssv = s.ssv ∧ (alertSetReq tag record alert s).rst = s.rst := by
  simp only [alertSetReq]; (repeat' split) <;> simp

@[simp] theorem resetReq_frame (tag : Byte) (s : State) :
    (resetReq tag s).msu = s.msu ∧ (resetReq tag s).csu = s.csu ∧ (resetReq tag s).ctx = s.ctx ∧
      (resetReq tag s).adu = s.adu ∧ (resetReq tag s).scn = s.scn ∧ (resetReq tag s).cbf = s.cbf ∧
      (resetReq tag s).sdr = s.sdr ∧ (resetReq tag s).cwr = s.cwr ∧ (resetReq tag s).ips = s.ips ∧
      (resetReq tag s).chg = s.chg ∧ (resetReq tag s).ssv = s.ssv ∧ (resetReq tag s).rst = s.rst := by
  simp only [resetReq]; (repeat' split) <;> simp

@[simp] theorem checkinReq_frame (tag : Byte) (s : State) :
    (checkinReq tag s).msu = s.msu ∧ (checkinReq tag s).ctx = s.ctx ∧ (checkinReq tag s).scn = s.scn ∧
      (checkinReq tag s).ips = s.ips ∧ (checkinReq tag s).rst = s.rst ∧ (checkinReq tag s).csu.ring = s.csu.ring ∧
      (checkinReq tag s).ssv.rideMs = s.ssv.rideMs ∧ (checkinReq tag s).ssv.budget = s.ssv.budget := by
  simp only [checkinReq]; (repeat' split) <;> simp

@[simp] theorem guardSetReq_frame (tag : Byte) (quiet window : Half) (s : State) :
    (guardSetReq tag quiet window s).msu = s.msu ∧ (guardSetReq tag quiet window s).csu = s.csu ∧
      (guardSetReq tag quiet window s).ctx = s.ctx ∧ (guardSetReq tag quiet window s).scn = s.scn ∧
      (guardSetReq tag quiet window s).cbf = s.cbf ∧ (guardSetReq tag quiet window s).sdr = s.sdr ∧
      (guardSetReq tag quiet window s).cwr = s.cwr ∧ (guardSetReq tag quiet window s).ips = s.ips ∧
      (guardSetReq tag quiet window s).chg = s.chg ∧ (guardSetReq tag quiet window s).ssv = s.ssv ∧
      (guardSetReq tag quiet window s).rst = s.rst := by
  simp only [guardSetReq]; (repeat' split) <;> simp

@[simp] theorem stabSetReq_frame (tag run learn still : Byte) (s : State) :
    (stabSetReq tag run learn still s).scn = s.scn ∧ (stabSetReq tag run learn still s).cbf = s.cbf ∧
      (stabSetReq tag run learn still s).sdr = s.sdr ∧ (stabSetReq tag run learn still s).cwr = s.cwr ∧
      (stabSetReq tag run learn still s).ips = s.ips ∧ (stabSetReq tag run learn still s).chg = s.chg ∧
      (stabSetReq tag run learn still s).ssv = s.ssv ∧ (stabSetReq tag run learn still s).rst = s.rst ∧
      (stabSetReq tag run learn still s).csu.ring = s.csu.ring := by
  simp only [stabSetReq]; (repeat' split) <;> simp

@[simp] theorem biasSetReq_frame (tag : Byte) (yaw pitch roll : Half) (s : State) :
    (biasSetReq tag yaw pitch roll s).csu = s.csu ∧ (biasSetReq tag yaw pitch roll s).ctx = s.ctx ∧
      (biasSetReq tag yaw pitch roll s).adu = s.adu ∧ (biasSetReq tag yaw pitch roll s).scn = s.scn ∧
      (biasSetReq tag yaw pitch roll s).cbf = s.cbf ∧ (biasSetReq tag yaw pitch roll s).sdr = s.sdr ∧
      (biasSetReq tag yaw pitch roll s).cwr = s.cwr ∧ (biasSetReq tag yaw pitch roll s).ips = s.ips ∧
      (biasSetReq tag yaw pitch roll s).chg = s.chg ∧ (biasSetReq tag yaw pitch roll s).ssv = s.ssv ∧
      (biasSetReq tag yaw pitch roll s).rst = s.rst ∧ (biasSetReq tag yaw pitch roll s).msu.angle = s.msu.angle ∧
      (biasSetReq tag yaw pitch roll s).msu.path = s.msu.path ∧
      (biasSetReq tag yaw pitch roll s).msu.imp = s.msu.imp ∧
      (biasSetReq tag yaw pitch roll s).msu.tickBias = s.msu.tickBias ∧
      (biasSetReq tag yaw pitch roll s).msu.tickImp = s.msu.tickImp := by
  simp only [biasSetReq]; (repeat' split) <;> simp

@[simp] theorem impactSetReq_frame (tag thr count : Byte) (rearm park : Half) (pre post : Byte) (s : State) :
    (impactSetReq tag thr count rearm park pre post s).csu = s.csu ∧
      (impactSetReq tag thr count rearm park pre post s).ctx = s.ctx ∧
      (impactSetReq tag thr count rearm park pre post s).adu = s.adu ∧
      (impactSetReq tag thr count rearm park pre post s).scn = s.scn ∧
      (impactSetReq tag thr count rearm park pre post s).cbf = s.cbf ∧
      (impactSetReq tag thr count rearm park pre post s).sdr = s.sdr ∧
      (impactSetReq tag thr count rearm park pre post s).cwr = s.cwr ∧
      (impactSetReq tag thr count rearm park pre post s).ips = s.ips ∧
      (impactSetReq tag thr count rearm park pre post s).chg = s.chg ∧
      (impactSetReq tag thr count rearm park pre post s).ssv = s.ssv ∧
      (impactSetReq tag thr count rearm park pre post s).rst = s.rst ∧
      (impactSetReq tag thr count rearm park pre post s).msu.angle = s.msu.angle ∧
      (impactSetReq tag thr count rearm park pre post s).msu.path = s.msu.path ∧
      (impactSetReq tag thr count rearm park pre post s).msu.bias = s.msu.bias ∧
      (impactSetReq tag thr count rearm park pre post s).msu.tickBias = s.msu.tickBias ∧
      (impactSetReq tag thr count rearm park pre post s).msu.tickImp = s.msu.tickImp := by
  simp only [impactSetReq]; (repeat' split) <;> simp

@[simp] theorem ctxWriteReq_frame (tag index : Byte) (fields : CtxFields) (s : State) :
    (ctxWriteReq tag index fields s).msu = s.msu ∧ (ctxWriteReq tag index fields s).csu = s.csu ∧
      (ctxWriteReq tag index fields s).adu = s.adu ∧ (ctxWriteReq tag index fields s).scn = s.scn ∧
      (ctxWriteReq tag index fields s).cbf = s.cbf ∧ (ctxWriteReq tag index fields s).sdr = s.sdr ∧
      (ctxWriteReq tag index fields s).cwr = s.cwr ∧ (ctxWriteReq tag index fields s).ips = s.ips ∧
      (ctxWriteReq tag index fields s).chg = s.chg ∧ (ctxWriteReq tag index fields s).ssv = s.ssv ∧
      (ctxWriteReq tag index fields s).rst = s.rst := by
  simp only [ctxWriteReq]; (repeat' split) <;> simp

@[simp] theorem ctxReadReq_frame (tag index : Byte) (s : State) :
    (ctxReadReq tag index s).msu = s.msu ∧ (ctxReadReq tag index s).csu = s.csu ∧
      (ctxReadReq tag index s).ctx = s.ctx ∧ (ctxReadReq tag index s).adu = s.adu ∧
      (ctxReadReq tag index s).scn = s.scn ∧ (ctxReadReq tag index s).cbf = s.cbf ∧
      (ctxReadReq tag index s).sdr = s.sdr ∧ (ctxReadReq tag index s).cwr = s.cwr ∧
      (ctxReadReq tag index s).ips = s.ips ∧ (ctxReadReq tag index s).chg = s.chg ∧
      (ctxReadReq tag index s).ssv = s.ssv ∧ (ctxReadReq tag index s).rst = s.rst := by
  simp only [ctxReadReq]; (repeat' split) <;> simp

@[simp] theorem ctxSelectReq_frame (tag index : Byte) (s : State) :
    (ctxSelectReq tag index s).scn = s.scn ∧ (ctxSelectReq tag index s).cbf = s.cbf ∧
      (ctxSelectReq tag index s).sdr = s.sdr ∧ (ctxSelectReq tag index s).cwr = s.cwr ∧
      (ctxSelectReq tag index s).ips = s.ips ∧ (ctxSelectReq tag index s).chg = s.chg ∧
      (ctxSelectReq tag index s).ssv = s.ssv ∧ (ctxSelectReq tag index s).rst = s.rst ∧
      (ctxSelectReq tag index s).msu.angle = s.msu.angle ∧ (ctxSelectReq tag index s).msu.bias = s.msu.bias ∧
      (ctxSelectReq tag index s).msu.imp = s.msu.imp ∧ (ctxSelectReq tag index s).msu.tickBias = s.msu.tickBias ∧
      (ctxSelectReq tag index s).msu.tickImp = s.msu.tickImp ∧ (ctxSelectReq tag index s).csu.ring = s.csu.ring := by
  simp only [ctxSelectReq]; (repeat' split) <;> simp

@[simp] theorem ctxReturnReq_frame (tag : Byte) (s : State) :
    (ctxReturnReq tag s).scn = s.scn ∧ (ctxReturnReq tag s).cbf = s.cbf ∧ (ctxReturnReq tag s).sdr = s.sdr ∧
      (ctxReturnReq tag s).cwr = s.cwr ∧ (ctxReturnReq tag s).ips = s.ips ∧ (ctxReturnReq tag s).chg = s.chg ∧
      (ctxReturnReq tag s).ssv = s.ssv ∧ (ctxReturnReq tag s).rst = s.rst ∧
      (ctxReturnReq tag s).msu.angle = s.msu.angle ∧ (ctxReturnReq tag s).msu.bias = s.msu.bias ∧
      (ctxReturnReq tag s).msu.imp = s.msu.imp ∧ (ctxReturnReq tag s).msu.tickBias = s.msu.tickBias ∧
      (ctxReturnReq tag s).msu.tickImp = s.msu.tickImp ∧ (ctxReturnReq tag s).csu.ring = s.csu.ring := by
  simp only [ctxReturnReq]; (repeat' split) <;> simp

@[simp] theorem frameGetReq_frame (tag : Byte) (n : Word) (s : State) :
    (frameGetReq tag n s).msu = s.msu ∧ (frameGetReq tag n s).csu = s.csu ∧ (frameGetReq tag n s).ctx = s.ctx ∧
      (frameGetReq tag n s).adu = s.adu ∧ (frameGetReq tag n s).scn = s.scn ∧ (frameGetReq tag n s).cbf = s.cbf ∧
      (frameGetReq tag n s).sdr = s.sdr ∧ (frameGetReq tag n s).cwr = s.cwr ∧ (frameGetReq tag n s).ips = s.ips ∧
      (frameGetReq tag n s).chg = s.chg ∧ (frameGetReq tag n s).ssv = s.ssv ∧ (frameGetReq tag n s).rst = s.rst := by
  simp only [frameGetReq]; (repeat' split) <;> simp

@[simp] theorem actEnableOnReq_frame (tag mask : Byte) (s : State) :
    (actEnableOnReq tag mask s).msu = s.msu ∧ (actEnableOnReq tag mask s).csu = s.csu ∧
      (actEnableOnReq tag mask s).ctx = s.ctx ∧ (actEnableOnReq tag mask s).scn = s.scn ∧
      (actEnableOnReq tag mask s).cbf = s.cbf ∧ (actEnableOnReq tag mask s).sdr = s.sdr ∧
      (actEnableOnReq tag mask s).cwr = s.cwr ∧ (actEnableOnReq tag mask s).ips = s.ips ∧
      (actEnableOnReq tag mask s).chg = s.chg ∧ (actEnableOnReq tag mask s).ssv = s.ssv ∧
      (actEnableOnReq tag mask s).rst = s.rst := by
  simp only [actEnableOnReq, forMask]; (repeat' split) <;> simp

@[simp] theorem actEnableOffReq_frame (tag mask : Byte) (s : State) :
    (actEnableOffReq tag mask s).msu = s.msu ∧ (actEnableOffReq tag mask s).ctx = s.ctx ∧
      (actEnableOffReq tag mask s).scn = s.scn ∧ (actEnableOffReq tag mask s).cbf = s.cbf ∧
      (actEnableOffReq tag mask s).sdr = s.sdr ∧ (actEnableOffReq tag mask s).cwr = s.cwr ∧
      (actEnableOffReq tag mask s).ips = s.ips ∧ (actEnableOffReq tag mask s).chg = s.chg ∧
      (actEnableOffReq tag mask s).ssv = s.ssv ∧ (actEnableOffReq tag mask s).rst = s.rst ∧
      (actEnableOffReq tag mask s).csu.ring = s.csu.ring := by
  simp only [actEnableOffReq, forMask]; (repeat' split) <;> simp

@[simp] theorem actSetReq_frame (tag chan prescaler : Byte) (period limit : Half) (delay retry attempts retryDelay : Byte) (s : State) :
    (actSetReq tag chan prescaler period limit delay retry attempts retryDelay s).msu = s.msu ∧
      (actSetReq tag chan prescaler period limit delay retry attempts retryDelay s).csu = s.csu ∧
      (actSetReq tag chan prescaler period limit delay retry attempts retryDelay s).ctx = s.ctx ∧
      (actSetReq tag chan prescaler period limit delay retry attempts retryDelay s).scn = s.scn ∧
      (actSetReq tag chan prescaler period limit delay retry attempts retryDelay s).cbf = s.cbf ∧
      (actSetReq tag chan prescaler period limit delay retry attempts retryDelay s).sdr = s.sdr ∧
      (actSetReq tag chan prescaler period limit delay retry attempts retryDelay s).cwr = s.cwr ∧
      (actSetReq tag chan prescaler period limit delay retry attempts retryDelay s).ips = s.ips ∧
      (actSetReq tag chan prescaler period limit delay retry attempts retryDelay s).chg = s.chg ∧
      (actSetReq tag chan prescaler period limit delay retry attempts retryDelay s).ssv = s.ssv ∧
      (actSetReq tag chan prescaler period limit delay retry attempts retryDelay s).rst = s.rst := by
  simp only [actSetReq]; (repeat' split) <;> simp

@[simp] theorem actGroupReq_frame (tag mask prescaler : Byte) (period : Half) (s : State) :
    (actGroupReq tag mask prescaler period s).msu = s.msu ∧ (actGroupReq tag mask prescaler period s).csu = s.csu ∧
      (actGroupReq tag mask prescaler period s).ctx = s.ctx ∧ (actGroupReq tag mask prescaler period s).scn = s.scn ∧
      (actGroupReq tag mask prescaler period s).cbf = s.cbf ∧ (actGroupReq tag mask prescaler period s).sdr = s.sdr ∧
      (actGroupReq tag mask prescaler period s).cwr = s.cwr ∧ (actGroupReq tag mask prescaler period s).ips = s.ips ∧
      (actGroupReq tag mask prescaler period s).chg = s.chg ∧ (actGroupReq tag mask prescaler period s).ssv = s.ssv ∧
      (actGroupReq tag mask prescaler period s).rst = s.rst := by
  simp only [actGroupReq, forMask]; (repeat' split) <;> simp

@[simp] theorem actParkOnReq_frame (tag mask : Byte) (s : State) :
    (actParkOnReq tag mask s).msu = s.msu ∧ (actParkOnReq tag mask s).ctx = s.ctx ∧
      (actParkOnReq tag mask s).scn = s.scn ∧ (actParkOnReq tag mask s).cbf = s.cbf ∧
      (actParkOnReq tag mask s).sdr = s.sdr ∧ (actParkOnReq tag mask s).cwr = s.cwr ∧
      (actParkOnReq tag mask s).ips = s.ips ∧ (actParkOnReq tag mask s).chg = s.chg ∧
      (actParkOnReq tag mask s).ssv = s.ssv ∧ (actParkOnReq tag mask s).rst = s.rst ∧
      (actParkOnReq tag mask s).csu.ring = s.csu.ring := by
  simp only [actParkOnReq, forMask]; (repeat' split) <;> simp

@[simp] theorem actParkOffReq_frame (tag mask : Byte) (s : State) :
    (actParkOffReq tag mask s).msu = s.msu ∧ (actParkOffReq tag mask s).csu = s.csu ∧
      (actParkOffReq tag mask s).ctx = s.ctx ∧ (actParkOffReq tag mask s).scn = s.scn ∧
      (actParkOffReq tag mask s).cbf = s.cbf ∧ (actParkOffReq tag mask s).sdr = s.sdr ∧
      (actParkOffReq tag mask s).cwr = s.cwr ∧ (actParkOffReq tag mask s).ips = s.ips ∧
      (actParkOffReq tag mask s).chg = s.chg ∧ (actParkOffReq tag mask s).ssv = s.ssv ∧
      (actParkOffReq tag mask s).rst = s.rst := by
  simp only [actParkOffReq, forMask]; (repeat' split) <;> simp

@[simp] theorem mountReq_frame (tag : Byte) (base len regionId : Word) (units motion : Half) (quota format : Byte) (s : State) :
    (mountReq tag base len regionId units motion quota format s).msu = s.msu ∧
      (mountReq tag base len regionId units motion quota format s).csu = s.csu ∧
      (mountReq tag base len regionId units motion quota format s).ctx = s.ctx ∧
      (mountReq tag base len regionId units motion quota format s).adu = s.adu ∧
      (mountReq tag base len regionId units motion quota format s).scn = s.scn ∧
      (mountReq tag base len regionId units motion quota format s).cbf = s.cbf ∧
      (mountReq tag base len regionId units motion quota format s).ips = s.ips ∧
      (mountReq tag base len regionId units motion quota format s).chg = s.chg ∧
      (mountReq tag base len regionId units motion quota format s).ssv = s.ssv ∧
      (mountReq tag base len regionId units motion quota format s).rst = s.rst := by
  simp only [mountReq]; (repeat' split) <;> simp

@[simp] theorem unmountReq_frame (tag : Byte) (s : State) :
    (unmountReq tag s).msu = s.msu ∧ (unmountReq tag s).csu = s.csu ∧ (unmountReq tag s).ctx = s.ctx ∧
      (unmountReq tag s).scn = s.scn ∧ (unmountReq tag s).ips = s.ips ∧ (unmountReq tag s).rst = s.rst ∧
      (unmountReq tag s).ssv.rideMs = s.ssv.rideMs ∧ (unmountReq tag s).ssv.budget = s.ssv.budget := by
  simp only [unmountReq]; (repeat' split) <;> simp

@[simp] theorem recStartReq_frame (tag : Byte) (s : State) :
    (recStartReq tag s).msu = s.msu ∧ (recStartReq tag s).csu = s.csu ∧ (recStartReq tag s).ctx = s.ctx ∧
      (recStartReq tag s).scn = s.scn ∧ (recStartReq tag s).ips = s.ips ∧ (recStartReq tag s).rst = s.rst ∧
      (recStartReq tag s).ssv.rideMs = s.ssv.rideMs ∧ (recStartReq tag s).ssv.budget = s.ssv.budget := by
  simp only [recStartReq]; (repeat' split) <;> simp

@[simp] theorem recStopReq_frame (tag : Byte) (s : State) :
    (recStopReq tag s).msu = s.msu ∧ (recStopReq tag s).csu = s.csu ∧ (recStopReq tag s).ctx = s.ctx ∧
      (recStopReq tag s).scn = s.scn ∧ (recStopReq tag s).ips = s.ips ∧ (recStopReq tag s).rst = s.rst ∧
      (recStopReq tag s).ssv.rideMs = s.ssv.rideMs ∧ (recStopReq tag s).ssv.budget = s.ssv.budget := by
  simp only [recStopReq]; (repeat' split) <;> simp

@[simp] theorem dataReq_frame (tag : Byte) (bytes : List Byte) (s : State) :
    (dataReq tag bytes s).msu = s.msu ∧ (dataReq tag bytes s).csu = s.csu ∧ (dataReq tag bytes s).ctx = s.ctx ∧
      (dataReq tag bytes s).scn = s.scn ∧ (dataReq tag bytes s).ips = s.ips ∧ (dataReq tag bytes s).rst = s.rst ∧
      (dataReq tag bytes s).ssv.rideMs = s.ssv.rideMs ∧ (dataReq tag bytes s).ssv.budget = s.ssv.budget := by
  simp only [dataReq]; (repeat' split) <;> simp

@[simp] theorem slotReadReq_frame (tag : Byte) (first : Half) (count : Byte) (s : State) :
    (slotReadReq tag first count s).msu = s.msu ∧ (slotReadReq tag first count s).csu = s.csu ∧
      (slotReadReq tag first count s).ctx = s.ctx ∧ (slotReadReq tag first count s).adu = s.adu ∧
      (slotReadReq tag first count s).scn = s.scn ∧ (slotReadReq tag first count s).cbf = s.cbf ∧
      (slotReadReq tag first count s).sdr = s.sdr ∧ (slotReadReq tag first count s).cwr = s.cwr ∧
      (slotReadReq tag first count s).ips = s.ips ∧ (slotReadReq tag first count s).chg = s.chg ∧
      (slotReadReq tag first count s).ssv = s.ssv ∧ (slotReadReq tag first count s).rst = s.rst := by
  simp only [slotReadReq]; (repeat' split) <;> simp

@[simp] theorem slotLockReq_frame (code tag : Byte) (on : Bool) (slot : Half) (kind : Byte) (s : State) :
    (slotLockReq code tag on slot kind s).msu = s.msu ∧ (slotLockReq code tag on slot kind s).csu = s.csu ∧
      (slotLockReq code tag on slot kind s).ctx = s.ctx ∧ (slotLockReq code tag on slot kind s).scn = s.scn ∧
      (slotLockReq code tag on slot kind s).ips = s.ips ∧ (slotLockReq code tag on slot kind s).rst = s.rst ∧
      (slotLockReq code tag on slot kind s).ssv.rideMs = s.ssv.rideMs ∧
      (slotLockReq code tag on slot kind s).ssv.budget = s.ssv.budget := by
  simp only [slotLockReq]; (repeat' split) <;> simp

@[simp] theorem motionReadReq_frame (tag : Byte) (slot : Half) (mode count : Byte) (s : State) :
    (motionReadReq tag slot mode count s).msu = s.msu ∧ (motionReadReq tag slot mode count s).csu = s.csu ∧
      (motionReadReq tag slot mode count s).ctx = s.ctx ∧ (motionReadReq tag slot mode count s).scn = s.scn ∧
      (motionReadReq tag slot mode count s).ips = s.ips ∧ (motionReadReq tag slot mode count s).rst = s.rst ∧
      (motionReadReq tag slot mode count s).ssv.rideMs = s.ssv.rideMs ∧
      (motionReadReq tag slot mode count s).ssv.budget = s.ssv.budget := by
  simp only [motionReadReq]; (repeat' split) <;> simp

@[simp] theorem chargeSetReq_frame (tag enable : Byte) (target fast termination fastTimer : Half) (s : State) :
    (chargeSetReq tag enable target fast termination fastTimer s).msu = s.msu ∧
      (chargeSetReq tag enable target fast termination fastTimer s).csu = s.csu ∧
      (chargeSetReq tag enable target fast termination fastTimer s).ctx = s.ctx ∧
      (chargeSetReq tag enable target fast termination fastTimer s).adu = s.adu ∧
      (chargeSetReq tag enable target fast termination fastTimer s).scn = s.scn ∧
      (chargeSetReq tag enable target fast termination fastTimer s).cbf = s.cbf ∧
      (chargeSetReq tag enable target fast termination fastTimer s).sdr = s.sdr ∧
      (chargeSetReq tag enable target fast termination fastTimer s).cwr = s.cwr ∧
      (chargeSetReq tag enable target fast termination fastTimer s).ips = s.ips ∧
      (chargeSetReq tag enable target fast termination fastTimer s).ssv = s.ssv ∧
      (chargeSetReq tag enable target fast termination fastTimer s).rst = s.rst := by
  simp only [chargeSetReq]; (repeat' split) <;> simp

@[simp] theorem inputSetReq_frame (tag preference : Byte) (usbLimit usbFloor auxLimit auxFloor : Half) (s : State) :
    (inputSetReq tag preference usbLimit usbFloor auxLimit auxFloor s).msu = s.msu ∧
      (inputSetReq tag preference usbLimit usbFloor auxLimit auxFloor s).csu = s.csu ∧
      (inputSetReq tag preference usbLimit usbFloor auxLimit auxFloor s).ctx = s.ctx ∧
      (inputSetReq tag preference usbLimit usbFloor auxLimit auxFloor s).adu = s.adu ∧
      (inputSetReq tag preference usbLimit usbFloor auxLimit auxFloor s).scn = s.scn ∧
      (inputSetReq tag preference usbLimit usbFloor auxLimit auxFloor s).cbf = s.cbf ∧
      (inputSetReq tag preference usbLimit usbFloor auxLimit auxFloor s).sdr = s.sdr ∧
      (inputSetReq tag preference usbLimit usbFloor auxLimit auxFloor s).cwr = s.cwr ∧
      (inputSetReq tag preference usbLimit usbFloor auxLimit auxFloor s).chg = s.chg ∧
      (inputSetReq tag preference usbLimit usbFloor auxLimit auxFloor s).ssv = s.ssv ∧
      (inputSetReq tag preference usbLimit usbFloor auxLimit auxFloor s).rst = s.rst := by
  simp only [inputSetReq]; (repeat' split) <;> simp

@[simp] theorem supplySetReq_frame (tag ride budget : Byte) (s : State) :
    (supplySetReq tag ride budget s).msu = s.msu ∧ (supplySetReq tag ride budget s).csu = s.csu ∧
      (supplySetReq tag ride budget s).ctx = s.ctx ∧ (supplySetReq tag ride budget s).adu = s.adu ∧
      (supplySetReq tag ride budget s).scn = s.scn ∧ (supplySetReq tag ride budget s).cbf = s.cbf ∧
      (supplySetReq tag ride budget s).sdr = s.sdr ∧ (supplySetReq tag ride budget s).cwr = s.cwr ∧
      (supplySetReq tag ride budget s).ips = s.ips ∧ (supplySetReq tag ride budget s).chg = s.chg ∧
      (supplySetReq tag ride budget s).rst = s.rst := by
  simp only [supplySetReq]; (repeat' split) <;> simp

end Sys2Proof.Machine
end

section
/-! Second law (R12, R13, R47): the path stays within its limit of the angle. -/

namespace Sys2Proof.Machine

/-- From `s` to `t` neither A nor P nor the active context's fields have changed. -/
def KeepsAim (s t : State) : Prop :=
  t.msu.angle = s.msu.angle ∧ t.msu.path = s.msu.path ∧ activeFields t = activeFields s

theorem keepsAim_of_ctx {s t : State} (h : t.msu.angle = s.msu.angle ∧ t.msu.path = s.msu.path ∧ t.ctx = s.ctx) :
    KeepsAim s t := by
  obtain ⟨ha, hp, hc⟩ := h
  exact ⟨ha, hp, by rw [activeFields, hc]; rfl⟩

theorem PathLaw.of_keepsAim {s t : State} (h : PathLaw s) (k : KeepsAim s t) : PathLaw t := by
  obtain ⟨ha, hp, hc⟩ := k
  simpa only [PathLaw, ha, hp, hc] using h

/-- A state with the A, the P and the context table of one that obeys the law obeys it. -/
theorem PathLaw.of_ctx {s t : State} (h : PathLaw s)
    (k : t.msu.angle = s.msu.angle ∧ t.msu.path = s.msu.path ∧ t.ctx = s.ctx) : PathLaw t :=
  h.of_keepsAim (keepsAim_of_ctx k)

/-- Which switch is pending has no bearing on the context in force. -/
@[simp] theorem ctxGet_pendingSwitch (c : Ctx) (w : Option Switch) (i : CtxIx) :
    ctxGet { c with pendingSwitch := w } i = ctxGet c i := by
  cases i <;> rfl

/-- R12, R47: a clamped path lies within its limit. -/
theorem clampPath_within (limit : Word) (a p : Int) : PathWithin limit a (clampPath limit.toNat a p) := by
  simp only [PathWithin, clampPath]
  repeat' split
  all_goals omega

theorem pathWithin_self (limit : Word) (a : Int) : PathWithin limit a a := by simp [PathWithin]

/-- A state whose path is A, or is clamped by the active context's limits, obeys the law. -/
theorem pathLaw_of_path {s : State}
    (h : s.msu.path = s.msu.angle ∨ ∃ f p, activeFields s = some f ∧ s.msu.path = clampPaths f.limit s.msu.angle p) :
    PathLaw s := by
  simp only [PathLaw]
  obtain h | ⟨f, p, hf, h⟩ := h
  · rw [h]
    cases activeFields s with
    | none => rfl
    | some f => exact ⟨pathWithin_self _ _, pathWithin_self _ _, pathWithin_self _ _⟩
  · simp only [hf, h, clampPaths]
    exact ⟨clampPath_within _ _ _, clampPath_within _ _ _, clampPath_within _ _ _⟩

/-! ## Switches of context -/

/-- The commit point makes the new context active and leaves every context's static fields. -/
theorem commitPoint_active (i : CtxIx) (ret : Bool) (path : PerAxis Int) (c : Ctx) :
    (commitPoint i ret path c).active = some i ∧ (ctxGet (commitPoint i ret path c) i).fields = (ctxGet c i).fields := by
  rcases c with ⟨t0, t1, t2, t3, a, w⟩
  rcases a with _ | a
  · cases i <;> simp [commitPoint, ctxGet, ctxSet]
  · cases i <;> cases a <;> cases ret <;> simp [commitPoint, ctxGet, ctxSet]

/-- R47: what a commit leaves in force and in the path. -/
theorem commit_aim (i : CtxIx) (ret : Bool) (s : State) :
    (commit i ret s).ctx = commitPoint i ret s.msu.path s.ctx ∧
      (commit i ret s).msu.path = clampPaths (ctxGet s.ctx i).fields.limit s.msu.angle
        (loadedPath (ctxGet s.ctx i).saved s.msu.angle) := by
  simp [commit]

theorem commit_pathLaw (i : CtxIx) (ret : Bool) (s : State) : PathLaw (commit i ret s) := by
  obtain ⟨hc, hp⟩ := commit_aim i ret s
  obtain ⟨ha, hf⟩ := commitPoint_active i ret s.msu.path s.ctx
  refine pathLaw_of_path (.inr ⟨(ctxGet s.ctx i).fields, loadedPath (ctxGet s.ctx i).saved s.msu.angle, ?_, ?_⟩)
  · simp [activeFields, hc, ha, hf]
  · rw [hp]; simp

theorem attemptSwitch_pathLaw (i : CtxIx) (ret : Bool) {s : State} (h : PathLaw s) : PathLaw (attemptSwitch i ret s) := by
  simp only [attemptSwitch]
  split
  · exact h.of_keepsAim (by simp [KeepsAim, activeFields])
  · exact commit_pathLaw i ret s

theorem commitPending_pathLaw {s : State} (h : PathLaw s) : PathLaw (commitPending s) := by
  simp only [commitPending]
  split
  · exact h
  · exact attemptSwitch_pathLaw _ _ h

theorem selectCtx_pathLaw (kind tag : Byte) (i : CtxIx) (ret : Bool) {s : State} (h : PathLaw s) :
    PathLaw (selectCtx kind tag i ret s) := by
  simp only [selectCtx]
  repeat' split
  · exact h.of_ctx (by simp)
  · exact h.of_ctx (by simp)
  · exact h.of_keepsAim (by simp [KeepsAim, activeFields])
  · exact (attemptSwitch_pathLaw i ret h).of_ctx (by simp)

theorem ctxReturnReq_pathLaw (tag : Byte) {s : State} (h : PathLaw s) : PathLaw (ctxReturnReq tag s) := by
  simp only [ctxReturnReq]
  repeat' split
  iterate 3 exact h.of_ctx (by simp)
  exact selectCtx_pathLaw _ _ _ _ h

theorem ctxSelectReq_pathLaw (tag index : Byte) {s : State} (h : PathLaw s) : PathLaw (ctxSelectReq tag index s) := by
  simp only [ctxSelectReq]
  split
  · exact h.of_ctx (by simp)
  · exact selectCtx_pathLaw _ _ _ _ h

@[simp] theorem ctxSet_active (c : Ctx) (i : CtxIx) (x : Context) : (ctxSet c i x).active = c.active := by
  cases i <;> rfl

theorem ctxGet_ctxSet (c : Ctx) (i j : CtxIx) (x : Context) :
    ctxGet (ctxSet c i x) j = if j = i then x else ctxGet c j := by
  cases i <;> cases j <;> rfl

/-- R40: the active context cannot be written. -/
theorem ctxWriteReq_pathLaw (tag index : Byte) (fields : CtxFields) {s : State} (h : PathLaw s) :
    PathLaw (ctxWriteReq tag index fields s) := by
  simp only [ctxWriteReq]
  split
  · exact h.of_ctx (by simp)
  · next i _ =>
    split
    · exact h.of_ctx (by simp)
    · next hb =>
      have ha : s.ctx.active ≠ some i := fun ha => hb (by simp [ctxBusy, ha])
      refine h.of_keepsAim ⟨rfl, rfl, ?_⟩
      simp only [activeFields, answer_frame, ctxSet_active]
      cases hs : s.ctx.active with
      | none => rfl
      | some j =>
          have hj : j ≠ i := fun e => ha (e ▸ hs)
          simp [ctxGet_ctxSet, hj]

/-! ## STAB_SET, frames and resets -/

theorem runOff_pathLaw {s : State} (h : PathLaw s) : PathLaw (runOff s) := by
  simp only [runOff]
  split
  · exact h
  · exact h.of_ctx (by simp)
  · exact commitPending_pathLaw (h.of_ctx (by simp))

theorem setLearning_aim (learn : Bool) (still : Nat) (m : Msu) :
    (setLearning learn still m).angle = m.angle ∧ (setLearning learn still m).path = m.path := by
  simp only [setLearning]
  split <;> simp

theorem stabSetReq_pathLaw (tag run learn still : Byte) {s : State} (h : PathLaw s) :
    PathLaw (stabSetReq tag run learn still s) := by
  simp only [stabSetReq]
  split
  · next go on _ _ =>
    set u : State := { s with msu := setLearning on (clampNat 1 255 still.toNat) s.msu } with hu
    have hl : PathLaw u := h.of_ctx (by simp [hu, setLearning_aim])
    have hv : PathLaw (if go = true then runOn u else runOff u) := by
      split
      · exact hl.of_ctx (by simp)
      · exact runOff_pathLaw hl
    exact hv.of_ctx (by simp)
  · exact h.of_ctx (by simp)

theorem fsyncStep_pathLaw {s : State} (h : PathLaw s) : PathLaw (fsyncStep s) := by
  simp only [fsyncStep]
  exact (commitPending_pathLaw (h.of_ctx (t := forceSample s) (by simp))).of_ctx (by simp)

/-- The part right after any reset stands with A and P at 0 and no context (R9, R39). -/
theorem pathLaw_of_reset {s : State} (hm : s.msu = Msu.reset) : PathLaw s :=
  pathLaw_of_path (.inl (by rw [hm]; rfl))

theorem beginReset_pathLaw (c : ResetCause) {s : State} (h : PathLaw s) : PathLaw (beginReset c s) := by
  simp only [beginReset, cutOff]
  split
  · exact h.of_ctx (by simp)
  · exact h.of_keepsAim (by simp [KeepsAim, activeFields])

theorem finishReset_pathLaw {s : State} (h : PathLaw s) : PathLaw (finishReset s) := by
  simp only [finishReset, rideAtStart]
  (repeat' split)
  · exact pathLaw_of_reset (by simp [powerOnState, State.reset])
  · exact pathLaw_of_reset rfl
  · exact pathLaw_of_reset rfl
  · exact h

theorem requestReset_pathLaw {s : State} (h : PathLaw s) : PathLaw (requestReset s) :=
  finishReset_pathLaw (beginReset_pathLaw _ h)

/-! ## The tick -/

/-- R11 to R13: the path after a tick's arithmetic. -/
theorem tickMsu_path (f : Option CtxFields) (m : Msu) :
    (tickMsu f m).1.path = (tickMsu f m).1.angle ∨
      ∃ g p, f = some g ∧ (tickMsu f m).1.path = clampPaths g.limit (tickMsu f m).1.angle p := by
  simp only [tickMsu, pathStep]
  cases f with
  | none => exact .inl rfl
  | some g =>
      cases restoredNow m with
      | true => exact .inl rfl
      | false => exact .inr ⟨g, _, rfl, rfl⟩

theorem leaveRunning_pathLaw {s : State} (h : PathLaw s) : PathLaw (leaveRunning s) := by
  simp only [leaveRunning]
  split
  · exact commitPending_pathLaw (h.of_ctx (by simp))
  · exact h

theorem tickWork_pathLaw (s : State) : PathLaw (tickWork s) := by
  simp only [tickWork]
  set u : State := { s with
    msu := (tickMsu (activeFields s) s.msu).1
    csu := { s.csu with offset := offsetOf (tickMsu (activeFields s) s.msu).1 } } with hu
  have h0 : PathLaw u := by
    refine pathLaw_of_path ?_
    exact (tickMsu_path (activeFields s) s.msu).imp_right fun ⟨f, p, hf, hp⟩ => ⟨f, p, hf, hp⟩
  clear_value u
  have h1 : PathLaw (learnBias (carry { sampleConditions s.msu with pathClamp := (tickMsu (activeFields s) s.msu).2 } u)) :=
    h0.of_ctx (by simp)
  generalize learnBias _ = v at h1
  have h2 : PathLaw (splitTick (ratesOf s.msu) (if impactNow s.msu then impact v else v)) :=
    h1.of_ctx (by split <;> simp)
  generalize splitTick _ _ = w at h2
  have h3 : PathLaw (if lostNow s.msu then sensorLost w else w) := by
    split
    · exact leaveRunning_pathLaw (h2.of_ctx (by simp))
    · exact h2
  generalize (if lostNow s.msu then sensorLost w else w) = x at h3
  exact h3.of_ctx (by split <;> simp)

theorem tickStep_pathLaw {s : State} (h : PathLaw s) : PathLaw (tickStep s) := by
  have hw : PathLaw (if s.msu.read = .idle then s else tickWork s) := by
    split
    · exact h
    · exact tickWork_pathLaw s
  exact hw.of_ctx (t := passTick _) (by simp)

/-! ## Every row -/

/-- The requests but those of the stabilization and of the contexts leave A, P and the contexts alone. -/
theorem runRequest_pathLaw (i : Instr) {s : State} (h : PathLaw s) : PathLaw (runRequest i s) := by
  cases i
  case stabSet => exact stabSetReq_pathLaw _ _ _ _ h
  case ctxWrite => exact ctxWriteReq_pathLaw _ _ _ h
  case ctxSelect => exact ctxSelectReq_pathLaw _ _ h
  case ctxReturn => exact ctxReturnReq_pathLaw _ h
  all_goals exact h.of_ctx (by simp [runRequest])

theorem takeFrame_pathLaw (bytes : List Byte) {s : State} (h : PathLaw s) : PathLaw (takeFrame bytes s) := by
  simp only [takeFrame, errorReply]
  split
  · exact runRequest_pathLaw _ h
  all_goals exact h.of_ctx (by simp)

theorem readTransaction_pathLaw (n : Nat) {s : State} (h : PathLaw s) : PathLaw (readTransaction n s) := by
  have hl : PathLaw { s with lnk := linkAfterRead n s.lnk } := h.of_ctx (by simp)
  simp only [readTransaction]
  split
  · exact (requestReset_pathLaw hl).of_ctx (by simp)
  · exact hl

theorem rowEffect_pathLaw (i : Instr) {s : State} (h : PathLaw s) : PathLaw (rowEffect i s) := by
  have ht := tickStep_pathLaw h
  cases i
  case tick => exact ht
  case sensorLost | sensorRestored | biasLearned | impactQualify => exact stepThat_keeps h ht
  case fsyncEdge => exact fsyncStep_pathLaw h
  case readTransaction => exact readTransaction_pathLaw _ h
  case writeTransaction =>
    simp only [rowEffect]
    repeat' split
    · exact h
    · exact readTransaction_pathLaw _ h
    · exact takeFrame_pathLaw _ h
  case brownout =>
    simp only [rowEffect, brownout]
    split
    · exact h
    · exact (beginReset_pathLaw .brownout h).of_ctx (by simp)
  case railBelowPowerOnLevel =>
    simp only [rowEffect, belowPowerOnLevel]
    split
    · exact (beginReset_pathLaw .powerOn h).of_ctx (by simp)
    · exact h
  case powerOnResetEnd =>
    simp only [rowEffect, supplyBack]
    repeat' split
    · exact finishReset_pathLaw (h.of_ctx (by simp))
    · exact h
    · exact h.of_ctx (by simp only [riseToWarn]; split <;> simp)
    · exact h
  case rstnLow =>
    simp only [rowEffect, lineFalls]
    split
    · exact h
    · exact (beginReset_pathLaw .line h).of_ctx (by simp)
  case rstnHigh =>
    simp only [rowEffect, lineRises]
    split
    · exact finishReset_pathLaw (h.of_ctx (by simp))
    · exact h
  case resetWaitExpiry =>
    simp only [rowEffect, waitExpiry]
    repeat' split
    · exact h
    · exact requestReset_pathLaw h
    · exact h
  case batteryAbsent | batteryPresent | sourcePresent | sourceLost | iEffRaise | chargeDone | checkpoint =>
    exact stepThat_keeps h (h.of_ctx (by simp))
  case bringUpDone | formatHeaderDone | scanReadDone | blockWriteDone | headerUpdateDone | openingHeaderDone |
      closedHeaderDone | hostReadDone | railBelowWarn | railRecover | railBelowRecover =>
    simp only [rowEffect]
    (repeat' split) <;> exact h.of_ctx (by simp)
  case sensorReadDone | rearmHoldExpiry | impactParkExpiry | cropSample | frameGetTimeout | pwmPeriodStart |
      ocComparatorChange | overcurrentFault | retryDelayExpiry | cleanRunExpiry | scanConversion | cardAttemptFailed |
      cardAttemptTimeout | unitWriteDone | motionReadTimeout | cdetChange | cardInserted | cardRemoved |
      rideThroughExpiry | emergencyWriteDone | emergencyWriteFailed | stableTimeReached | quietTimerExpiry |
      windowTimerExpiry =>
    exact h.of_ctx (by simp [rowEffect])
  all_goals exact runRequest_pathLaw _ h

/-- Settles O23: no row but a tick, a commit and a reset touches A, P or the active context's fields, and each of these
leaves P equal to A or clamped to the limits of the context in force. -/
theorem pathLawIsKept : Obligations.PathLawIsKept := fun _ _ =>
  step_keeps (fun _ _ h => h.of_ctx (by simp)) (fun _ h => h.of_ctx (by simp [refuse]))
    (fun i _ _ h => rowEffect_pathLaw i h)

end Sys2Proof.Machine
end

section
/-! BIAS_SET, IMPACT_SET and STAB_SET, the sensor's answers, and the ends of the two impact holds (R1, R6, R16 to R20). -/

namespace Sys2Proof.Machine

/-! ## Values brought into range -/

theorem clampInt_eq {lo hi : Int} (h : lo ≤ hi) (z : Int) : clampInt lo hi z = max lo (min hi z) := by
  simp only [clampInt]
  repeat' split
  all_goals omega

theorem clampNat_eq {lo hi : Nat} (h : lo ≤ hi) (n : Nat) : clampNat lo hi n = max lo (min hi n) := by
  simp only [clampNat]
  repeat' split
  all_goals omega

/-- R6: the sent bias is stored within −512..511. -/
theorem clampBias_eq (x : Half) : clampBias x = max (-512) (min 511 x.toInt) := clampInt_eq (by decide) _

/-- R17: the six settings as stored. -/
theorem clampImpact_eq (thr count : Byte) (rearm park : Half) (pre post : Byte) :
    clampImpact thr count rearm park pre post =
      { thr := max 16 thr.toNat
        count := max 1 (min 64 count.toNat)
        rearm := max 250 (min 8000 rearm.toNat)
        park := min 5000 park.toNat
        pre := min 60 pre.toNat
        post := min 60 post.toNat } := by
  have ht := thr.isLt
  rw [clampImpact, clampNat_eq (by omega), clampNat_eq (by omega), clampNat_eq (by omega), clampNat_eq (by omega),
    clampNat_eq (by omega), clampNat_eq (by omega), min_eq_right (by omega : thr.toNat ≤ 255)]
  simp

/-- R17: a setting was changed exactly where the stored ones are not the sent ones. -/
theorem impactChanged_eq (i : ImpactSettings) (thr count : Byte) (rearm park : Half) (pre post : Byte) :
    impactChanged i thr count rearm park pre post =
      !decide (i = ⟨thr.toNat, count.toNat, rearm.toNat, park.toNat, pre.toNat, post.toNat⟩) := by
  rcases i with ⟨a, b, c, d, e, f⟩
  simp only [impactChanged, ImpactSettings.mk.injEq, bne, Bool.decide_and, Bool.not_and, Bool.or_assoc]
  rfl

theorem clampStatus_not (p : Prop) [Decidable p] : clampStatus (!decide p) = if p then .ok else .clamped := by
  by_cases h : p <;> simp [clampStatus, h]

/-- R6: BIAS_SET as it is answered and stored. -/
theorem biasSetReq_eq (tag : Byte) (yaw pitch roll : Half) (s : State) :
    biasSetReq tag yaw pitch roll s =
      answer 0x11#8 tag
        (if clampBias yaw = yaw.toInt ∧ clampBias pitch = pitch.toInt ∧ clampBias roll = roll.toInt
          then .ok else .clamped)
        (s16 (clampBias yaw) ++ s16 (clampBias pitch) ++ s16 (clampBias roll))
        { s with msu := { s.msu with
            bias := ⟨clampBias yaw, clampBias pitch, clampBias roll⟩, winCount := 0, winSum := ⟨0, 0, 0⟩ } } := by
  rw [← clampStatus_not]
  simp [biasSetReq, emptyWindow, allAxes, bne, Bool.decide_and, Bool.not_and, Bool.or_assoc]
  rfl

/-- Settles O17: both requests clamp value by value, and the status tells whether a clamp changed one. -/
theorem motionSettingsAreClamped : Obligations.MotionSettingsAreClamped := by
  refine ⟨fun tag yaw pitch roll s ht => ?_, fun tag thr count rearm park pre post s ht => ?_⟩
  · refine (takeReq_takes ht (biasSetReq tag yaw pitch roll)).trans ?_
    simp only [biasSetReq_eq, clampBias_eq]
  · refine (takeReq_takes ht (impactSetReq tag thr count rearm park pre post)).trans ?_
    simp only [impactSetReq, impactChanged_eq, clampStatus_not, clampImpact_eq]
    rfl

/-! ## The sensor line and the holds -/

/-- R18, R20: a hold that ends at `e` is over from `e` on, for half the range of part time. -/
theorem expired_some (now e : Word) : expired now (some e) = decide ((now - e).toNat < 2147483648) := rfl

/-- Settles O20: each of the three moments acts when its read or its end time stands, and else does nothing. -/
theorem sensorAnswersAndHoldsEnd : Obligations.SensorAnswersAndHoldsEnd := by
  refine ⟨fun x s ha => ?_, fun s e ha he => ?_, fun s e ha he => ?_⟩
  · have hx : exec (.sensorReadDone x) s = .next (readAnswered x s) := whenUp_awake ha _
    exact ⟨fun h => by rw [hx]; cases x <;> simp [readAnswered, h], fun h => by rw [hx]; simp [readAnswered, h]⟩
  · have hx : exec .rearmHoldExpiry s = .next (rearmExpiry s) := whenUp_awake ha _
    rw [hx, rearmExpiry, he, expired_some]
    refine ⟨fun h => by rw [if_pos (by simpa using h)], fun h => ?_⟩
    rw [if_neg (by simpa using h)]
  · have hx : exec .impactParkExpiry s = .next (parkExpiry s) := whenUp_awake ha _
    rw [hx, parkExpiry, he, expired_some]
    refine ⟨fun h => ?_, fun h => ?_⟩
    · obtain ⟨hrest, hchan⟩ := removeParkAll_spec .impact { s with msu := { s.msu with parkEnd := none } }
      rw [if_pos (by simpa using h)]
      exact ⟨_, rfl, hrest, hchan⟩
    · rw [if_neg (by simpa using h)]

end Sys2Proof.Machine
end

section
/-! Leaving RUNNING, the pending switch that ends there, and STAB_SET (R16, R22, R44 to R48). -/

namespace Sys2Proof.Machine

/-! ## The steps become 0 (R22) -/

theorem handStep_handStep (v : Int) (ch : Channel) : handStep v (handStep v ch) = handStep v ch := by
  simp only [handStep_eq]
  split <;> simp [*]

/-- R22: the state in which every step is 0 and every channel has been handed the 0. -/
def StepsZeroed (s t : State) : Prop :=
  t.csu.step = ⟨0, 0, 0⟩ ∧ t.csu.absorbed = ⟨0, 0, 0⟩ ∧
    t.adu = ⟨handStep 0 s.adu.sx, handStep 0 s.adu.sy, handStep 0 s.adu.rt⟩

theorem StepsZeroed.chan {s t : State} (h : StepsZeroed s t) (c : Chan) :
    chanGet t.adu c = handStep 0 (chanGet s.adu c) := by
  rw [h.2.2]
  cases c <;> rfl

/-! ## A pending switch ends (R44 to R48) -/

/-- R46: the commit point, of any context, the active one too. -/
theorem commitPoint_table (i : CtxIx) (ret : Bool) (p : PerAxis Int) (c : Ctx) :
    (commitPoint i ret p c).active = some i ∧ (commitPoint i ret p c).pendingSwitch = none ∧
      ∀ j, ctxGet (commitPoint i ret p c) j =
          { ctxGet c j with
            saved := if c.active = some j then some p else (ctxGet c j).saved
            link := if ret = true ∧ c.active = some j then none
              else if j = i then c.active else (ctxGet c j).link } := by
  by_cases hi : c.active = some i
  · rcases c with ⟨t0, t1, t2, t3, a, w⟩
    obtain rfl : a = some i := hi
    refine ⟨rfl, rfl, fun j => ?_⟩
    cases i <;> cases j <;> cases ret <;> rfl
  · exact commitPoint_spec i ret p c hi

/-- What the end of a switch says depends on the contexts, the path and angle, the link, the frame count and the clock. -/
theorem SwitchEnds.congr {w : Switch} {s s' t : State} (h : SwitchEnds w s t) (hc : s'.ctx = s.ctx)
    (hp : s'.msu.path = s.msu.path) (ha : s'.msu.angle = s.msu.angle) (hl : s'.lnk.events = s.lnk.events)
    (hm : s'.lnk.recordMask = s.lnk.recordMask) (hf : s'.csu.frame = s.csu.frame) (hn : s'.now = s.now) :
    SwitchEnds w s' t := by
  have hev : ∀ d, eventsWith d s' = eventsWith d s := by
    intro d
    simp only [eventsWith, raiseIn, hl, hm]
    split
    · rfl
    · exact hl
  simp only [SwitchEnds, hc, hp, ha, hf, hn, hev] at h ⊢
  exact h

/-- R45 to R48, outside RUNNING: the switch ends, and only the path, the state and what a commit hands out change. -/
theorem attemptSwitch_standing (w : Switch) (s : State) (h : s.msu.stab ≠ .running) :
    SwitchEnds w s (attemptSwitch w.index w.ret s) ∧ (attemptSwitch w.index w.ret s).ctx.pendingSwitch = none := by
  rcases w with ⟨i, ret⟩
  simp only [attemptSwitch, SwitchEnds]
  cases hb : firstBad (ctxGet s.ctx i).fields with
  | some c => simp [eventsWith, raise]
  | none =>
      obtain ⟨hact, hpend, hget⟩ := commitPoint_table i ret s.msu.path s.ctx
      rw [commit_standing i ret s h]
      exact ⟨⟨by simp, fun _ => ⟨hact, hpend, rfl, rfl, hget⟩⟩, hpend⟩

/-- R45 to R48, outside RUNNING: what becomes of the motion unit. -/
theorem attemptSwitch_msu (i : CtxIx) (ret : Bool) (s : State) (h : s.msu.stab ≠ .running) :
    (attemptSwitch i ret s).msu = { s.msu with
      path := (attemptSwitch i ret s).msu.path, stab := (attemptSwitch i ret s).msu.stab } ∧
    (s.msu.stab = .off ∨ s.msu.fault = true → (attemptSwitch i ret s).msu.stab = s.msu.stab) ∧
    (s.msu.stab = .off → (attemptSwitch i ret s).csu.carried = s.csu.carried) := by
  simp only [attemptSwitch]
  split
  · simp
  · rw [commit_standing i ret s h]
    refine ⟨rfl, fun hs => ?_, fun ho => by simp [ho]⟩
    rcases hs with hs | hs <;> simp [hs]

/-- R22, R47: a switch that ends outside RUNNING leaves zeroed steps zeroed. -/
theorem StepsZeroed.attemptSwitch {s u : State} (h : StepsZeroed s u) (i : CtxIx) (ret : Bool)
    (hr : u.msu.stab ≠ .running) : StepsZeroed s (attemptSwitch i ret u) := by
  obtain ⟨hst, hab, hadu⟩ := h
  simp only [Machine.attemptSwitch]
  split
  · exact ⟨hst, hab, hadu⟩
  · rw [commit_standing i ret u hr]
    exact ⟨rfl, rfl, by simp [hadu, handStep_handStep]⟩

/-- R22, R44: RUNNING has been left for the state of `s`: every step is 0 and the pending switch has ended. -/
structure LeftRunning (s t : State) : Prop where
  steps : StepsZeroed s t
  pending : t.ctx.pendingSwitch = none
  idle : s.ctx.pendingSwitch = none → t = zeroSteps s
  ends : ∀ w, s.ctx.pendingSwitch = some w → SwitchEnds w s t
  msu : t.msu = { s.msu with path := t.msu.path, stab := t.msu.stab }
  stab : s.msu.stab = .off ∨ s.msu.fault = true → t.msu.stab = s.msu.stab
  carried : s.msu.stab = .off → t.csu.carried = s.csu.carried

theorem commitPending_zeroSteps (s : State) (h : s.msu.stab ≠ .running) :
    LeftRunning s (commitPending (zeroSteps s)) := by
  have hz : StepsZeroed s (zeroSteps s) := ⟨rfl, rfl, rfl⟩
  have hr : (zeroSteps s).msu.stab ≠ .running := by simpa using h
  have hp : (zeroSteps s).ctx.pendingSwitch = s.ctx.pendingSwitch := by simp
  simp only [commitPending, hp]
  cases hw : s.ctx.pendingSwitch with
  | none =>
      exact ⟨hz, by simp [hw], fun _ => rfl, fun w hw' => absurd (hw.symm.trans hw') (by simp), by simp, by simp, by simp⟩
  | some w =>
      obtain ⟨hends, hnone⟩ := attemptSwitch_standing w _ hr
      obtain ⟨hmsu, hstab, hcar⟩ := attemptSwitch_msu w.index w.ret _ hr
      simp only [zeroSteps_frame] at hmsu hstab hcar
      exact
        { steps := hz.attemptSwitch w.index w.ret hr
          pending := hnone
          idle := fun hn => absurd (hw.symm.trans hn) (by simp)
          ends := fun w' hw' => by
            obtain rfl : w = w' := Option.some.inj (hw.symm.trans hw')
            exact hends.congr (by simp) (by simp) (by simp) (by simp) (by simp) (by simp) (by simp)
          msu := hmsu
          stab := hstab
          carried := hcar }

/-! ## STAB_SET (R7, R16) -/

/-- R7, R16: learning and the threshold as stored, and the window emptied when the one goes off or the other changes. -/
theorem setLearning_eq (on : Bool) (n : Nat) (m : Msu) :
    setLearning on n m = { m with
      learn := on
      still := n
      winCount := if (m.learn = true ∧ on = false) ∨ m.still ≠ n then 0 else m.winCount
      winSum := if (m.learn = true ∧ on = false) ∨ m.still ≠ n then ⟨0, 0, 0⟩ else m.winSum } := by
  by_cases h : (m.learn = true ∧ on = false) ∨ m.still ≠ n
  · have hb : ((m.learn && !on) || m.still != n) = true := by simpa using h
    simp only [setLearning, hb, h, if_true, emptyWindow]
    rfl
  · have hb : ((m.learn && !on) || m.still != n) = false := by simpa using h
    simp [setLearning, hb, h]

theorem onOff_none {b : Byte} (h : 1 < b.toNat) : onOff b = none := by
  have h0 : b ≠ 0 := by rintro rfl; simp at h
  have h1 : b ≠ 1 := by rintro rfl; simp at h
  rw [onOff, if_neg h0, if_neg h1]

theorem onOff_some {b : Byte} (h : b.toNat ≤ 1) : onOff b = some (b == 1#8) := by
  obtain rfl | rfl : b = 0#8 ∨ b = 1#8 := by bv_omega
  · rfl
  · rfl

/-- A link without a held request has no frame read to end. -/
theorem endFrameGet_free (status : Status) {s : State} (h : s.lnk.req = none) : endFrameGet status s = s := by
  simp [endFrameGet, h]

/-- R31, R33: entering OFF with no frame read held. -/
theorem enterOff_eq {s : State} (h : s.lnk.req = none) :
    enterOff s = { s with
      msu := { s.msu with stab := .off }
      csu := { s.csu with sample := none, carried := Carried.empty } } :=
  endFrameGet_free _ h

/-- R16, run on: all it can change is the state, which leaves OFF. -/
theorem runOn_eq (s : State) :
    runOn s = { s with msu := { s.msu with
      stab := if s.msu.stab = .off then if s.ctx.active ≠ none ∧ s.msu.fault = false then .running else .standby
        else s.msu.stab } } := by
  simp only [runOn]
  cases hs : s.msu.stab with
  | off => cases ha : s.ctx.active <;> cases hf : s.msu.fault <;> simp
  | standby => simp only [reduceCtorEq, if_false]; rw [← hs]
  | running => simp only [reduceCtorEq, if_false]; rw [← hs]

/-- R16, run off outside RUNNING. -/
theorem runOff_standing {s : State} (hl : s.lnk.req = none) (h : s.msu.stab ≠ .running) :
    runOff s = { s with
      msu := { s.msu with stab := .off }
      csu := if s.msu.stab = .off then s.csu else { s.csu with sample := none, carried := Carried.empty } } := by
  simp only [runOff]
  cases hs : s.msu.stab with
  | off => simp [← hs]
  | standby => simp [enterOff_eq hl]
  | running => exact absurd hs h

/-- R16, run off in RUNNING: OFF is entered, the steps become 0 and the pending switch ends there. -/
theorem runOff_running {s : State} (h : s.msu.stab = .running) : LeftRunning (enterOff s) (runOff s) := by
  simp only [runOff, h]
  exact commitPending_zeroSteps _ (by simp [enterOff])

/-- R7, R16: the state of a request that is taken once learning and the threshold are stored. -/
def withLearning (learn still : Byte) (s : State) : State :=
  { s with msu := setLearning (learn == 1#8) (max 1 still.toNat) s.msu }

/-- R7, R16: what a listed learn code and a threshold make of the motion unit. -/
theorem withLearning_eq {learn : Byte} (h : learn.toNat ≤ 1) (still : Byte) (s : State) :
    withLearning learn still s =
      let n := max 1 still.toNat
      let emptied : Bool := decide ((s.msu.learn = true ∧ learn = 0#8) ∨ s.msu.still ≠ n)
      { s with msu := { s.msu with
          learn := learn == 1#8
          still := n
          winCount := if emptied then 0 else s.msu.winCount
          winSum := if emptied then ⟨0, 0, 0⟩ else s.msu.winSum } } := by
  have hoff : (learn == 1#8) = false ↔ learn = 0#8 := by
    obtain rfl | rfl : learn = 0#8 ∨ learn = 1#8 := by bv_omega
    · decide
    · decide
  simp only [withLearning, setLearning_eq, hoff, decide_eq_true_eq]

/-- R16: the reply to a STAB_SET that has been carried out in `u`, with the state it has come to. -/
def stabAnswered (tag still : Byte) (u : State) : State :=
  answer 0x10#8 tag (if still = 0#8 then .clamped else .ok) (u8 (stabCode u.msu.stab) ++ u8 (max 1 still.toNat)) u

/-- R16: a STAB_SET of listed codes. -/
theorem stabSetReq_listed (tag : Byte) {run learn : Byte} (still : Byte) (s : State) (hr : run.toNat ≤ 1)
    (hl : learn.toNat ≤ 1) :
    stabSetReq tag run learn still s =
      stabAnswered tag still
        (if (run == 1#8) = true then runOn (withLearning learn still s) else runOff (withLearning learn still s)) := by
  have hn : clampNat 1 255 still.toNat = max 1 still.toNat := by
    have := still.isLt
    rw [clampNat_eq (by omega)]
    omega
  have hst : clampStatus (max 1 still.toNat != still.toNat) = if still = 0#8 then .clamped else .ok := by
    by_cases h : still = 0#8
    · subst h; rfl
    · have : max 1 still.toNat = still.toNat := by bv_omega
      simp [clampStatus, h, this]
  simp only [stabSetReq, onOff_some hr, onOff_some hl, hn, hst]
  rfl

/-- R16: run off leaves the motion unit as it was but for the state and the path. -/
theorem runOff_keeps {s : State} (hl : s.lnk.req = none) :
    (runOff s).msu = { s.msu with path := (runOff s).msu.path, stab := .off } := by
  by_cases h : s.msu.stab = .running
  · have hleft := runOff_running h
    rw [enterOff_eq hl] at hleft
    rw [hleft.msu, hleft.stab (.inl rfl)]
  · simp [runOff_standing hl h]

/-- R16, R44 to R48: run off in RUNNING, with no frame read held. -/
theorem runOff_leaves {s : State} (hl : s.lnk.req = none) (h : s.msu.stab = .running) :
    StepsZeroed s (runOff s) ∧ (runOff s).ctx.pendingSwitch = none ∧
      (runOff s).csu.sample = none ∧ (runOff s).csu.carried = Carried.empty ∧
      (s.ctx.pendingSwitch = none →
        (runOff s).ctx = s.ctx ∧ (runOff s).msu.path = s.msu.path ∧ (runOff s).lnk.events = s.lnk.events) ∧
      ∀ w, s.ctx.pendingSwitch = some w → SwitchEnds w s (runOff s) := by
  have hleft := runOff_running h
  have hsample : (runOff s).csu.sample = none := by simp [runOff, h, enterOff]
  rw [enterOff_eq hl] at hleft
  refine ⟨hleft.steps, hleft.pending, hsample, hleft.carried rfl, fun hn => ?_, fun w hw => ?_⟩
  · rw [hleft.idle hn]
    simp
  · exact (hleft.ends w hw).congr rfl rfl rfl rfl rfl rfl rfl

/-- Settles O16: run on changes the state alone; run off leaves RUNNING through the end of the pending switch. -/
theorem stabSetByState : Obligations.StabSetByState := by
  intro tag run learn still s ht
  have hx : exec (.stabSet tag run learn still) s = .next (stabSetReq tag run learn still s) := takeReq_takes ht _
  refine ⟨fun hbad => ?_, fun hr hl => ?_⟩
  · rw [hx]
    rcases hbad with hbad | hbad
    · simp only [stabSetReq, onOff_none hbad]; rfl
    · simp only [stabSetReq, onOff_none hbad]
      cases onOff run <;> rfl
  rw [stabSetReq_listed tag still s hr hl] at hx
  have hlearn := withLearning_eq hl still s
  have hreq : (withLearning learn still s).lnk.req = none := ht.2.1
  obtain rfl | rfl : run = 0#8 ∨ run = 1#8 := by bv_omega
  · rw [if_neg (by decide)] at hx
    refine ⟨_, hx, ?_⟩
    have hmsu := runOff_keeps hreq
    have hstab : (runOff (withLearning learn still s)).msu.stab = .off := by rw [hmsu]
    refine ⟨?_, ?_, ?_, rfl, ?_, fun h => absurd h (by decide), fun _ => ⟨hstab, ?_⟩⟩
    · simp [KeepsClock, stabAnswered, hlearn]
    · simp [KeepsPower, stabAnswered, hlearn]
    · simp [KeepsCard, stabAnswered, hlearn]
    · have hm : (stabAnswered tag still (runOff (withLearning learn still s))).msu =
          (runOff (withLearning learn still s)).msu := rfl
      rw [hm, hstab]
      refine hmsu.trans ?_
      rw [hlearn]
    by_cases hrun : s.msu.stab = .running
    · obtain ⟨hsteps, hpend, hsample, hcar, hidle, hends⟩ :=
        runOff_leaves hreq (by simpa [hlearn] using hrun)
      refine ⟨fun _ => ⟨hsample, hcar⟩, fun h => absurd hrun h, fun _ =>
        ⟨hpend, hsteps.1, hsteps.2.1, fun hn => ?_, fun w hw => ?_, fun c => ?_⟩⟩
      · simpa [hlearn, stabAnswered] using hidle (by simpa [hlearn] using hn)
      · exact (hends w (by simpa [hlearn] using hw)).congr (by simp [hlearn]) (by simp [hlearn]) (by simp [hlearn])
          (by simp [hlearn]) (by simp [hlearn]) (by simp [hlearn]) (by simp [hlearn])
      · have := hsteps.chan c
        simpa [hlearn, stabAnswered, handStep_eq] using this
    · have hoff := runOff_standing hreq (by simpa [hlearn] using hrun)
      refine ⟨fun h => ?_, fun _ => ?_, fun h => absurd h hrun⟩
      · rw [hoff]
        simp [stabAnswered, hlearn, h]
      · rw [hoff]
        have hstep : (if s.msu.stab = .off then s.csu
            else { s.csu with sample := none, carried := Carried.empty }).step = s.csu.step := by split <;> rfl
        simpa [stabAnswered, hlearn, KeepsLinkButReply, answer] using hstep
  · rw [if_pos (by decide), runOn_eq] at hx
    refine ⟨_, hx, ?_⟩
    simp [KeepsClock, KeepsPower, KeepsCard, KeepsLinkButReply, hlearn, answer, stabAnswered]

end Sys2Proof.Machine
end

section
/-! What the operations leave of the channels' and of the charger's settings (R55, R155): one lemma an operation. -/

namespace Sys2Proof.Machine

set_option linter.unnecessarySeqFocus false
set_option linter.unusedTactic false
set_option linter.unreachableTactic false

/-- The settings of the channels and their attempts left (R55, R66). -/
def driveOf (a : PerChan Channel) : PerChan (ChanSettings × Nat) :=
  ⟨(a.sx.cfg, a.sx.attempts), (a.sy.cfg, a.sy.attempts), (a.rt.cfg, a.rt.attempts)⟩

/-- The settings of the charger (R155). -/
def chargeSettings (g : Chg) : Nat × Nat × Nat × Nat × Nat :=
  (g.target, g.targetInUse, g.fast, g.termination, g.fastTimer)

theorem chanGet_driveOf (a : PerChan Channel) (c : Chan) :
    chanGet (driveOf a) c = ((chanGet a c).cfg, (chanGet a c).attempts) := by
  cases c <;> rfl

@[simp] theorem driveOf_chanSet (a : PerChan Channel) (c : Chan) (ch : Channel) :
    driveOf (chanSet a c ch) = chanSet (driveOf a) c (ch.cfg, ch.attempts) := by
  cases c <;> rfl

@[simp] theorem chanSet_driveOf_self (a : PerChan Channel) (c : Chan) :
    chanSet (driveOf a) c ((chanGet a c).cfg, (chanGet a c).attempts) = driveOf a := by
  cases c <;> rfl

/-! ## Channels -/

@[simp] theorem handStep_settings (v : Int) (ch : Channel) :
    (handStep v ch).cfg = ch.cfg ∧ (handStep v ch).attempts = ch.attempts := by
  rw [handStep_eq]; split <;> simp

@[simp] theorem haltChannel_settings (st : ChanState) (ch : Channel) :
    (haltChannel st ch).cfg = ch.cfg ∧ (haltChannel st ch).attempts = ch.attempts := ⟨rfl, rfl⟩

@[simp] theorem activateChannel_settings (now : Word) (ch : Channel) :
    (activateChannel now ch).cfg = ch.cfg ∧ (activateChannel now ch).attempts = ch.attempts := ⟨rfl, rfl⟩

@[simp] theorem resumeChannel_settings (now : Word) (ch : Channel) :
    (resumeChannel now ch).cfg = ch.cfg ∧ (resumeChannel now ch).attempts = ch.attempts := by
  simp only [resumeChannel]; split <;> simp

@[simp] theorem putChan_drive (c : Chan) (ch : Channel) (s : State) :
    driveOf (putChan c ch s).adu = chanSet (driveOf s.adu) c (ch.cfg, ch.attempts) := by
  simp [putChan]

@[simp] theorem setStep_drive (c : Chan) (step absorbed : Int) (s : State) :
    driveOf (setStep c step absorbed s).adu = driveOf s.adu := by
  simp [setStep]

@[simp] theorem zeroStep_drive (c : Chan) (s : State) : driveOf (zeroStep c s).adu = driveOf s.adu := by
  simp [zeroStep]

@[simp] theorem moveChannel_drive (c : Chan) (ch : Channel) (s : State) :
    driveOf (moveChannel c ch s).adu = chanSet (driveOf s.adu) c (ch.cfg, ch.attempts) := by
  simp only [moveChannel]; split <;> simp

@[simp] theorem addPark_drive (r : ParkReason) (c : Chan) (s : State) :
    driveOf (addPark r c s).adu = driveOf s.adu := by
  simp only [addPark]; split <;> simp

@[simp] theorem removePark_drive (r : ParkReason) (c : Chan) (s : State) :
    driveOf (removePark r c s).adu = driveOf s.adu := by
  simp only [removePark]; split <;> simp

/-- What each channel's operation keeps, the operation on the named channels keeps. -/
theorem forMask_keeps {P : State → Prop} {f : Chan → State → State} (hf : ∀ c s, P s → P (f c s)) (m : PerChan Bool)
    {s : State} (h : P s) : P (forMask m f s) := by
  have one (b : Bool) (c : Chan) (u : State) (hu : P u) : P (if b then f c u else u) := by
    cases b
    · exact hu
    · exact hf c u hu
  exact one _ _ _ (one _ _ _ (one _ _ _ h))

/-- What each channel's operation leaves of the settings, the operation on the named channels leaves. -/
theorem forMask_drive {f : Chan → State → State} (hf : ∀ c s, driveOf (f c s).adu = driveOf s.adu) (m : PerChan Bool)
    (s : State) : driveOf (forMask m f s).adu = driveOf s.adu :=
  forMask_keeps (P := fun t => driveOf t.adu = driveOf s.adu) (fun c t h => (hf c t).trans h) m rfl

@[simp] theorem disableChannel_drive (c : Chan) (s : State) : driveOf (disableChannel c s).adu = driveOf s.adu := by
  simp [disableChannel]

@[simp] theorem thermalShutdown_drive (temp : Int) (s : State) :
    driveOf (thermalShutdown temp s).adu = driveOf s.adu := by
  simp only [thermalShutdown]
  split
  · exact forMask_drive (fun c t => by simp) _ s
  · rfl

@[simp] theorem retryExpiry_drive (c : Chan) (s : State) : driveOf (retryExpiry c s).adu = driveOf s.adu := by
  simp only [retryExpiry]; split <;> simp

/-! ## The charger -/

@[simp] theorem setPause_charge (p : PauseSet) (s : State) :
    chargeSettings (setPause p s).chg = chargeSettings s.chg := by
  simp only [setPause]; split <;> simp [chargeSettings]

@[simp] theorem lowerCommand_charge (s : State) : chargeSettings (lowerCommand s).chg = chargeSettings s.chg := by
  simp only [lowerCommand]; split <;> simp [chargeSettings]

@[simp] theorem noticePhase_charge (s : State) : chargeSettings (noticePhase s) = chargeSettings s.chg := by
  simp only [noticePhase, cyclePhase, newCycle, moveCycle, setCycle, chargeSettings]
  (repeat' split) <;> rfl

@[simp] theorem chargerBudget_charge (s : State) : chargeSettings (chargerBudget s).chg = chargeSettings s.chg := rfl

@[simp] theorem chargeDisable_charge (s : State) : chargeSettings (chargeDisable s).chg = chargeSettings s.chg := by
  simp only [chargeDisable]; split <;> simp [chargeSettings]

/-! ## The other operations -/

@[simp] theorem zeroSteps_settings (s : State) : driveOf (zeroSteps s).adu = driveOf s.adu := by
  simp only [zeroSteps]; (repeat' split) <;> simp

@[simp] theorem splitChan_settings (r : PerAxis Int) (c : Chan) (s : State) :
    driveOf (splitChan r c s).adu = driveOf s.adu := by
  simp only [splitChan]; (repeat' split) <;> simp

@[simp] theorem splitTick_settings (r : PerAxis Int) (s : State) :
    driveOf (splitTick r s).adu = driveOf s.adu := by
  simp only [splitTick]; (repeat' split) <;> simp

@[simp] theorem recommitChan_settings (f : CtxFields) (c : Chan) (s : State) :
    driveOf (recommitChan f c s).adu = driveOf s.adu := by
  simp only [recommitChan]; (repeat' split) <;> simp

@[simp] theorem recommitSteps_settings (f : CtxFields) (s : State) :
    driveOf (recommitSteps f s).adu = driveOf s.adu := by
  simp only [recommitSteps]; (repeat' split) <;> simp

@[simp] theorem addParkAll_settings (r : ParkReason) (s : State) :
    driveOf (addParkAll r s).adu = driveOf s.adu := by
  simp only [addParkAll]; (repeat' split) <;> simp

@[simp] theorem removeParkAll_settings (r : ParkReason) (s : State) :
    driveOf (removeParkAll r s).adu = driveOf s.adu := by
  simp only [removeParkAll]; (repeat' split) <;> simp

@[simp] theorem pauseSupply_settings (b : Bool) (s : State) :
    chargeSettings (pauseSupply b s).chg = chargeSettings s.chg := by
  simp only [pauseSupply]; (repeat' split) <;> simp

@[simp] theorem chargerZones_settings (s : State) :
    chargeSettings (chargerZones s).chg = chargeSettings s.chg := by
  simp only [chargerZones]; (repeat' split) <;> simp

@[simp] theorem batteryChanged_settings (before : BatZone) (s : State) :
    chargeSettings (batteryChanged before s).chg = chargeSettings s.chg := by
  simp only [batteryChanged]; (repeat' split) <;> simp

@[simp] theorem dieChanged_settings (before : DieZone) (s : State) :
    driveOf (dieChanged before s).adu = driveOf s.adu ∧
      chargeSettings (dieChanged before s).chg = chargeSettings s.chg := by
  simp only [dieChanged]; (repeat' split) <;> simp

@[simp] theorem convertTBat_settings (r : Reading) (s : State) :
    chargeSettings (convertTBat r s).chg = chargeSettings s.chg := by
  simp only [convertTBat]; (repeat' split) <;> simp

@[simp] theorem convertTDie_settings (r : Reading) (s : State) :
    driveOf (convertTDie r s).adu = driveOf s.adu := by
  simp only [convertTDie]; (repeat' split) <;> simp

@[simp] theorem convert_settings (r : Reading) (s : State) : driveOf (convert r s).adu = driveOf s.adu := by
  simp only [convert]; (repeat' split) <;> simp

@[simp] theorem scanStep_settings (r : Reading) (s : State) : driveOf (scanStep r s).adu = driveOf s.adu := by
  simp only [scanStep]; (repeat' split) <;> simp

@[simp] theorem addSupply_settings (s : State) :
    driveOf (addSupply s).adu = driveOf s.adu ∧ chargeSettings (addSupply s).chg = chargeSettings s.chg := by
  simp only [addSupply]; (repeat' split) <;> simp

@[simp] theorem removeSupply_settings (s : State) :
    driveOf (removeSupply s).adu = driveOf s.adu ∧ chargeSettings (removeSupply s).chg = chargeSettings s.chg := by
  simp only [removeSupply]; (repeat' split) <;> simp

@[simp] theorem toNormal_settings (kind : SupplyKind) (s : State) :
    driveOf (toNormal kind s).adu = driveOf s.adu ∧
      chargeSettings (toNormal kind s).chg = chargeSettings s.chg := by
  simp only [toNormal]; (repeat' split) <;> simp

@[simp] theorem startRide_settings (s : State) :
    driveOf (startRide s).adu = driveOf s.adu ∧ chargeSettings (startRide s).chg = chargeSettings s.chg := by
  simp only [startRide]; (repeat' split) <;> simp

@[simp] theorem checkStable_settings (s : State) :
    driveOf (checkStable s).adu = driveOf s.adu ∧ chargeSettings (checkStable s).chg = chargeSettings s.chg := by
  simp only [checkStable]; (repeat' split) <;> simp

@[simp] theorem writerFault_settings (slot addr : Nat) (kind : WriteKind) (s : State) :
    driveOf (writerFault slot addr kind s).adu = driveOf s.adu ∧
      chargeSettings (writerFault slot addr kind s).chg = chargeSettings s.chg := by
  simp only [writerFault]; (repeat' split) <;> simp

@[simp] theorem closeEnd_settings (s : State) :
    driveOf (closeEnd s).adu = driveOf s.adu ∧ chargeSettings (closeEnd s).chg = chargeSettings s.chg := by
  simp only [closeEnd]; (repeat' split) <;> simp

@[simp] theorem closeSlots_settings (c : EmergencyClose) (s : State) :
    driveOf (closeSlots c s).adu = driveOf s.adu ∧ chargeSettings (closeSlots c s).chg = chargeSettings s.chg := by
  simp only [closeSlots]; (repeat' split) <;> simp

@[simp] theorem closeUpdates_settings (c : EmergencyClose) (s : State) :
    driveOf (closeUpdates c s).adu = driveOf s.adu ∧
      chargeSettings (closeUpdates c s).chg = chargeSettings s.chg := by
  simp only [closeUpdates]; (repeat' split) <;> simp

@[simp] theorem closeAdvance_settings (s : State) :
    driveOf (closeAdvance s).adu = driveOf s.adu ∧ chargeSettings (closeAdvance s).chg = chargeSettings s.chg := by
  simp only [closeAdvance]; (repeat' split) <;> simp

@[simp] theorem settle_settings (s : State) :
    driveOf (settle s).adu = driveOf s.adu ∧ chargeSettings (settle s).chg = chargeSettings s.chg := by
  simp only [settle]; (repeat' split) <;> simp

@[simp] theorem recStartWith_settings (tag : Byte) (i q : Nat) (s : State) :
    driveOf (recStartWith tag i q s).adu = driveOf s.adu ∧
      chargeSettings (recStartWith tag i q s).chg = chargeSettings s.chg := by
  simp only [recStartWith]; (repeat' split) <;> simp

@[simp] theorem beginRead_settings (tag : Byte) (i k number : Nat) (s : State) :
    driveOf (beginRead tag i k number s).adu = driveOf s.adu ∧
      chargeSettings (beginRead tag i k number s).chg = chargeSettings s.chg := by
  simp only [beginRead]; (repeat' split) <;> simp

@[simp] theorem readStart_settings (tag : Byte) (i count : Nat) (e : Entry) (s : State) :
    driveOf (readStart tag i count e s).adu = driveOf s.adu ∧
      chargeSettings (readStart tag i count e s).chg = chargeSettings s.chg := by
  simp only [readStart]; (repeat' split) <;> simp

@[simp] theorem readContinue_settings (tag : Byte) (i count : Nat) (e : Entry) (s : State) :
    driveOf (readContinue tag i count e s).adu = driveOf s.adu ∧
      chargeSettings (readContinue tag i count e s).chg = chargeSettings s.chg := by
  simp only [readContinue]; (repeat' split) <;> simp

@[simp] theorem completeMount_settings (conflicts : Nat) (s : State) :
    driveOf (completeMount conflicts s).adu = driveOf s.adu ∧
      chargeSettings (completeMount conflicts s).chg = chargeSettings s.chg := by
  simp only [completeMount]; (repeat' split) <;> simp

@[simp] theorem completeScan_settings (s : State) :
    driveOf (completeScan s).adu = driveOf s.adu ∧ chargeSettings (completeScan s).chg = chargeSettings s.chg := by
  simp only [completeScan]; (repeat' split) <;> simp

@[simp] theorem completeFormat_settings (s : State) :
    driveOf (completeFormat s).adu = driveOf s.adu ∧
      chargeSettings (completeFormat s).chg = chargeSettings s.chg := by
  simp only [completeFormat]; (repeat' split) <;> simp

@[simp] theorem mountStep_settings (i : Nat) (s : State) :
    driveOf (mountStep i s).adu = driveOf s.adu ∧ chargeSettings (mountStep i s).chg = chargeSettings s.chg := by
  simp only [mountStep]; (repeat' split) <;> simp

@[simp] theorem mountEntry_settings (i : Nat) (e : Entry) (s : State) :
    driveOf (mountEntry i e s).adu = driveOf s.adu ∧
      chargeSettings (mountEntry i e s).chg = chargeSettings s.chg := by
  simp only [mountEntry]; (repeat' split) <;> simp

@[simp] theorem broughtUp_settings (capacity : Nat) (s : State) :
    driveOf (broughtUp capacity s).adu = driveOf s.adu ∧
      chargeSettings (broughtUp capacity s).chg = chargeSettings s.chg := by
  simp only [broughtUp]; (repeat' split) <;> simp

@[simp] theorem unitDone_settings (i n : Nat) (s : State) :
    driveOf (unitDone i n s).adu = driveOf s.adu ∧ chargeSettings (unitDone i n s).chg = chargeSettings s.chg := by
  simp only [unitDone]; (repeat' split) <;> simp

@[simp] theorem blockDone_settings (i n : Nat) (s : State) :
    driveOf (blockDone i n s).adu = driveOf s.adu ∧
      chargeSettings (blockDone i n s).chg = chargeSettings s.chg := by
  simp only [blockDone]; (repeat' split) <;> simp

@[simp] theorem openingDone_settings (i : Nat) (s : State) :
    driveOf (openingDone i s).adu = driveOf s.adu ∧
      chargeSettings (openingDone i s).chg = chargeSettings s.chg := by
  simp only [openingDone]; (repeat' split) <;> simp

@[simp] theorem closedDone_settings (i : Nat) (reason : CloseReason) (s : State) :
    driveOf (closedDone i reason s).adu = driveOf s.adu ∧
      chargeSettings (closedDone i reason s).chg = chargeSettings s.chg := by
  simp only [closedDone]; (repeat' split) <;> simp

@[simp] theorem emClosedDone_settings (i : Nat) (s : State) :
    driveOf (emClosedDone i s).adu = driveOf s.adu ∧
      chargeSettings (emClosedDone i s).chg = chargeSettings s.chg := by
  simp only [emClosedDone]; (repeat' split) <;> simp

@[simp] theorem emDone_settings (s : State) :
    driveOf (emDone s).adu = driveOf s.adu ∧ chargeSettings (emDone s).chg = chargeSettings s.chg := by
  simp only [emDone]; (repeat' split) <;> simp

@[simp] theorem emUpdateFailed_settings (i : Nat) (s : State) :
    driveOf (emUpdateFailed i s).adu = driveOf s.adu ∧
      chargeSettings (emUpdateFailed i s).chg = chargeSettings s.chg := by
  simp only [emUpdateFailed]; (repeat' split) <;> simp

@[simp] theorem emWriteFailed_settings (s : State) :
    driveOf (emWriteFailed s).adu = driveOf s.adu ∧
      chargeSettings (emWriteFailed s).chg = chargeSettings s.chg := by
  simp only [emWriteFailed]; (repeat' split) <;> simp

@[simp] theorem transferFailed_settings (t : Transfer) (s : State) :
    driveOf (transferFailed t s).adu = driveOf s.adu ∧
      chargeSettings (transferFailed t s).chg = chargeSettings s.chg := by
  simp only [transferFailed]; (repeat' split) <;> simp

@[simp] theorem attemptFailed_settings (s : State) :
    driveOf (attemptFailed s).adu = driveOf s.adu ∧
      chargeSettings (attemptFailed s).chg = chargeSettings s.chg := by
  simp only [attemptFailed]; (repeat' split) <;> simp

@[simp] theorem attemptTimeout_settings (s : State) :
    driveOf (attemptTimeout s).adu = driveOf s.adu ∧
      chargeSettings (attemptTimeout s).chg = chargeSettings s.chg := by
  simp only [attemptTimeout]; (repeat' split) <;> simp

@[simp] theorem emFailed_settings (s : State) :
    driveOf (emFailed s).adu = driveOf s.adu ∧ chargeSettings (emFailed s).chg = chargeSettings s.chg := by
  simp only [emFailed]; (repeat' split) <;> simp

@[simp] theorem readDone_settings (wanted : Bool) (blocks : List Byte) (s : State) :
    driveOf (readDone wanted blocks s).adu = driveOf s.adu ∧
      chargeSettings (readDone wanted blocks s).chg = chargeSettings s.chg := by
  simp only [readDone]; (repeat' split) <;> simp

@[simp] theorem removed_settings (s : State) :
    driveOf (removed s).adu = driveOf s.adu ∧ chargeSettings (removed s).chg = chargeSettings s.chg := by
  simp only [removed]; (repeat' split) <;> simp

@[simp] theorem unitCompletion_settings (s : State) :
    driveOf (unitCompletion s).adu = driveOf s.adu ∧
      chargeSettings (unitCompletion s).chg = chargeSettings s.chg := by
  simp only [unitCompletion]; (repeat' split) <;> simp

@[simp] theorem commit_settings (i : CtxIx) (ret : Bool) (s : State) :
    driveOf (commit i ret s).adu = driveOf s.adu := by
  simp only [commit]; (repeat' split) <;> simp

@[simp] theorem attemptSwitch_settings (i : CtxIx) (ret : Bool) (s : State) :
    driveOf (attemptSwitch i ret s).adu = driveOf s.adu := by
  simp only [attemptSwitch]; (repeat' split) <;> simp

@[simp] theorem commitPending_settings (s : State) : driveOf (commitPending s).adu = driveOf s.adu := by
  simp only [commitPending]; (repeat' split) <;> simp

@[simp] theorem selectCtx_settings (kind tag : Byte) (i : CtxIx) (ret : Bool) (s : State) :
    driveOf (selectCtx kind tag i ret s).adu = driveOf s.adu := by
  simp only [selectCtx]; (repeat' split) <;> simp

@[simp] theorem produce_settings (r : FrameRecord) (s : State) :
    driveOf (produce r s).adu = driveOf s.adu ∧ chargeSettings (produce r s).chg = chargeSettings s.chg := by
  simp only [produce]; (repeat' split) <;> simp

@[simp] theorem takeSample_settings (n : Word) (s : State) :
    driveOf (takeSample n s).adu = driveOf s.adu ∧ chargeSettings (takeSample n s).chg = chargeSettings s.chg := by
  simp only [takeSample]; (repeat' split) <;> simp

@[simp] theorem forceSample_settings (s : State) :
    driveOf (forceSample s).adu = driveOf s.adu ∧ chargeSettings (forceSample s).chg = chargeSettings s.chg := by
  simp only [forceSample]; (repeat' split) <;> simp

@[simp] theorem countFrame_settings (s : State) :
    driveOf (countFrame s).adu = driveOf s.adu ∧ chargeSettings (countFrame s).chg = chargeSettings s.chg := by
  simp only [countFrame]; (repeat' split) <;> simp

@[simp] theorem fsyncStep_settings (s : State) :
    driveOf (fsyncStep s).adu = driveOf s.adu ∧ chargeSettings (fsyncStep s).chg = chargeSettings s.chg := by
  simp only [fsyncStep]; (repeat' split) <;> simp

@[simp] theorem cropStep_settings (s : State) :
    driveOf (cropStep s).adu = driveOf s.adu ∧ chargeSettings (cropStep s).chg = chargeSettings s.chg := by
  simp only [cropStep]; (repeat' split) <;> simp

@[simp] theorem startPark_settings (s : State) : driveOf (startPark s).adu = driveOf s.adu := by
  simp only [startPark]; (repeat' split) <;> simp

@[simp] theorem impact_settings (s : State) :
    driveOf (impact s).adu = driveOf s.adu ∧ chargeSettings (impact s).chg = chargeSettings s.chg := by
  simp only [impact]; (repeat' split) <;> simp

@[simp] theorem leaveRunning_settings (s : State) : driveOf (leaveRunning s).adu = driveOf s.adu := by
  simp only [leaveRunning]; (repeat' split) <;> simp

@[simp] theorem sensorLost_settings (s : State) : driveOf (sensorLost s).adu = driveOf s.adu := by
  simp only [sensorLost]; (repeat' split) <;> simp

@[simp] theorem tickWork_settings (s : State) :
    driveOf (tickWork s).adu = driveOf s.adu ∧ chargeSettings (tickWork s).chg = chargeSettings s.chg := by
  simp only [tickWork]; (repeat' split) <;> simp

@[simp] theorem passTick_settings (s : State) : chargeSettings (passTick s).chg = chargeSettings s.chg := rfl

@[simp] theorem tickStep_settings (s : State) :
    driveOf (tickStep s).adu = driveOf s.adu ∧ chargeSettings (tickStep s).chg = chargeSettings s.chg := by
  simp only [tickStep]; (repeat' split) <;> simp

@[simp] theorem runOff_settings (s : State) : driveOf (runOff s).adu = driveOf s.adu := by
  simp only [runOff]; (repeat' split) <;> simp

@[simp] theorem parkExpiry_settings (s : State) : driveOf (parkExpiry s).adu = driveOf s.adu := by
  simp only [parkExpiry]; (repeat' split) <;> simp

@[simp] theorem fallBelowWarn_settings (s : State) :
    driveOf (fallBelowWarn s).adu = driveOf s.adu ∧
      chargeSettings (fallBelowWarn s).chg = chargeSettings s.chg := by
  simp only [fallBelowWarn]; (repeat' split) <;> simp

@[simp] theorem riseToRecover_settings (s : State) :
    driveOf (riseToRecover s).adu = driveOf s.adu ∧
      chargeSettings (riseToRecover s).chg = chargeSettings s.chg := by
  simp only [riseToRecover]; (repeat' split) <;> simp

@[simp] theorem rideExpiry_settings (s : State) :
    driveOf (rideExpiry s).adu = driveOf s.adu ∧ chargeSettings (rideExpiry s).chg = chargeSettings s.chg := by
  simp only [rideExpiry]; (repeat' split) <;> simp

@[simp] theorem tripGuard_settings (cause : Trip) (s : State) :
    driveOf (tripGuard cause s).adu = driveOf s.adu ∧
      chargeSettings (tripGuard cause s).chg = chargeSettings s.chg := by
  simp only [tripGuard]; (repeat' split) <;> simp

@[simp] theorem restoreGuard_settings (kind : Byte) (s : State) :
    driveOf (restoreGuard kind s).adu = driveOf s.adu := by
  simp only [restoreGuard]; (repeat' split) <;> simp

@[simp] theorem checkIn_settings (s : State) :
    driveOf (checkIn s).adu = driveOf s.adu ∧ chargeSettings (checkIn s).chg = chargeSettings s.chg := by
  simp only [checkIn]; (repeat' split) <;> simp

@[simp] theorem windowExpiry_settings (s : State) :
    driveOf (windowExpiry s).adu = driveOf s.adu ∧ chargeSettings (windowExpiry s).chg = chargeSettings s.chg := by
  simp only [windowExpiry]; (repeat' split) <;> simp

@[simp] theorem checkinReq_settings (tag : Byte) (s : State) :
    driveOf (checkinReq tag s).adu = driveOf s.adu ∧
      chargeSettings (checkinReq tag s).chg = chargeSettings s.chg := by
  simp only [checkinReq]; (repeat' split) <;> simp

@[simp] theorem guardSetReq_settings (tag : Byte) (quiet window : Half) (s : State) :
    driveOf (guardSetReq tag quiet window s).adu = driveOf s.adu := by
  simp only [guardSetReq]; (repeat' split) <;> simp

@[simp] theorem stabSetReq_settings (tag run learn still : Byte) (s : State) :
    driveOf (stabSetReq tag run learn still s).adu = driveOf s.adu := by
  simp only [stabSetReq]; (repeat' split) <;> simp

@[simp] theorem ctxSelectReq_settings (tag index : Byte) (s : State) :
    driveOf (ctxSelectReq tag index s).adu = driveOf s.adu := by
  simp only [ctxSelectReq]; (repeat' split) <;> simp

@[simp] theorem ctxReturnReq_settings (tag : Byte) (s : State) :
    driveOf (ctxReturnReq tag s).adu = driveOf s.adu := by
  simp only [ctxReturnReq]; (repeat' split) <;> simp

@[simp] theorem actEnableOffReq_settings (tag mask : Byte) (s : State) :
    driveOf (actEnableOffReq tag mask s).adu = driveOf s.adu := by
  simp only [actEnableOffReq, forMask]; (repeat' split) <;> simp

@[simp] theorem actParkOnReq_settings (tag mask : Byte) (s : State) :
    driveOf (actParkOnReq tag mask s).adu = driveOf s.adu := by
  simp only [actParkOnReq, forMask]; (repeat' split) <;> simp

@[simp] theorem actParkOffReq_settings (tag mask : Byte) (s : State) :
    driveOf (actParkOffReq tag mask s).adu = driveOf s.adu := by
  simp only [actParkOffReq, forMask]; (repeat' split) <;> simp

@[simp] theorem unmountReq_settings (tag : Byte) (s : State) :
    driveOf (unmountReq tag s).adu = driveOf s.adu ∧
      chargeSettings (unmountReq tag s).chg = chargeSettings s.chg := by
  simp only [unmountReq]; (repeat' split) <;> simp

@[simp] theorem recStartReq_settings (tag : Byte) (s : State) :
    driveOf (recStartReq tag s).adu = driveOf s.adu ∧
      chargeSettings (recStartReq tag s).chg = chargeSettings s.chg := by
  simp only [recStartReq]; (repeat' split) <;> simp

@[simp] theorem recStopReq_settings (tag : Byte) (s : State) :
    driveOf (recStopReq tag s).adu = driveOf s.adu ∧
      chargeSettings (recStopReq tag s).chg = chargeSettings s.chg := by
  simp only [recStopReq]; (repeat' split) <;> simp

@[simp] theorem dataReq_settings (tag : Byte) (bytes : List Byte) (s : State) :
    driveOf (dataReq tag bytes s).adu = driveOf s.adu ∧
      chargeSettings (dataReq tag bytes s).chg = chargeSettings s.chg := by
  simp only [dataReq]; (repeat' split) <;> simp

@[simp] theorem slotLockReq_settings (code tag : Byte) (on : Bool) (slot : Half) (kind : Byte) (s : State) :
    driveOf (slotLockReq code tag on slot kind s).adu = driveOf s.adu ∧
      chargeSettings (slotLockReq code tag on slot kind s).chg = chargeSettings s.chg := by
  simp only [slotLockReq]; (repeat' split) <;> simp

@[simp] theorem motionReadReq_settings (tag : Byte) (slot : Half) (mode count : Byte) (s : State) :
    driveOf (motionReadReq tag slot mode count s).adu = driveOf s.adu ∧
      chargeSettings (motionReadReq tag slot mode count s).chg = chargeSettings s.chg := by
  simp only [motionReadReq]; (repeat' split) <;> simp

end Sys2Proof.Machine
end

section
/-! What the work of a tick leaves and makes of the motion sampling unit (R1 to R14). -/

namespace Sys2Proof.Machine

set_option linter.unnecessarySeqFocus false
set_option linter.unusedTactic false
set_option linter.unreachableTactic false

/-! ## The motion unit's other fields, operation by operation -/

@[simp] theorem emptyWindow_rest (m : Msu) :
    (emptyWindow m).learn = m.learn ∧ (emptyWindow m).still = m.still ∧ (emptyWindow m).qCount = m.qCount ∧
      (emptyWindow m).qPeak = m.qPeak ∧ (emptyWindow m).winCount = 0 ∧ (emptyWindow m).winSum = ⟨0, 0, 0⟩ := by
  simp [emptyWindow, allAxes]

@[simp] theorem holdRearm_rest (m : Msu) (now : Word) :
    (holdRearm m now).last = m.last ∧ (holdRearm m now).learn = m.learn ∧ (holdRearm m now).still = m.still ∧
      (holdRearm m now).winCount = m.winCount ∧ (holdRearm m now).winSum = m.winSum ∧
      (holdRearm m now).qCount = 0 ∧ (holdRearm m now).qPeak = 0 ∧
      (holdRearm m now).rearmEnd = some (later now (ticksOfMs m.tickImp.rearm)) := by
  simp [holdRearm]

@[simp] theorem passTick_rest (s : State) :
    (passTick s).msu = { s.msu with read := .waiting, tickBias := s.msu.bias, tickImp := s.msu.imp } := rfl

@[simp] theorem runIfHealthy_rest (s : State) :
    (runIfHealthy s).msu.last = s.msu.last ∧ (runIfHealthy s).msu.missing = s.msu.missing ∧
      (runIfHealthy s).msu.goodRun = s.msu.goodRun ∧ (runIfHealthy s).msu.learn = s.msu.learn ∧
      (runIfHealthy s).msu.still = s.msu.still ∧ (runIfHealthy s).msu.winCount = s.msu.winCount ∧
      (runIfHealthy s).msu.winSum = s.msu.winSum ∧ (runIfHealthy s).msu.qCount = s.msu.qCount ∧
      (runIfHealthy s).msu.qPeak = s.msu.qPeak ∧ (runIfHealthy s).msu.rearmEnd = s.msu.rearmEnd ∧
      (runIfHealthy s).msu.parkEnd = s.msu.parkEnd := by
  simp only [runIfHealthy]; (repeat' split) <;> simp

@[simp] theorem commit_rest (i : CtxIx) (ret : Bool) (s : State) :
    (commit i ret s).msu.last = s.msu.last ∧ (commit i ret s).msu.missing = s.msu.missing ∧
      (commit i ret s).msu.goodRun = s.msu.goodRun ∧ (commit i ret s).msu.learn = s.msu.learn ∧
      (commit i ret s).msu.still = s.msu.still ∧ (commit i ret s).msu.winCount = s.msu.winCount ∧
      (commit i ret s).msu.winSum = s.msu.winSum ∧ (commit i ret s).msu.qCount = s.msu.qCount ∧
      (commit i ret s).msu.qPeak = s.msu.qPeak ∧ (commit i ret s).msu.rearmEnd = s.msu.rearmEnd ∧
      (commit i ret s).msu.parkEnd = s.msu.parkEnd := by
  simp only [commit]; (repeat' split) <;> simp

@[simp] theorem attemptSwitch_rest (i : CtxIx) (ret : Bool) (s : State) :
    (attemptSwitch i ret s).msu.last = s.msu.last ∧ (attemptSwitch i ret s).msu.missing = s.msu.missing ∧
      (attemptSwitch i ret s).msu.goodRun = s.msu.goodRun ∧ (attemptSwitch i ret s).msu.learn = s.msu.learn ∧
      (attemptSwitch i ret s).msu.still = s.msu.still ∧ (attemptSwitch i ret s).msu.winCount = s.msu.winCount ∧
      (attemptSwitch i ret s).msu.winSum = s.msu.winSum ∧ (attemptSwitch i ret s).msu.qCount = s.msu.qCount ∧
      (attemptSwitch i ret s).msu.qPeak = s.msu.qPeak ∧ (attemptSwitch i ret s).msu.rearmEnd = s.msu.rearmEnd ∧
      (attemptSwitch i ret s).msu.parkEnd = s.msu.parkEnd := by
  simp only [attemptSwitch]; (repeat' split) <;> simp

@[simp] theorem commitPending_rest (s : State) :
    (commitPending s).msu.last = s.msu.last ∧ (commitPending s).msu.missing = s.msu.missing ∧
      (commitPending s).msu.goodRun = s.msu.goodRun ∧ (commitPending s).msu.learn = s.msu.learn ∧
      (commitPending s).msu.still = s.msu.still ∧ (commitPending s).msu.winCount = s.msu.winCount ∧
      (commitPending s).msu.winSum = s.msu.winSum ∧ (commitPending s).msu.qCount = s.msu.qCount ∧
      (commitPending s).msu.qPeak = s.msu.qPeak ∧ (commitPending s).msu.rearmEnd = s.msu.rearmEnd ∧
      (commitPending s).msu.parkEnd = s.msu.parkEnd := by
  simp only [commitPending]; (repeat' split) <;> simp

@[simp] theorem selectCtx_rest (kind tag : Byte) (i : CtxIx) (ret : Bool) (s : State) :
    (selectCtx kind tag i ret s).msu.last = s.msu.last ∧ (selectCtx kind tag i ret s).msu.missing = s.msu.missing ∧
      (selectCtx kind tag i ret s).msu.goodRun = s.msu.goodRun ∧
      (selectCtx kind tag i ret s).msu.learn = s.msu.learn ∧ (selectCtx kind tag i ret s).msu.still = s.msu.still ∧
      (selectCtx kind tag i ret s).msu.winCount = s.msu.winCount ∧
      (selectCtx kind tag i ret s).msu.winSum = s.msu.winSum ∧
      (selectCtx kind tag i ret s).msu.qCount = s.msu.qCount ∧
      (selectCtx kind tag i ret s).msu.qPeak = s.msu.qPeak ∧
      (selectCtx kind tag i ret s).msu.rearmEnd = s.msu.rearmEnd ∧
      (selectCtx kind tag i ret s).msu.parkEnd = s.msu.parkEnd := by
  simp only [selectCtx]; (repeat' split) <;> simp

@[simp] theorem fsyncStep_rest (s : State) :
    (fsyncStep s).msu.last = s.msu.last ∧ (fsyncStep s).msu.missing = s.msu.missing ∧
      (fsyncStep s).msu.goodRun = s.msu.goodRun ∧ (fsyncStep s).msu.learn = s.msu.learn ∧
      (fsyncStep s).msu.still = s.msu.still ∧ (fsyncStep s).msu.winCount = s.msu.winCount ∧
      (fsyncStep s).msu.winSum = s.msu.winSum ∧ (fsyncStep s).msu.qCount = s.msu.qCount ∧
      (fsyncStep s).msu.qPeak = s.msu.qPeak ∧ (fsyncStep s).msu.rearmEnd = s.msu.rearmEnd ∧
      (fsyncStep s).msu.parkEnd = s.msu.parkEnd := by
  simp only [fsyncStep]; (repeat' split) <;> simp

@[simp] theorem learnBias_rest (s : State) :
    (learnBias s).msu.last = s.msu.last ∧ (learnBias s).msu.missing = s.msu.missing ∧
      (learnBias s).msu.goodRun = s.msu.goodRun ∧ (learnBias s).msu.learn = s.msu.learn ∧
      (learnBias s).msu.still = s.msu.still ∧ (learnBias s).msu.qCount = s.msu.qCount ∧
      (learnBias s).msu.qPeak = s.msu.qPeak ∧ (learnBias s).msu.rearmEnd = s.msu.rearmEnd ∧
      (learnBias s).msu.parkEnd = s.msu.parkEnd := by
  simp only [learnBias]; (repeat' split) <;> simp

@[simp] theorem startPark_rest (s : State) :
    (startPark s).msu.last = s.msu.last ∧ (startPark s).msu.missing = s.msu.missing ∧
      (startPark s).msu.goodRun = s.msu.goodRun ∧ (startPark s).msu.learn = s.msu.learn ∧
      (startPark s).msu.still = s.msu.still ∧ (startPark s).msu.winCount = s.msu.winCount ∧
      (startPark s).msu.winSum = s.msu.winSum ∧ (startPark s).msu.qCount = s.msu.qCount ∧
      (startPark s).msu.qPeak = s.msu.qPeak ∧ (startPark s).msu.rearmEnd = s.msu.rearmEnd := by
  simp only [startPark]; (repeat' split) <;> simp

@[simp] theorem impact_rest (s : State) :
    (impact s).msu.last = s.msu.last ∧ (impact s).msu.missing = s.msu.missing ∧
      (impact s).msu.goodRun = s.msu.goodRun ∧ (impact s).msu.learn = s.msu.learn ∧
      (impact s).msu.still = s.msu.still ∧ (impact s).msu.winCount = s.msu.winCount ∧
      (impact s).msu.winSum = s.msu.winSum := by
  simp only [impact]; (repeat' split) <;> simp

@[simp] theorem leaveRunning_rest (s : State) :
    (leaveRunning s).msu.last = s.msu.last ∧ (leaveRunning s).msu.missing = s.msu.missing ∧
      (leaveRunning s).msu.goodRun = s.msu.goodRun ∧ (leaveRunning s).msu.learn = s.msu.learn ∧
      (leaveRunning s).msu.still = s.msu.still ∧ (leaveRunning s).msu.winCount = s.msu.winCount ∧
      (leaveRunning s).msu.winSum = s.msu.winSum ∧ (leaveRunning s).msu.qCount = s.msu.qCount ∧
      (leaveRunning s).msu.qPeak = s.msu.qPeak ∧ (leaveRunning s).msu.rearmEnd = s.msu.rearmEnd ∧
      (leaveRunning s).msu.parkEnd = s.msu.parkEnd := by
  simp only [leaveRunning]; (repeat' split) <;> simp

@[simp] theorem sensorLost_rest (s : State) :
    (sensorLost s).msu.last = s.msu.last ∧ (sensorLost s).msu.missing = s.msu.missing ∧
      (sensorLost s).msu.goodRun = s.msu.goodRun ∧ (sensorLost s).msu.learn = s.msu.learn ∧
      (sensorLost s).msu.still = s.msu.still ∧ (sensorLost s).msu.qCount = s.msu.qCount ∧
      (sensorLost s).msu.qPeak = s.msu.qPeak ∧ (sensorLost s).msu.rearmEnd = s.msu.rearmEnd ∧
      (sensorLost s).msu.parkEnd = s.msu.parkEnd := by
  simp only [sensorLost]; (repeat' split) <;> simp

@[simp] theorem sensorRestored_rest (s : State) :
    (sensorRestored s).msu.last = s.msu.last ∧ (sensorRestored s).msu.missing = s.msu.missing ∧
      (sensorRestored s).msu.goodRun = s.msu.goodRun ∧ (sensorRestored s).msu.learn = s.msu.learn ∧
      (sensorRestored s).msu.still = s.msu.still ∧ (sensorRestored s).msu.winCount = s.msu.winCount ∧
      (sensorRestored s).msu.winSum = s.msu.winSum ∧ (sensorRestored s).msu.qCount = s.msu.qCount ∧
      (sensorRestored s).msu.qPeak = s.msu.qPeak ∧ (sensorRestored s).msu.rearmEnd = s.msu.rearmEnd ∧
      (sensorRestored s).msu.parkEnd = s.msu.parkEnd := by
  simp only [sensorRestored]; (repeat' split) <;> simp

@[simp] theorem tickWork_rest (s : State) :
    (tickWork s).msu.learn = s.msu.learn ∧ (tickWork s).msu.still = s.msu.still := by
  simp only [tickWork]; (repeat' split) <;> simp

@[simp] theorem tickStep_rest (s : State) :
    (tickStep s).msu.learn = s.msu.learn ∧ (tickStep s).msu.still = s.msu.still := by
  simp only [tickStep]; (repeat' split) <;> simp

@[simp] theorem enterOff_rest (s : State) :
    (enterOff s).msu.last = s.msu.last ∧ (enterOff s).msu.missing = s.msu.missing ∧
      (enterOff s).msu.goodRun = s.msu.goodRun ∧ (enterOff s).msu.learn = s.msu.learn ∧
      (enterOff s).msu.still = s.msu.still ∧ (enterOff s).msu.winCount = s.msu.winCount ∧
      (enterOff s).msu.winSum = s.msu.winSum ∧ (enterOff s).msu.qCount = s.msu.qCount ∧
      (enterOff s).msu.qPeak = s.msu.qPeak ∧ (enterOff s).msu.rearmEnd = s.msu.rearmEnd ∧
      (enterOff s).msu.parkEnd = s.msu.parkEnd := by
  simp only [enterOff]; (repeat' split) <;> simp

@[simp] theorem runOff_rest (s : State) :
    (runOff s).msu.last = s.msu.last ∧ (runOff s).msu.missing = s.msu.missing ∧
      (runOff s).msu.goodRun = s.msu.goodRun ∧ (runOff s).msu.learn = s.msu.learn ∧
      (runOff s).msu.still = s.msu.still ∧ (runOff s).msu.winCount = s.msu.winCount ∧
      (runOff s).msu.winSum = s.msu.winSum ∧ (runOff s).msu.qCount = s.msu.qCount ∧
      (runOff s).msu.qPeak = s.msu.qPeak ∧ (runOff s).msu.rearmEnd = s.msu.rearmEnd ∧
      (runOff s).msu.parkEnd = s.msu.parkEnd := by
  simp only [runOff]; (repeat' split) <;> simp

@[simp] theorem runOn_rest (s : State) :
    (runOn s).msu.last = s.msu.last ∧ (runOn s).msu.missing = s.msu.missing ∧
      (runOn s).msu.goodRun = s.msu.goodRun ∧ (runOn s).msu.learn = s.msu.learn ∧
      (runOn s).msu.still = s.msu.still ∧ (runOn s).msu.winCount = s.msu.winCount ∧
      (runOn s).msu.winSum = s.msu.winSum ∧ (runOn s).msu.qCount = s.msu.qCount ∧
      (runOn s).msu.qPeak = s.msu.qPeak ∧ (runOn s).msu.rearmEnd = s.msu.rearmEnd ∧
      (runOn s).msu.parkEnd = s.msu.parkEnd := by
  simp only [runOn]; (repeat' split) <;> simp

@[simp] theorem readAnswered_rest (sample : Option Sample) (s : State) :
    (readAnswered sample s).msu.last = s.msu.last ∧ (readAnswered sample s).msu.missing = s.msu.missing ∧
      (readAnswered sample s).msu.goodRun = s.msu.goodRun ∧ (readAnswered sample s).msu.learn = s.msu.learn ∧
      (readAnswered sample s).msu.still = s.msu.still ∧ (readAnswered sample s).msu.winCount = s.msu.winCount ∧
      (readAnswered sample s).msu.winSum = s.msu.winSum ∧ (readAnswered sample s).msu.qCount = s.msu.qCount ∧
      (readAnswered sample s).msu.qPeak = s.msu.qPeak ∧ (readAnswered sample s).msu.rearmEnd = s.msu.rearmEnd ∧
      (readAnswered sample s).msu.parkEnd = s.msu.parkEnd := by
  simp only [readAnswered]; (repeat' split) <;> simp

@[simp] theorem rearmExpiry_rest (s : State) :
    (rearmExpiry s).msu.last = s.msu.last ∧ (rearmExpiry s).msu.missing = s.msu.missing ∧
      (rearmExpiry s).msu.goodRun = s.msu.goodRun ∧ (rearmExpiry s).msu.learn = s.msu.learn ∧
      (rearmExpiry s).msu.still = s.msu.still ∧ (rearmExpiry s).msu.winCount = s.msu.winCount ∧
      (rearmExpiry s).msu.winSum = s.msu.winSum ∧ (rearmExpiry s).msu.qCount = s.msu.qCount ∧
      (rearmExpiry s).msu.qPeak = s.msu.qPeak ∧ (rearmExpiry s).msu.parkEnd = s.msu.parkEnd := by
  simp only [rearmExpiry]; (repeat' split) <;> simp

@[simp] theorem parkExpiry_rest (s : State) :
    (parkExpiry s).msu.last = s.msu.last ∧ (parkExpiry s).msu.missing = s.msu.missing ∧
      (parkExpiry s).msu.goodRun = s.msu.goodRun ∧ (parkExpiry s).msu.learn = s.msu.learn ∧
      (parkExpiry s).msu.still = s.msu.still ∧ (parkExpiry s).msu.winCount = s.msu.winCount ∧
      (parkExpiry s).msu.winSum = s.msu.winSum ∧ (parkExpiry s).msu.qCount = s.msu.qCount ∧
      (parkExpiry s).msu.qPeak = s.msu.qPeak ∧ (parkExpiry s).msu.rearmEnd = s.msu.rearmEnd := by
  simp only [parkExpiry]; (repeat' split) <;> simp

@[simp] theorem ctxSelectReq_rest (tag index : Byte) (s : State) :
    (ctxSelectReq tag index s).msu.last = s.msu.last ∧ (ctxSelectReq tag index s).msu.missing = s.msu.missing ∧
      (ctxSelectReq tag index s).msu.goodRun = s.msu.goodRun ∧ (ctxSelectReq tag index s).msu.learn = s.msu.learn ∧
      (ctxSelectReq tag index s).msu.still = s.msu.still ∧
      (ctxSelectReq tag index s).msu.winCount = s.msu.winCount ∧
      (ctxSelectReq tag index s).msu.winSum = s.msu.winSum ∧ (ctxSelectReq tag index s).msu.qCount = s.msu.qCount ∧
      (ctxSelectReq tag index s).msu.qPeak = s.msu.qPeak ∧
      (ctxSelectReq tag index s).msu.rearmEnd = s.msu.rearmEnd ∧
      (ctxSelectReq tag index s).msu.parkEnd = s.msu.parkEnd := by
  simp only [ctxSelectReq]; (repeat' split) <;> simp

@[simp] theorem ctxReturnReq_rest (tag : Byte) (s : State) :
    (ctxReturnReq tag s).msu.last = s.msu.last ∧ (ctxReturnReq tag s).msu.missing = s.msu.missing ∧
      (ctxReturnReq tag s).msu.goodRun = s.msu.goodRun ∧ (ctxReturnReq tag s).msu.learn = s.msu.learn ∧
      (ctxReturnReq tag s).msu.still = s.msu.still ∧ (ctxReturnReq tag s).msu.winCount = s.msu.winCount ∧
      (ctxReturnReq tag s).msu.winSum = s.msu.winSum ∧ (ctxReturnReq tag s).msu.qCount = s.msu.qCount ∧
      (ctxReturnReq tag s).msu.qPeak = s.msu.qPeak ∧ (ctxReturnReq tag s).msu.rearmEnd = s.msu.rearmEnd ∧
      (ctxReturnReq tag s).msu.parkEnd = s.msu.parkEnd := by
  simp only [ctxReturnReq]; (repeat' split) <;> simp

/-! ## The arithmetic of a tick -/

/-- Whether a tick has a sample depends on its read alone. -/
theorem tickSample_congr {m n : Msu} (h : n.read = m.read) : tickSample n = tickSample m := by
  simp only [tickSample, h]

@[simp] theorem tickSample_windowStep (m : Msu) : tickSample (windowStep m) = tickSample m := tickSample_congr (by simp)

@[simp] theorem tickSample_countImpact (m : Msu) : tickSample (countImpact m) = tickSample m :=
  tickSample_congr (by simp)

@[simp] theorem restoredNow_counted (m : Msu) : restoredNow (windowStep (countImpact m)) = restoredNow m := by
  simp [restoredNow]

@[simp] theorem lostNow_counted (m : Msu) : lostNow (windowStep (countImpact m)) = lostNow m := by
  simp [lostNow]

/-- The sample of a tick whose read brought one. -/
theorem tickSample_good {m : Msu} {x : Sample} (h : m.read = .good x) : tickSample m = some x := by
  simp [tickSample, h]

/-- A tick whose read brought none has a missing sample. -/
theorem tickSample_missing {m : Msu} (h : ¬ ∃ x, m.read = .good x) : tickSample m = none := by
  simp only [tickSample]
  split
  · next x hx => exact absurd ⟨x, hx⟩ h
  · rfl

theorem tickSample_isSome {m : Msu} : (tickSample m).isSome = true ↔ ∃ x, m.read = .good x := by
  simp only [tickSample]
  split
  · next x hx => simp [hx]
  · next h => simpa using h

/-- R4: the missing sample that begins a fault. -/
theorem lostNow_iff {m : Msu} :
    lostNow m = true ↔ (¬ ∃ x, m.read = .good x) ∧ m.fault = false ∧ 15 ≤ m.missing := by
  have hn : (tickSample m).isNone = true ↔ ¬ ∃ x, m.read = .good x := by
    rw [← tickSample_isSome]; cases tickSample m <;> simp
  simp only [lostNow, Bool.and_eq_true, Bool.not_eq_true', decide_eq_true_eq, hn]
  constructor
  · rintro ⟨⟨hf, hr⟩, hm⟩
    exact ⟨hr, hf, by omega⟩
  · rintro ⟨hr, hf, hm⟩
    exact ⟨⟨hf, hr⟩, by omega⟩

/-- R5: the good sample that ends a fault. -/
theorem restoredNow_iff {m : Msu} :
    restoredNow m = true ↔ (∃ x, m.read = .good x) ∧ m.fault = true ∧ 63 ≤ m.goodRun := by
  simp only [restoredNow, Bool.and_eq_true, decide_eq_true_eq, tickSample_isSome]
  constructor
  · rintro ⟨⟨hf, hr⟩, hm⟩
    exact ⟨hr, hf, by omega⟩
  · rintro ⟨hr, hf, hm⟩
    exact ⟨⟨hf, hr⟩, by omega⟩

/-- R2, R4, R5: the counters, the last good values and the fault after a tick's arithmetic. -/
theorem tickMsu_counts (f : Option CtxFields) (m : Msu) :
    let t := (tickMsu f m).1
    t.last = rawSample m ∧ t.missing = (if (tickSample m).isSome then 0 else min 16 (m.missing + 1)) ∧
      t.goodRun = (if (tickSample m).isSome ∧ m.fault = true ∧ m.goodRun < 63 then m.goodRun + 1 else 0) ∧
      t.fault = (if restoredNow m then false else m.fault || lostNow m) := by
  simp only [tickMsu, pathStep_frame, integrateAll_frame, countSample, tickSample_windowStep, tickSample_countImpact,
    restoredNow_counted, lostNow_counted, windowStep_frame, countImpact_frame]
  cases hs : tickSample m with
  | none => simp [rawSample, hs, restoredNow]
  | some x =>
      have hl : lostNow m = false := by simp [lostNow, hs]
      refine ⟨by simp [rawSample, hs], rfl, ?_, by simp [hl]⟩
      by_cases hf : m.fault = true
      · by_cases hg : m.goodRun < 63
        · simp [hf, hg, show ¬ 64 ≤ m.goodRun + 1 by omega]
        · simp [hf, hg, show 64 ≤ m.goodRun + 1 by omega]
      · simp [hf]

/-- R7: the window after a tick's arithmetic is the one its sample makes. -/
theorem tickMsu_window (f : Option CtxFields) (m : Msu) :
    (tickMsu f m).1.winCount = (windowStep m).winCount ∧ (tickMsu f m).1.winSum = (windowStep m).winSum := by
  have hs : ∀ x, stillSample x (countImpact m) = stillSample x m := fun x => by simp [stillSample]
  simp only [tickMsu, pathStep_frame, integrateAll_frame, countSample_frame]
  simp only [windowStep, tickSample_countImpact, hs, countImpact_frame]
  split
  · split
    · split <;> simp [addStill]
    · simp
  · simp

end Sys2Proof.Machine
end

section
/-! The tick (R1 to R14): its work in stages, and what each leaves. -/

namespace Sys2Proof.Machine

set_option linter.unnecessarySeqFocus false
set_option linter.unusedTactic false

/-! ## The charger's phase and timers -/

/-- R168: the return to NORMAL takes SUPPLY from the pause reasons, and leaves the phase and the timers. -/
@[simp] theorem toNormal_timers (kind : SupplyKind) (s : State) :
    (toNormal kind s).chg.phase = s.chg.phase ∧ (toNormal kind s).chg.preTicks = s.chg.preTicks ∧
      (toNormal kind s).chg.fastTicks = s.chg.fastTicks := by
  obtain ⟨h, -⟩ := toNormal_spec kind s
  rw [h]
  exact ⟨rfl, rfl, rfl⟩

@[simp] theorem checkStable_timers (s : State) :
    (checkStable s).chg.phase = s.chg.phase ∧ (checkStable s).chg.preTicks = s.chg.preTicks ∧
      (checkStable s).chg.fastTicks = s.chg.fastTicks := by
  simp only [checkStable]; (repeat' split) <;> simp

@[simp] theorem closeEnd_timers (s : State) :
    (closeEnd s).chg.phase = s.chg.phase ∧ (closeEnd s).chg.preTicks = s.chg.preTicks ∧
      (closeEnd s).chg.fastTicks = s.chg.fastTicks := by
  simp only [closeEnd]; (repeat' split) <;> simp

@[simp] theorem closeSlots_timers (c : EmergencyClose) (s : State) :
    (closeSlots c s).chg.phase = s.chg.phase ∧ (closeSlots c s).chg.preTicks = s.chg.preTicks ∧
      (closeSlots c s).chg.fastTicks = s.chg.fastTicks := by
  simp only [closeSlots]; (repeat' split) <;> simp

@[simp] theorem closeUpdates_timers (c : EmergencyClose) (s : State) :
    (closeUpdates c s).chg.phase = s.chg.phase ∧ (closeUpdates c s).chg.preTicks = s.chg.preTicks ∧
      (closeUpdates c s).chg.fastTicks = s.chg.fastTicks := by
  simp only [closeUpdates]; (repeat' split) <;> simp

@[simp] theorem closeAdvance_timers (s : State) :
    (closeAdvance s).chg.phase = s.chg.phase ∧ (closeAdvance s).chg.preTicks = s.chg.preTicks ∧
      (closeAdvance s).chg.fastTicks = s.chg.fastTicks := by
  simp only [closeAdvance]; (repeat' split) <;> simp

@[simp] theorem settle_timers (s : State) :
    (settle s).chg.phase = s.chg.phase ∧ (settle s).chg.preTicks = s.chg.preTicks ∧
      (settle s).chg.fastTicks = s.chg.fastTicks := by
  simp only [settle]; (repeat' split) <;> simp

@[simp] theorem impact_timers (s : State) :
    (impact s).chg.phase = s.chg.phase ∧ (impact s).chg.preTicks = s.chg.preTicks ∧
      (impact s).chg.fastTicks = s.chg.fastTicks := by
  simp [impact]

@[simp] theorem tickWork_timers (s : State) :
    (tickWork s).chg.phase = s.chg.phase ∧ (tickWork s).chg.preTicks = s.chg.preTicks ∧
      (tickWork s).chg.fastTicks = s.chg.fastTicks := by
  simp only [tickWork]; (repeat' split) <;> simp

/-! ## The stages of a tick's work -/

/-- The unit when a tick's arithmetic is done and its sample's conditions are carried (R2 to R14, R33). -/
def tickArith (s : State) : State :=
  let r := tickMsu (activeFields s) s.msu
  carry { sampleConditions s.msu with pathClamp := r.2 }
    { s with msu := r.1, csu := { s.csu with offset := offsetOf r.1 } }

/-- The unit when the bias, an impact and the steps have followed (R8, R18 to R21). -/
def tickSteps (s : State) : State :=
  splitTick (ratesOf s.msu)
    (if impactNow s.msu then impact (learnBias (tickArith s)) else learnBias (tickArith s))

/-- The work of a tick in its stages; a fault begins or ends last. -/
theorem tickWork_stages (s : State) :
    tickWork s =
      (fun u => if restoredNow s.msu then sensorRestored u else u)
        (if lostNow s.msu then sensorLost (tickSteps s) else tickSteps s) := rfl

theorem lost_not_restored {m : Msu} (h : lostNow m = true) : restoredNow m = false := by
  obtain ⟨hr, -, -⟩ := lostNow_iff.mp h
  by_contra hc
  exact hr (restoredNow_iff.mp (by simpa using hc)).1

/-- A tick that neither begins nor ends a fault. -/
theorem tickWork_plain {s : State} (hl : lostNow s.msu = false) (hr : restoredNow s.msu = false) :
    tickWork s = tickSteps s := by
  simp [tickWork_stages, hl, hr]

/-- R4: a tick that begins a fault. -/
theorem tickWork_lost {s : State} (hl : lostNow s.msu = true) : tickWork s = sensorLost (tickSteps s) := by
  simp [tickWork_stages, hl, lost_not_restored hl]

/-- R5: a tick that ends a fault. -/
theorem tickWork_restored {s : State} (hr : restoredNow s.msu = true) :
    tickWork s = sensorRestored (tickSteps s) := by
  have hl : lostNow s.msu = false := by
    by_contra h
    simp [lost_not_restored (by simpa using h)] at hr
  simp [tickWork_stages, hl, hr]

/-- The motion unit after a tick's arithmetic. -/
@[simp] theorem tickArith_msu (s : State) : (tickArith s).msu = (tickMsu (activeFields s) s.msu).1 := by
  simp [tickArith]

@[simp] theorem tickArith_frame (s : State) :
    (tickArith s).now = s.now ∧ (tickArith s).csu.offset = offsetOf (tickMsu (activeFields s) s.msu).1 ∧
      (tickArith s).csu.step = s.csu.step ∧ (tickArith s).csu.frame = s.csu.frame ∧
      (tickArith s).csu.sample = s.csu.sample ∧ (tickArith s).csu.ring = s.csu.ring ∧ (tickArith s).ctx = s.ctx ∧
      (tickArith s).adu = s.adu ∧ (tickArith s).scn = s.scn ∧ (tickArith s).cbf = s.cbf ∧ (tickArith s).sdr = s.sdr ∧
      (tickArith s).cwr = s.cwr ∧ (tickArith s).ips = s.ips ∧ (tickArith s).chg = s.chg ∧ (tickArith s).ssv = s.ssv ∧
      (tickArith s).lnk = s.lnk ∧ (tickArith s).rst = s.rst ∧ (tickArith s).pending = s.pending := by
  simp [tickArith]

/-- R33: what the arithmetic of a tick carries. -/
theorem tickArith_carried (s : State) :
    (tickArith s).csu.carried = if s.msu.stab = .off then s.csu.carried else
      carriedUnion s.csu.carried
        { sampleConditions s.msu with pathClamp := (tickMsu (activeFields s) s.msu).2 } := by
  simp only [tickArith, carry, tickMsu_frame]
  split <;> rfl

/-- R8: what the end of a window makes of the motion unit. -/
theorem learnBias_msu (s : State) :
    (learnBias s).msu =
      if windowFull s.msu then emptyWindow { s.msu with bias := axisMap learnedBias s.msu.winSum } else s.msu := by
  simp only [learnBias]
  split <;> simp

/-- R33: an impact joins the carried conditions outside OFF. -/
theorem impact_carried (s : State) :
    (impact s).csu.carried = if s.msu.stab = .off then s.csu.carried else
      carriedUnion s.csu.carried { Carried.empty with impact := true } := by
  simp only [impact, settle_frame, carry, raise_frame, requestLocks_frame, startPark_frame, holdRearm_frame]
  split <;> simp

/-- The stages before a fault leave the clock, the contexts and what the arithmetic made of the motion unit. -/
@[simp] theorem tickSteps_frame (s : State) :
    let m := (tickMsu (activeFields s) s.msu).1
    (tickSteps s).now = s.now ∧ (tickSteps s).ctx = s.ctx ∧ (tickSteps s).msu.stab = s.msu.stab ∧
      (tickSteps s).msu.angle = m.angle ∧ (tickSteps s).msu.path = m.path ∧ (tickSteps s).msu.fault = m.fault ∧
      (tickSteps s).msu.last = m.last ∧ (tickSteps s).msu.missing = m.missing ∧
      (tickSteps s).msu.goodRun = m.goodRun ∧ (tickSteps s).msu.tickBias = s.msu.tickBias ∧
      (tickSteps s).csu.offset = offsetOf m ∧ (tickSteps s).csu.frame = s.csu.frame ∧
      (tickSteps s).lnk.recordMask = s.lnk.recordMask := by
  simp only [tickSteps]; split <;> simp

/-- R8: bias and window once a full window has been learned. -/
theorem tickSteps_window (s : State) :
    let m := windowStep s.msu
    (tickSteps s).msu.bias = (if windowFull m then axisMap learnedBias m.winSum else s.msu.bias) ∧
      (tickSteps s).msu.winCount = (if windowFull m then 0 else m.winCount) ∧
      (tickSteps s).msu.winSum = if windowFull m then ⟨0, 0, 0⟩ else m.winSum := by
  obtain ⟨hc, hs⟩ := tickMsu_window (activeFields s) s.msu
  have hf : windowFull (tickMsu (activeFields s) s.msu).1 = windowFull (windowStep s.msu) := by
    simp only [windowFull, hc]
  have hl : (learnBias (tickArith s)).msu.bias =
        (if windowFull (windowStep s.msu) then axisMap learnedBias (windowStep s.msu).winSum else s.msu.bias) ∧
      (learnBias (tickArith s)).msu.winCount =
        (if windowFull (windowStep s.msu) then 0 else (windowStep s.msu).winCount) ∧
      (learnBias (tickArith s)).msu.winSum =
        if windowFull (windowStep s.msu) then ⟨0, 0, 0⟩ else (windowStep s.msu).winSum := by
    simp only [learnBias_msu, tickArith_msu, hf, ← hc, ← hs]
    split <;> simp
  simp only [tickSteps, splitTick_frame]
  split
  · simpa using hl
  · exact hl

/-- R33: what a tick has carried before a fault begins or ends. -/
theorem tickSteps_carried (s : State) :
    (tickSteps s).csu.carried = if s.msu.stab = .off then s.csu.carried else
      carriedUnion s.csu.carried
        { sampleConditions s.msu with
          pathClamp := (tickMsu (activeFields s) s.msu).2, impact := impactNow s.msu } := by
  have hs : (learnBias (tickArith s)).msu.stab = s.msu.stab := by simp
  have hi : (sampleConditions s.msu).impact = false := rfl
  have hcs : (sampleConditions s.msu).ctxSwitch = false := rfl
  simp only [tickSteps, splitTick_frame]
  cases himp : impactNow s.msu with
  | true =>
      simp only [if_true, impact_carried, hs, learnBias_frame, tickArith_carried]
      split
      · rfl
      · simp [carriedUnion, Carried.empty, allAxes, axisMap2, hcs, hi]
  | false =>
      simp only [Bool.false_eq_true, if_false, learnBias_frame, tickArith_carried]
      rfl

end Sys2Proof.Machine
end

section
/-! What a tick integrates, filters, counts and carries (R1 to R14, R33). -/

namespace Sys2Proof.Machine

/-! ## Angles and paths -/

/-- R9, R10: A comes back into the half turn, and P moves by what the wrap moved A. -/
theorem integrate_eq (a p r : Int) : integrate a p r = (wrapTurn (a + r), p + (wrapTurn (a + r) - (a + r))) := by
  have h : wrapTurn (a + r) = a + r + wrapBy (a + r) := by
    simp only [wrapBy, wrapTurn, halfTurn, fullTurn]
    repeat' split
    all_goals omega
  rw [integrate, h]
  simp

/-- R12: the clamped path, said of the offset. -/
theorem clampPath_eq (limit : Nat) (a p : Int) : clampPath limit a p = a - clampAbs limit (a - p) := by
  simp only [clampPath, clampAbs]
  repeat' split
  all_goals omega

/-- R12: the clamp changes the path where the offset is beyond the limit. -/
theorem pathClamped_beyond (limit : Nat) (a p : Int) : pathClamped limit a p = decide (limit < (a - p).natAbs) := by
  simp only [pathClamped, ← Bool.decide_or]
  congr 1
  exact propext (by omega)

/-- R9, R10: A and P of an axis between the integration and the filter, the rate `r`. -/
def towardPath (shift : Byte) (a0 p0 r a : Int) : Int :=
  p0 + (a - (a0 + r)) + roundDiv (a - (p0 + (a - (a0 + r)))) (2 ^ shift.toNat)

/-- R9, R10: the angle after a tick's arithmetic. -/
theorem tickMsu_angle (f : Option CtxFields) (m : Msu) :
    (tickMsu f m).1.angle = ⟨wrapTurn (m.angle.yaw + (ratesOf m).yaw), wrapTurn (m.angle.pitch + (ratesOf m).pitch),
      wrapTurn (m.angle.roll + (ratesOf m).roll)⟩ := by
  simp only [tickMsu, pathStep_frame]
  simp [integrateAll, integrate_eq]

/-- R5, R13: with no context, or at the end of a fault, P is A and no clamp acts. -/
theorem tickMsu_pathFree {f : Option CtxFields} {m : Msu} (h : f = none ∨ restoredNow m = true) :
    (tickMsu f m).1.path = (tickMsu f m).1.angle ∧ (tickMsu f m).2 = ⟨false, false, false⟩ := by
  simp only [tickMsu, pathStep]
  cases f with
  | none => exact ⟨rfl, rfl⟩
  | some g =>
      have hr : restoredNow m = true := h.resolve_left (by simp)
      simp [hr, allAxes]

/-- R11, R12: with a context P moves toward A by its share and is held within the limit. -/
theorem tickMsu_pathHeld (f : CtxFields) {m : Msu} (h : restoredNow m = false) :
    let t := tickMsu (some f) m
    let r := ratesOf m
    let y := towardPath f.shift.yaw m.angle.yaw m.path.yaw r.yaw t.1.angle.yaw
    let p := towardPath f.shift.pitch m.angle.pitch m.path.pitch r.pitch t.1.angle.pitch
    let z := towardPath f.shift.roll m.angle.roll m.path.roll r.roll t.1.angle.roll
    t.1.path = clampPaths f.limit t.1.angle ⟨y, p, z⟩ ∧ t.2 = clampsOf f.limit t.1.angle ⟨y, p, z⟩ := by
  have ha := tickMsu_angle (some f) m
  simp only [tickMsu, pathStep, h, Bool.false_eq_true, if_false] at ha ⊢
  simp only [ha]
  simp [filterPaths, filterPath, integrateAll, integrate_eq, towardPath]

/-! ## Where a fault begins -/

/-- R4, R22: with no switch pending, or outside RUNNING, a fault leaves the path and the carried conditions. -/
theorem sensorLost_path {s : State} (h : s.msu.stab ≠ .running ∨ s.ctx.pendingSwitch = none) :
    (sensorLost s).msu.path = s.msu.path ∧ (sensorLost s).csu.carried = s.csu.carried := by
  simp only [sensorLost, leaveRunning]
  split
  · next hr =>
    have hn : s.ctx.pendingSwitch = none := h.resolve_left fun hn => hn (by simpa using hr)
    simp [commitPending, hn]
  · simp

/-- R4: a fault empties the window. -/
theorem sensorLost_window (s : State) : (sensorLost s).msu.winCount = 0 ∧ (sensorLost s).msu.winSum = ⟨0, 0, 0⟩ := by
  simp only [sensorLost, leaveRunning]
  split <;> simp

/-- R2, R4, R5: the counters, the last good values, the fault, A and H after a tick's work. -/
theorem tickWork_counts (s : State) :
    let m := (tickMsu (activeFields s) s.msu).1
    (tickWork s).msu.last = m.last ∧ (tickWork s).msu.missing = m.missing ∧ (tickWork s).msu.goodRun = m.goodRun ∧
      (tickWork s).msu.fault = m.fault ∧ (tickWork s).msu.angle = m.angle ∧
      (tickWork s).csu.offset = offsetOf m := by
  rw [tickWork_stages]
  dsimp only
  split <;> split <;> simp

/-- The path and the carried conditions of a tick whose fault, if one begins, ends no switch. -/
theorem tickWork_path {s : State}
    (h : lostNow s.msu = false ∨ s.msu.stab ≠ .running ∨ s.ctx.pendingSwitch = none) :
    (tickWork s).msu.path = (tickMsu (activeFields s) s.msu).1.path ∧
      (tickWork s).csu.carried = (tickSteps s).csu.carried := by
  by_cases hl : lostNow s.msu = true
  · rw [tickWork_lost hl]
    have := sensorLost_path (s := tickSteps s) (by simpa [hl] using h)
    simpa using this
  · by_cases hr : restoredNow s.msu = true
    · rw [tickWork_restored hr]; simp
    · rw [tickWork_plain (by simpa using hl) (by simpa using hr)]; simp

/-- R8: a tick that completes no window leaves the bias. -/
theorem tickWork_window {s : State} (h : (windowStep s.msu).winCount < 4096) :
    (tickWork s).msu.bias = s.msu.bias ∧
      (lostNow s.msu = false → (tickWork s).msu.winCount = (windowStep s.msu).winCount ∧
        (tickWork s).msu.winSum = (windowStep s.msu).winSum) := by
  have hf : windowFull (windowStep s.msu) = false := by simpa [windowFull] using h
  obtain ⟨hb, hc, hs⟩ := tickSteps_window s
  simp only [hf, Bool.false_eq_true, if_false] at hb hc hs
  rw [tickWork_stages]
  dsimp only
  refine ⟨?_, fun hl => ?_⟩
  · split <;> split <;> simpa using hb
  · simp only [hl, Bool.false_eq_true, if_false]
    split
    · simpa using ⟨hc, hs⟩
    · exact ⟨hc, hs⟩

/-- R7: a window grows by at most one sample a tick. -/
theorem windowStep_winCount_le (m : Msu) : (windowStep m).winCount ≤ m.winCount + 1 := by
  simp only [windowStep]
  repeat' split
  all_goals simp [addStill]

/-- R7: the still samples, said of the numbers. -/
theorem stillSample_iff (x : Sample) (m : Msu) :
    stillSample x m = true ↔ (x.gyro.yaw.toInt - m.tickBias.yaw).natAbs ≤ m.still ∧
      (x.gyro.pitch.toInt - m.tickBias.pitch).natAbs ≤ m.still ∧
      (x.gyro.roll.toInt - m.tickBias.roll).natAbs ≤ m.still := by
  simp [stillSample, stillAxis, and_assoc]

/-- R7: the window of a unit that does not learn stands. -/
theorem windowStep_idle {m : Msu} (h : ¬ (m.learn = true ∧ m.fault = false)) : windowStep m = m := by
  rw [windowStep, if_neg h]

/-- R7: a still sample joins the window. -/
theorem windowStep_still {m : Msu} {x : Sample} (h : m.learn = true ∧ m.fault = false) (hx : m.read = .good x)
    (hs : stillSample x m = true) : windowStep m = addStill x m := by
  simp [windowStep, h, tickSample_good hx, hs]

/-- R7: a sample that is not still, and a missing one, empty the window. -/
theorem windowStep_emptied {m : Msu} (h : m.learn = true ∧ m.fault = false)
    (hx : ∀ x, m.read = .good x → stillSample x m = false) : windowStep m = emptyWindow m := by
  rw [windowStep, if_pos h]
  cases hs : tickSample m with
  | none => rfl
  | some x =>
      have hr : m.read = .good x := by
        simp only [tickSample] at hs
        split at hs
        · next hr => rw [hr, Option.some.inj hs]
        · cases hs
      simp [hx x hr]

end Sys2Proof.Machine
end

section
/-! The tick as R1 to R14 and R33 say it. -/

namespace Sys2Proof.Machine

/-- The sample of a tick in the words of R2: the one read, or the last good values. -/
theorem rawSample_eq (m : Msu) : rawSample m = match m.read with
    | .good x => x
    | _ => m.last := by
  simp only [rawSample, tickSample]
  cases m.read <;> rfl

theorem saturated_eq (m : Msu) : (sampleConditions m).gyroSat = match m.read with
    | .good x => gyroSaturated x
    | _ => false := by
  simp only [sampleConditions, tickSample]
  cases m.read <;> rfl

theorem held_eq (m : Msu) : (sampleConditions m).sensorHold = match m.read with
    | .good _ => false
    | _ => true := by
  simp only [sampleConditions, tickSample]
  cases m.read <;> rfl

theorem missing_eq (m : Msu) : (if (tickSample m).isSome then 0 else min 16 (m.missing + 1)) = match m.read with
    | .good _ => 0
    | _ => min 16 (m.missing + 1) := by
  cases h : m.read <;> simp [tickSample, h]

/-- R7: a tick that empties the window leaves it empty. -/
theorem tickWork_emptied {s : State} (h : windowStep s.msu = emptyWindow s.msu) :
    (tickWork s).msu.winCount = 0 ∧ (tickWork s).msu.winSum = ⟨0, 0, 0⟩ := by
  by_cases hl : lostNow s.msu = true
  · rw [tickWork_lost hl]
    exact sensorLost_window _
  · obtain ⟨hc, hs⟩ := (tickWork_window (s := s) (by rw [h]; simp)).2 (by simpa using hl)
    rw [h] at hc hs
    exact ⟨hc.trans (by simp), hs.trans (by simp)⟩

/-- R33: what a tick carries, with the axes its clamp held. -/
theorem tickSteps_carries {s : State} (h : s.msu.stab ≠ .off) :
    let k := s.csu.carried
    let held := (tickMsu (activeFields s) s.msu).2
    (tickSteps s).csu.carried =
      { pathClamp := ⟨k.pathClamp.yaw || held.yaw, k.pathClamp.pitch || held.pitch, k.pathClamp.roll || held.roll⟩
        gyroSat := k.gyroSat || (sampleConditions s.msu).gyroSat
        sensorHold := k.sensorHold || (sampleConditions s.msu).sensorHold
        impact := k.impact || impactNow s.msu
        ctxSwitch := k.ctxSwitch } := by
  have hc : (sampleConditions s.msu).ctxSwitch = false := rfl
  simp [tickSteps_carried, h, carriedUnion, axisMap2, hc]

/-- A tick of a unit whose first read has begun. -/
theorem tickStep_working {s : State} (h : s.msu.read ≠ .idle) : tickStep s = passTick (tickWork s) := by
  rw [tickStep, if_neg h]

/-- Settles O18: the arithmetic gives counters, angle, path and offset, and the stages after it leave them but where a
window is learned and where a fault that begins ends a pending switch. -/
theorem tickIntegratesMotion : Obligations.TickIntegratesMotion := by
  intro s ha
  have hx : exec .tick s = .next (tickStep s) := whenUp_awake ha _
  have hbias : s.msu.winCount < 4095 → (tickStep s).msu.bias = s.msu.bias := by
    intro hw
    simp only [tickStep, passTick_frame]
    split
    · rfl
    · have := windowStep_winCount_le s.msu
      exact (tickWork_window (by omega)).1
  have hpre : (tickStep s).chg.preTicks =
      (if s.chg.phase = .precharge then min 7372800 (s.chg.preTicks + 1) else s.chg.preTicks) := by
    simp only [tickStep]
    split <;> simp [passTick, chargerTick, prechargeLimit]
  have hfast : (tickStep s).chg.fastTicks =
      (if s.chg.phase = .fastCc ∨ s.chg.phase = .fastCv then min 117964800 (s.chg.fastTicks + 1)
        else s.chg.fastTicks) := by
    simp only [tickStep]
    split <;> simp [passTick, chargerTick, fastLimit]
  have hstable : (tickStep s).ssv.stable = s.ssv.stable.map (· + 1) := by
    simp only [tickStep]
    split <;> simp [passTick]
  have hnow : (tickStep s).now = s.now + 1 := by
    simp only [tickStep]
    split <;> simp [passTick]
  refine ⟨_, hx, hnow, rfl, by simp, by simp, by simp, by simp, by simp, hbias, by simp, by simp, by simp, by simp,
    hpre, hfast, hstable, fun hi => ?_, fun hi => ?_⟩
  · simp [tickStep, hi, KeepsCard]
  · rw [tickStep_working hi]
    intro raw r good restored learns lost still sum
    have hraw : raw = rawSample s.msu := (rawSample_eq s.msu).symm
    have hr : r = ratesOf s.msu := by simp only [r, hraw, ratesOf, axisMap2]
    have hgood : good ↔ (tickSample s.msu).isSome = true := tickSample_isSome.symm
    have hlost : lost ↔ lostNow s.msu = true := lostNow_iff.symm
    have hrest : restored ↔ restoredNow s.msu = true := restoredNow_iff.symm
    have hstill : ∀ x, still x ↔ stillSample x s.msu = true := fun x => (stillSample_iff x s.msu).symm
    obtain ⟨hlast, hmiss, hrun, hfault, hangle, hoff⟩ := tickWork_counts s
    obtain ⟨klast, kmiss, krun, kfault⟩ := tickMsu_counts (activeFields s) s.msu
    refine ⟨(hlast.trans klast).trans hraw.symm, ?_, fun hl => ?_, fun hr => ?_, fun hl hr => ?_, fun hg hf hn => ?_,
      fun hg => ?_, fun hw => ⟨fun hn hl => ?_, fun hl hg => ?_, fun x hl hx => ⟨fun hst => ?_, fun hst => ?_⟩⟩, ?_, ?_⟩
    · exact (hmiss.trans kmiss).trans (missing_eq s.msu)
    · have hn : ¬ good := hl.1
      refine ⟨(hfault.trans kfault).trans ?_, (hrun.trans krun).trans ?_⟩
      · simp [hlost.mp hl, lost_not_restored (hlost.mp hl)]
      · rw [if_neg fun hc => hn (hgood.mpr hc.1)]
    · refine ⟨(hfault.trans kfault).trans ?_, (hrun.trans krun).trans ?_⟩
      · simp [hrest.mp hr]
      · have := hr.2.2
        rw [if_neg (by omega)]
    · refine (hfault.trans kfault).trans ?_
      rw [hlost, Bool.not_eq_true] at hl
      rw [hrest, Bool.not_eq_true] at hr
      simp [hl, hr]
    · refine (hrun.trans krun).trans ?_
      rw [if_pos ⟨hgood.mp hg, hf, hn⟩]
    · refine (hrun.trans krun).trans ?_
      rw [if_neg]
      rintro ⟨hs, hf, -⟩
      rcases hg with hg | hg
      · exact hg (hgood.mpr hs)
      · simp [hf] at hg
    · have hstep := windowStep_idle hn
      rw [hlost, Bool.not_eq_true] at hl
      simpa [hstep] using (tickWork_window (by rw [hstep]; omega)).2 hl
    · have hstep := windowStep_emptied hl fun x hx => absurd ⟨x, hx⟩ hg
      have := tickWork_emptied hstep
      exact this
    · have hstep := windowStep_still hl hx ((hstill x).mp hst)
      have hnl : lostNow s.msu = false := by
        by_contra hc
        exact (hlost.mpr (by simpa using hc)).1 ⟨x, hx⟩
      have hk := (tickWork_window (by rw [hstep]; simp only [addStill]; omega)).2 hnl
      rw [hstep] at hk
      exact hk
    · have hstep := windowStep_emptied hl fun y hy => by
        obtain rfl : x = y := by simpa [hx] using hy
        simpa [hstill] using hst
      exact tickWork_emptied hstep
    · refine (hangle.trans (tickMsu_angle _ _)).trans ?_
      rw [hr]
    · intro hcase toward carried
      have hends : lostNow s.msu = false ∨ s.msu.stab ≠ .running ∨ s.ctx.pendingSwitch = none := by
        by_cases hl : lostNow s.msu = true
        · obtain ⟨hg, hf, hm⟩ := hlost.mpr hl
          rcases hcase with h | h | h | h | h
          · exact absurd h hg
          · omega
          · simp [hf] at h
          · exact .inr (.inl h)
          · exact .inr (.inr h)
        · exact .inl (by simpa using hl)
      obtain ⟨hpath, hcar⟩ := tickWork_path hends
      have hcarry : ∀ held, (tickMsu (activeFields s) s.msu).2 = held → s.msu.stab ≠ .off →
          (passTick (tickWork s)).csu.carried = carried held := by
        intro held hh hs
        refine (hcar.trans (tickSteps_carries hs)).trans ?_
        simp only [hh, carried, saturated_eq, held_eq] <;> rfl
      refine ⟨fun ho => ?_, fun hfree => ?_, fun f hf hn => ?_, ?_⟩
      · refine hcar.trans ?_
        simp [tickSteps_carried, ho]
      · obtain ⟨kpath, kheld⟩ := tickMsu_pathFree (m := s.msu) (hfree.imp_right hrest.mp)
        exact ⟨hpath.trans (kpath.trans hangle.symm), hcarry _ kheld⟩
      · rw [hrest, Bool.not_eq_true] at hn
        obtain ⟨kpath, kheld⟩ := tickMsu_pathHeld f hn
        rw [← hf, ← hangle, ← hr] at kpath kheld
        refine ⟨hcarry _ (kheld.trans ?_), hpath.trans (kpath.trans ?_)⟩
        · simp only [clampsOf, pathClamped_beyond]; rfl
        · simp only [clampPaths, clampPath_eq]; rfl
      · refine hoff.trans ?_
        simp only [offsetOf, axisMap2, ← hangle, ← hpath]
        rfl

end Sys2Proof.Machine
end

section
/-! The ticks that begin and end a sensor fault, and the one that learns the bias (R4, R5, R7, R8). -/

namespace Sys2Proof.Machine

/-! ## The rows that name these ticks -/

theorem exec_tick {s : State} (ha : Awake s) : exec .tick s = .next (tickStep s) := whenUp_awake ha _

theorem exec_sensorLost {s : State} (ha : Awake s) :
    exec .sensorLost s = .next (if faultCame s (tickStep s) = true then tickStep s else s) := whenUp_awake ha _

theorem exec_sensorRestored {s : State} (ha : Awake s) :
    exec .sensorRestored s = .next (if faultWent s (tickStep s) = true then tickStep s else s) := whenUp_awake ha _

theorem exec_biasLearned {s : State} (ha : Awake s) :
    exec .biasLearned s = .next (if biasDue s = true then tickStep s else s) := whenUp_awake ha _

/-- The fault after a tick of a unit whose first read has begun. -/
theorem tickStep_fault {s : State} (h : s.msu.read ≠ .idle) :
    (tickStep s).msu.fault = if restoredNow s.msu then false else s.msu.fault || lostNow s.msu := by
  obtain ⟨-, -, -, hwork, -⟩ := tickWork_counts s
  obtain ⟨-, -, -, hfault⟩ := tickMsu_counts (activeFields s) s.msu
  rw [tickStep_working h]
  exact hwork.trans hfault

/-- R1: a read that is under way or has failed is begun, and brings no sample. -/
theorem missing_read {m : Msu} (h : m.read = .waiting ∨ m.read = .failed) :
    m.read ≠ .idle ∧ ¬ ∃ x, m.read = .good x := by
  rcases h with h | h <;> simp [h]

/-- R18: a missing sample qualifies nothing. -/
theorem impactNow_missing {m : Msu} (h : ¬ ∃ x, m.read = .good x) : impactNow m = false := by
  simp [impactNow, tickSample_missing h]

/-- R7: a missing sample completes no window. -/
theorem windowStep_missing {m : Msu} (h : ¬ ∃ x, m.read = .good x) (hw : m.winCount < 4096) :
    windowFull (windowStep m) = false := by
  have hlt : (windowStep m).winCount < 4096 := by
    by_cases hl : m.learn = true ∧ m.fault = false
    · rw [windowStep_emptied hl fun x hx => absurd ⟨x, hx⟩ h]
      simp
    · rwa [windowStep_idle hl]
  simpa [windowFull] using hlt

/-- A tick that learns no bias and qualifies no impact leaves the link before a fault begins or ends. -/
theorem tickSteps_quiet {s : State} (hw : windowFull (windowStep s.msu) = false) (hi : impactNow s.msu = false) :
    (tickSteps s).lnk = s.lnk := by
  have hf : windowFull (tickMsu (activeFields s) s.msu).1 = false := by
    simpa only [windowFull, tickMsu_window] using hw
  simp [tickSteps, hi, learnBias, hf]

/-! ## A fault begins (R4) -/

/-- R4, R22: the state in which a fault that begins leaves RUNNING. -/
def lostAt (u : State) : State := raise (.sensorLost u.now) { u with msu := emptyWindow u.msu }

theorem lostAt_frame (u : State) :
    (lostAt u).now = u.now ∧ (lostAt u).msu = emptyWindow u.msu ∧ (lostAt u).csu = u.csu ∧ (lostAt u).ctx = u.ctx ∧
      (lostAt u).lnk = raiseIn u.lnk (.sensorLost u.now) := by
  simp [lostAt]

/-- R4, R22, R44: in RUNNING, with the fault present, a fault that begins leaves STANDBY, zeroed steps, and the pending
switch ended there. -/
theorem sensorLost_running {u : State} (h : u.msu.stab = .running) :
    LeftRunning { lostAt u with msu := { (lostAt u).msu with stab := .standby } } (sensorLost u) := by
  have hs : (lostAt u).msu.stab = .running := by simpa [lostAt_frame] using h
  have hl : sensorLost u = commitPending (zeroSteps { lostAt u with msu := { (lostAt u).msu with stab := .standby } }) :=
    if_pos hs
  rw [hl]
  exact commitPending_zeroSteps _ (by simp)

/-- R4, R22: outside RUNNING a fault that begins leaves the stabilization state. -/
theorem sensorLost_standing {u : State} (h : u.msu.stab ≠ .running) : sensorLost u = lostAt u := by
  have hs : (lostAt u).msu.stab ≠ .running := by simpa [lostAt_frame] using h
  exact if_neg hs

/-- R4: with no switch pending, a fault that begins is one event, an empty window, and STANDBY for RUNNING. -/
theorem sensorLost_unswitched {u : State} (h : u.ctx.pendingSwitch = none) :
    (sensorLost u).lnk.events = eventsWith (.sensorLost u.now) u ∧
      (sensorLost u).msu.stab = (if u.msu.stab = .running then .standby else u.msu.stab) ∧
      (u.msu.stab = .running → (sensorLost u).csu.step = ⟨0, 0, 0⟩ ∧ (sensorLost u).csu.absorbed = ⟨0, 0, 0⟩) := by
  by_cases hr : u.msu.stab = .running
  · have hl := sensorLost_running hr
    have hz := hl.idle (by simpa [lostAt_frame] using h)
    refine ⟨?_, ?_, fun _ => ⟨hl.steps.1, hl.steps.2.1⟩⟩
    · rw [hz]
      simp [lostAt_frame, eventsWith]
    · rw [hz]
      simp [hr]
  · rw [sensorLost_standing hr]
    simp [lostAt_frame, eventsWith, hr]

/-- The tick that begins a fault, as the row of SENSOR_LOST and as a tick (log 2). -/
theorem sensorLost_row {s : State} (ha : Awake s) (hr : s.msu.read = .waiting ∨ s.msu.read = .failed)
    (hl : lostNow s.msu = true) :
    exec .sensorLost s = .next (passTick (sensorLost (tickSteps s))) ∧
      exec .tick s = .next (passTick (sensorLost (tickSteps s))) := by
  have hidle := (missing_read hr).1
  obtain ⟨-, hf, -⟩ := lostNow_iff.mp hl
  have hcame : faultCame s (tickStep s) = true := by
    simp [faultCame, tickStep_fault hidle, hl, hf, lost_not_restored hl]
  rw [exec_sensorLost ha, exec_tick ha, if_pos hcame, tickStep_working hidle, tickWork_lost hl]
  exact ⟨rfl, rfl⟩

/-- R4: the sixteenth missing sample in a row, with no switch pending. -/
theorem sensorFault_unswitched {s : State} (hr : s.msu.read = .waiting ∨ s.msu.read = .failed)
    (hl : lostNow s.msu = true) (hw : s.msu.winCount < 4096) (hp : s.ctx.pendingSwitch = none) :
    let t := passTick (sensorLost (tickSteps s))
    t.msu.fault = true ∧ t.msu.missing = 16 ∧ t.msu.winCount = 0 ∧ t.lnk.events = eventsWith (.sensorLost s.now) s ∧
      t.msu.stab = (if s.msu.stab = .running then .standby else s.msu.stab) ∧
      (s.msu.stab = .running → t.csu.step = ⟨0, 0, 0⟩ ∧ t.csu.absorbed = ⟨0, 0, 0⟩) ∧
      (s.msu.stab ≠ .off → t.csu.carried.sensorHold = true) := by
  obtain ⟨-, hmiss⟩ := missing_read hr
  obtain ⟨-, hf, hm⟩ := lostNow_iff.mp hl
  obtain ⟨-, kmiss, -, kfault⟩ := tickMsu_counts (activeFields s) s.msu
  have hq := tickSteps_quiet (windowStep_missing hmiss hw) (impactNow_missing hmiss)
  have hctx : (tickSteps s).ctx.pendingSwitch = none := by simpa using hp
  obtain ⟨hev, hstab, hzero⟩ := sensorLost_unswitched hctx
  have hcar := (sensorLost_path (s := tickSteps s) (.inr hctx)).2
  refine ⟨?_, ?_, (sensorLost_window _).1, ?_, ?_, fun hrun => ?_, fun ho => ?_⟩
  · simp [kfault, hl, lost_not_restored hl]
  · simp [kmiss, tickSample_missing hmiss]
    omega
  · simpa [eventsWith, hq] using hev
  · simpa using hstab
  · exact hzero (by simpa using hrun)
  · simp [hcar, tickSteps_carries ho, sampleConditions, tickSample_missing hmiss]

/-- R11, R12: the path of a tick with a missing sample and a context active. -/
theorem tickMsu_pathMissing (f : CtxFields) {m : Msu} (h : ¬ ∃ x, m.read = .good x) :
    let a := (tickMsu (some f) m).1.angle
    (tickMsu (some f) m).1.path = clampPaths f.limit a
      ⟨towardPath f.shift.yaw m.angle.yaw m.path.yaw (m.last.gyro.yaw.toInt - m.tickBias.yaw) a.yaw,
        towardPath f.shift.pitch m.angle.pitch m.path.pitch (m.last.gyro.pitch.toInt - m.tickBias.pitch) a.pitch,
        towardPath f.shift.roll m.angle.roll m.path.roll (m.last.gyro.roll.toInt - m.tickBias.roll) a.roll⟩ := by
  have hr : restoredNow m = false := by simp [restoredNow, tickSample_missing h]
  have hrates : ratesOf m = ⟨m.last.gyro.yaw.toInt - m.tickBias.yaw, m.last.gyro.pitch.toInt - m.tickBias.pitch,
      m.last.gyro.roll.toInt - m.tickBias.roll⟩ := by
    simp [ratesOf, rawSample, tickSample_missing h, axisMap2]
  obtain ⟨hpath, -⟩ := tickMsu_pathHeld f hr
  rw [hrates] at hpath
  exact hpath

/-- R4, R44 to R48: the switch pending in RUNNING ends where a fault begins. -/
theorem sensorFault_switched {s : State} (hr : s.msu.read = .waiting ∨ s.msu.read = .failed)
    (hl : lostNow s.msu = true) (hw : s.msu.winCount < 4096) (hrun : s.msu.stab = .running) :
    let t := passTick (sensorLost (tickSteps s))
    t.msu.fault = true ∧ t.msu.stab = .standby ∧ t.csu.step = ⟨0, 0, 0⟩ ∧
      ∀ w, s.ctx.pendingSwitch = some w →
        SwitchEnds w { s with
          msu := { s.msu with angle := t.msu.angle, path := (tickMsu (activeFields s) s.msu).1.path }
          lnk := { s.lnk with events := eventsWith (.sensorLost s.now) s } } t := by
  obtain ⟨-, hmiss⟩ := missing_read hr
  obtain ⟨-, -, -, kfault⟩ := tickMsu_counts (activeFields s) s.msu
  have hq := tickSteps_quiet (windowStep_missing hmiss hw) (impactNow_missing hmiss)
  have hfault : (tickSteps s).msu.fault = true := by simp [kfault, hl, lost_not_restored hl]
  have hleft := sensorLost_running (u := tickSteps s) (by simpa using hrun)
  refine ⟨by simpa using hfault, hleft.stab (.inr (by simpa [lostAt_frame] using hfault)), hleft.steps.1, fun w hp => ?_⟩
  have hends := hleft.ends w (by simpa [lostAt_frame] using hp)
  refine hends.congr ?_ ?_ ?_ ?_ ?_ ?_ ?_ <;> simp [lostAt_frame, eventsWith, hq]

/-! ## A fault ends (R5) -/

/-- The tick that ends a fault, as the row of SENSOR_RESTORED and as a tick (log 2). -/
theorem sensorRestored_row {s : State} (ha : Awake s) (hr : restoredNow s.msu = true) :
    exec .sensorRestored s = .next (passTick (sensorRestored (tickSteps s))) ∧
      exec .tick s = .next (passTick (sensorRestored (tickSteps s))) := by
  obtain ⟨⟨x, hx⟩, hf, -⟩ := restoredNow_iff.mp hr
  have hidle : s.msu.read ≠ .idle := by simp [hx]
  have hwent : faultWent s (tickStep s) = true := by simp [faultWent, tickStep_fault hidle, hr, hf]
  rw [exec_sensorRestored ha, exec_tick ha, if_pos hwent, tickStep_working hidle, tickWork_restored hr]
  exact ⟨rfl, rfl⟩

/-- R5: the end of a fault, outside one then, is one event and RUNNING for STANDBY with a context active. -/
theorem sensorRestored_eq {u : State} (h : u.msu.fault = false) :
    sensorRestored u = { u with
      lnk := raiseIn u.lnk (.sensorRestored u.now)
      msu := { u.msu with
        stab := if u.msu.stab = .standby ∧ u.ctx.active ≠ none then .running else u.msu.stab } } := by
  simp only [sensorRestored, raise_frame, runIfHealthy]
  cases hc : u.ctx.active with
  | none => simp [raise]
  | some i =>
      by_cases hs : u.msu.stab = .standby
      · simp [raise, h, hs]
      · simp [raise, hs]

/-- R5: the sixty-fourth good sample in a row of a fault. -/
theorem sensorFault_ends {s : State} (hr : restoredNow s.msu = true) (hw : s.msu.winCount < 4096)
    (hi : impactNow s.msu = false) :
    let t := passTick (sensorRestored (tickSteps s))
    t.msu.fault = false ∧ t.msu.goodRun = 0 ∧ t.msu.path = t.msu.angle ∧ t.csu.offset = ⟨0, 0, 0⟩ ∧
      t.lnk.events = eventsWith (.sensorRestored s.now) s ∧
      t.msu.stab = if s.msu.stab = .standby ∧ s.ctx.active ≠ none then .running else s.msu.stab := by
  obtain ⟨-, hf, hg⟩ := restoredNow_iff.mp hr
  obtain ⟨-, -, krun, kfault⟩ := tickMsu_counts (activeFields s) s.msu
  obtain ⟨kpath, -⟩ := tickMsu_pathFree (f := activeFields s) (.inr hr)
  have hstep : windowFull (windowStep s.msu) = false := by
    rw [windowStep_idle (by simp [hf])]
    simpa [windowFull] using hw
  have hq := tickSteps_quiet hstep hi
  have hfault : (tickSteps s).msu.fault = false := by simp [kfault, hr]
  rw [sensorRestored_eq hfault]
  refine ⟨hfault, ?_, ?_, ?_, ?_, ?_⟩
  · simp [krun, show ¬ s.msu.goodRun < 63 by omega]
  · simp [kpath]
  · simp [offsetOf, kpath, axisMap2]
  · simp [hq, eventsWith]
  · simp

/-! ## The bias is learned (R7, R8) -/

/-- R8: the rounded mean of a complete window, within the bias's range. -/
theorem learnedBias_eq (sum : Int) : learnedBias sum = max (-512) (min 511 (roundDiv sum 4096)) :=
  clampInt_eq (by decide) _

/-- R8: the tick whose still sample completes the window. -/
theorem biasLearned_tick {s : State} {x : Sample} (hx : s.msu.read = .good x) (hf : s.msu.fault = false)
    (hstep : windowStep s.msu = addStill x s.msu) (hw : s.msu.winCount = 4095) :
    let b := axisMap learnedBias (axisMap2 (fun (z : Int) (g : Half) => z + g.toInt) s.msu.winSum x.gyro)
    tickStep s = passTick (tickSteps s) ∧ biasDue s = true ∧ (tickStep s).msu.bias = b ∧
      (tickStep s).msu.tickBias = b ∧ (tickStep s).msu.winCount = 0 ∧ (tickStep s).msu.winSum = ⟨0, 0, 0⟩ ∧
      (impactNow s.msu = false → (tickStep s).lnk.events = eventsWith (.biasLearned b) s) := by
  have hidle : s.msu.read ≠ .idle := by simp [hx]
  have hfull : windowFull (windowStep s.msu) = true := by simp [windowFull, hstep, addStill, hw]
  have hl : lostNow s.msu = false := by simp [lostNow, tickSample_good hx]
  have hr : restoredNow s.msu = false := by simp [restoredNow, hf]
  have htick : tickStep s = passTick (tickSteps s) := by rw [tickStep_working hidle, tickWork_plain hl hr]
  obtain ⟨hb, hc, hs⟩ := tickSteps_window s
  simp only [hfull, if_true] at hb hc hs
  rw [hstep] at hb
  refine ⟨htick, by simp [biasDue, hidle, hfull], ?_⟩
  rw [htick]
  refine ⟨hb, hb, hc, hs, fun hi => ?_⟩
  obtain ⟨-, kwin⟩ := tickMsu_window (activeFields s) s.msu
  have kfull : windowFull (tickMsu (activeFields s) s.msu).1 = true := by
    simpa only [windowFull, tickMsu_window] using hfull
  simp [tickSteps, hi, learnBias, kfull, kwin, hstep, addStill, eventsWith]

/-- Settles O21: a fault begins and ends last in its tick, on the path its arithmetic gave; the window is learned before. -/
theorem sensorFaultAndBiasTicks : Obligations.SensorFaultAndBiasTicks := by
  refine ⟨fun s ha hr hf hm hw hp => ?_, fun s w f ha hr hf hm hw hrun hp hact => ?_, fun s x ha hx hf hg hw hi => ?_,
    fun s x ha hx hf hle hw h1 h2 h3 => ?_, fun s x ha hx => ?_, fun s ha hf => ?_, fun s ha hf => ?_, fun s ha hw => ?_⟩
  · have hl : lostNow s.msu = true := lostNow_iff.mpr ⟨(missing_read hr).2, hf, hm⟩
    exact ⟨_, (sensorLost_row ha hr hl).1, (sensorLost_row ha hr hl).2, sensorFault_unswitched hr hl hw hp⟩
  · have hl : lostNow s.msu = true := lostNow_iff.mpr ⟨(missing_read hr).2, hf, hm⟩
    obtain ⟨hfault, hstab, hstep, hends⟩ := sensorFault_switched hr hl hw hrun
    refine ⟨_, (sensorLost_row ha hr hl).1, (sensorLost_row ha hr hl).2, hfault, hstab, hstep, ?_⟩
    have hpath := tickMsu_pathMissing f (missing_read hr).2
    rw [← hact] at hpath
    refine (hends w hp).congr rfl ?_ rfl rfl rfl rfl rfl
    have hangle : (passTick (sensorLost (tickSteps s))).msu.angle = (tickMsu (activeFields s) s.msu).1.angle := by simp
    rw [hpath, hangle]
    simp only [clampPaths, clampPath_eq]
    rfl
  · have hr : restoredNow s.msu = true := restoredNow_iff.mpr ⟨⟨x, hx⟩, hf, hg⟩
    exact ⟨_, (sensorRestored_row ha hr).1, (sensorRestored_row ha hr).2, sensorFault_ends hr hw hi⟩
  · have hst : stillSample x s.msu = true := (stillSample_iff x s.msu).mpr ⟨h1, h2, h3⟩
    obtain ⟨-, hdue, hb, htb, hc, hs, hev⟩ := biasLearned_tick hx hf (windowStep_still ⟨hle, hf⟩ hx hst) hw
    simp only [axisMap, axisMap2, learnedBias_eq] at hb htb hev
    exact ⟨_, by rw [exec_biasLearned ha, if_pos hdue], exec_tick ha, hb, htb, hc, hs, hev⟩
  · have hidle : s.msu.read ≠ .idle := by simp [hx]
    have hl : lostNow s.msu = false := by simp [lostNow, tickSample_good hx]
    rw [exec_sensorLost ha, if_neg]
    simp only [faultCame, tickStep_fault hidle, hl]
    cases s.msu.fault <;> simp
  · rw [exec_sensorLost ha, if_neg (by simp [faultCame, hf])]
  · rw [exec_sensorRestored ha, if_neg (by simp [faultWent, hf])]
  · have := windowStep_winCount_le s.msu
    have hfull : windowFull (windowStep s.msu) = false := by simp [windowFull]; omega
    rw [exec_biasLearned ha, if_neg (by simp [biasDue, hfull])]

end Sys2Proof.Machine
end

section
/-! Every setting stays in its range (R6, R7, R17, R55, R145, R155, R171). -/

namespace Sys2Proof.Machine

/-! ## The law in its parts -/

/-- The motion sampling unit's part of the law (R6, R7, R17). -/
def MotionInRange (m : Msu) : Prop :=
  (BiasInRange m.bias.yaw ∧ BiasInRange m.bias.pitch ∧ BiasInRange m.bias.roll) ∧
    (BiasInRange m.tickBias.yaw ∧ BiasInRange m.tickBias.pitch ∧ BiasInRange m.tickBias.roll) ∧
    (1 ≤ m.still ∧ m.still ≤ 255) ∧ ImpactInRange m.imp ∧ ImpactInRange m.tickImp

/-- A channel's part of the law: its settings and the attempts left (R55, R66). -/
def AttemptsInRange (x : ChanSettings × Nat) : Prop := ChanSettingsInRange x.1 ∧ x.2 ≤ x.1.attempts

/-- The channels' part of the law. -/
def DriveInRange (d : PerChan (ChanSettings × Nat)) : Prop := ∀ c, AttemptsInRange (chanGet d c)

/-- The supply supervisor's part of the law (R171). -/
def RideInRange (v : Ssv) : Prop := (1 ≤ v.rideMs ∧ v.rideMs ≤ 32) ∧ (8 ≤ v.budget ∧ v.budget ≤ 255)

theorem settingsLaw_iff (s : State) :
    SettingsLaw s ↔
      MotionInRange s.msu ∧ DriveInRange (driveOf s.adu) ∧ ChargeInRange s.chg ∧ InputInRange s.ips ∧
        RideInRange s.ssv := by
  simp only [SettingsLaw, MotionInRange, DriveInRange, AttemptsInRange, chanGet_driveOf, RideInRange, and_assoc]

/-- The charger's ranges are its settings'. -/
theorem ChargeInRange.congr {g h : Chg} (hg : ChargeInRange g) (he : chargeSettings h = chargeSettings g) :
    ChargeInRange h := by
  simp only [chargeSettings, Prod.mk.injEq] at he
  obtain ⟨h1, h2, h3, h4, h5⟩ := he
  simpa only [ChargeInRange, h1, h2, h3, h4, h5] using hg

/-- The selector's settings (R145). -/
def inputSettings (p : Ips) : Nat × Nat × Nat × Nat := (p.usbLimit, p.usbFloor, p.auxLimit, p.auxFloor)

theorem InputInRange.congr {p q : Ips} (hp : InputInRange p) (he : inputSettings q = inputSettings p) :
    InputInRange q := by
  simp only [inputSettings, Prod.mk.injEq] at he
  obtain ⟨h1, h2, h3, h4⟩ := he
  simpa only [InputInRange, h1, h2, h3, h4] using hp

/-- From `s` to `t` the motion unit's settings and bias are as they were. -/
def KeepsMotionSettings (s t : State) : Prop :=
  t.msu.bias = s.msu.bias ∧ t.msu.tickBias = s.msu.tickBias ∧ t.msu.still = s.msu.still ∧ t.msu.imp = s.msu.imp ∧
    t.msu.tickImp = s.msu.tickImp

/-- From `s` to `t` every setting but the motion unit's and the channels' is as it was. -/
def KeepsPowerSettings (s t : State) : Prop :=
  chargeSettings t.chg = chargeSettings s.chg ∧ inputSettings t.ips = inputSettings s.ips ∧
    t.ssv.rideMs = s.ssv.rideMs ∧ t.ssv.budget = s.ssv.budget

theorem MotionInRange.congr {s t : State} (h : MotionInRange s.msu) (k : KeepsMotionSettings s t) :
    MotionInRange t.msu := by
  obtain ⟨h1, h2, h3, h4, h5⟩ := k
  simpa only [MotionInRange, h1, h2, h3, h4, h5] using h

/-- Every setting's range is kept where the power side's settings stand and the others are in range. -/
theorem SettingsLaw.of_parts {s t : State} (h : SettingsLaw s) (hm : MotionInRange t.msu)
    (hd : DriveInRange (driveOf t.adu)) (hp : KeepsPowerSettings s t) : SettingsLaw t := by
  obtain ⟨-, -, hc, hi, hr⟩ := (settingsLaw_iff s).mp h
  obtain ⟨k1, k2, k3, k4⟩ := hp
  exact (settingsLaw_iff t).mpr ⟨hm, hd, hc.congr k1, hi.congr k2, by simpa only [RideInRange, k3, k4] using hr⟩

/-- A state with the settings of one that obeys the law obeys it. -/
theorem SettingsLaw.of_kept {s t : State} (h : SettingsLaw s)
    (k : KeepsMotionSettings s t ∧ driveOf t.adu = driveOf s.adu ∧ KeepsPowerSettings s t) : SettingsLaw t := by
  obtain ⟨hm, hd, -⟩ := (settingsLaw_iff s).mp h
  obtain ⟨km, kd, kp⟩ := k
  exact h.of_parts (hm.congr km) (kd ▸ hd) kp

/-- A state whose channels alone have new settings, in range, obeys the law. -/
theorem SettingsLaw.of_drive {s t : State} (h : SettingsLaw s) (hd : DriveInRange (driveOf t.adu))
    (km : KeepsMotionSettings s t) (kp : KeepsPowerSettings s t) : SettingsLaw t :=
  h.of_parts (((settingsLaw_iff s).mp h).1.congr km) hd kp

/-! ## Values brought into range -/

theorem clampNat_mem {lo hi : Nat} (h : lo ≤ hi) (n : Nat) : lo ≤ clampNat lo hi n ∧ clampNat lo hi n ≤ hi := by
  rw [clampNat_eq h]
  omega

theorem clampNat_onGrid {a b step n : Nat} (h : n % step = 0 ∨ n < a * step ∨ b * step < n) :
    clampNat (a * step) (b * step) n % step = 0 := by
  simp only [clampNat]
  split
  · simp
  · split
    · simp
    · omega

/-- R55, R155: a setting on a grid comes onto it, and into its range. -/
theorem clampStep_mem {a b : Nat} (step : Nat) (h : a ≤ b) (n : Nat) :
    a * step ≤ clampStep (a * step) (b * step) step n ∧ clampStep (a * step) (b * step) step n ≤ b * step ∧
      clampStep (a * step) (b * step) step n % step = 0 := by
  obtain ⟨hlo, hhi⟩ := clampNat_mem (Nat.mul_le_mul_right step h) (if a * step ≤ n ∧ n ≤ b * step then floorTo step n else n)
  refine ⟨hlo, hhi, clampNat_onGrid ?_⟩
  split
  · exact .inl (by simp [floorTo])
  · exact .inr (by omega)

theorem biasInRange_clamp (z : Int) : BiasInRange (clampInt (-512) 511 z) := by
  rw [clampInt_eq (by decide), BiasInRange]
  omega

theorem clampImpact_inRange (thr count : Byte) (rearm park : Half) (pre post : Byte) :
    ImpactInRange (clampImpact thr count rearm park pre post) := by
  have hp := clampNat_mem (show 0 ≤ 5000 by decide) park.toNat
  have hr := clampNat_mem (show 0 ≤ 60 by decide) pre.toNat
  have ho := clampNat_mem (show 0 ≤ 60 by decide) post.toNat
  exact ⟨clampNat_mem (by decide) _, clampNat_mem (by decide) _, clampNat_mem (by decide) _, hp.2, hr.2, ho.2⟩

theorem clampSettings_inRange (prescaler : Byte) (period limit : Half) (delay : Byte) (on : Bool)
    (attempts retryDelay : Byte) :
    ChanSettingsInRange (clampSettings prescaler period limit delay on attempts retryDelay) := by
  have hd := clampNat_mem (show 0 ≤ 63 by decide) delay.toNat
  have ha := attempts.isLt
  exact ⟨clampNat_mem (by decide) _, clampNat_mem (by decide) _,
    clampStep_mem 50 (show 1 ≤ 16 by decide) _, hd.2, by simp only [clampSettings]; omega,
    clampNat_mem (by decide) _⟩

/-! ## The motion unit -/

/-- R8: the tick's work leaves the bias or makes it a learned one. -/
theorem tickWork_bias (s : State) : (tickWork s).msu.bias = s.msu.bias ∨
    ∃ z : PerAxis Int, (tickWork s).msu.bias = axisMap learnedBias z := by
  have hb : (tickWork s).msu.bias = (tickSteps s).msu.bias := by
    rw [tickWork_stages]
    dsimp only
    split <;> split <;> simp
  rw [hb, (tickSteps_window s).1]
  split
  · exact .inr ⟨_, rfl⟩
  · exact .inl rfl

theorem tickStep_motionInRange {s : State} (h : MotionInRange s.msu) : MotionInRange (tickStep s).msu := by
  obtain ⟨hb, -, hs, hi, -⟩ := h
  have hbias : BiasInRange (tickStep s).msu.bias.yaw ∧ BiasInRange (tickStep s).msu.bias.pitch ∧
      BiasInRange (tickStep s).msu.bias.roll := by
    simp only [tickStep, passTick_frame]
    split
    · exact hb
    · obtain hw | ⟨z, hw⟩ := tickWork_bias s
      · rw [hw]; exact hb
      · rw [hw]; exact ⟨biasInRange_clamp _, biasInRange_clamp _, biasInRange_clamp _⟩
  refine ⟨hbias, ?_, ?_, ?_, ?_⟩
  · simpa using hbias
  · simpa using hs
  · simpa using hi
  · simpa using hi

/-! ## The channels -/

theorem DriveInRange.chanSet {d : PerChan (ChanSettings × Nat)} (h : DriveInRange d) (c : Chan)
    {x : ChanSettings × Nat} (hx : AttemptsInRange x) : DriveInRange (chanSet d c x) := by
  intro j
  rw [chanGet_chanSet]
  split
  · exact hx
  · exact h j

theorem DriveInRange.chan {a : PerChan Channel} (h : DriveInRange (driveOf a)) (c : Chan) :
    AttemptsInRange ((chanGet a c).cfg, (chanGet a c).attempts) := chanGet_driveOf a c ▸ h c

theorem qualifyFault_drive (c : Chan) {s : State} (h : DriveInRange (driveOf s.adu)) :
    DriveInRange (driveOf (qualifyFault c s).adu) := by
  have hc := h.chan c
  have hch : AttemptsInRange ((chanGet s.adu c).cfg, (chanGet s.adu c).attempts - 1) :=
    ⟨hc.1, (Nat.sub_le _ _).trans hc.2⟩
  simp only [qualifyFault]
  split
  · simpa using h.chanSet c hch
  · simpa using h.chanSet c hc

theorem overcurrentStep_drive (c : Chan) (cycles : Nat) {s : State} (h : DriveInRange (driveOf s.adu)) :
    DriveInRange (driveOf (overcurrentStep c cycles s).adu) := by
  simp only [overcurrentStep]
  repeat' split
  · exact qualifyFault_drive c h
  · simpa using h
  · exact h

theorem cleanExpiry_drive (c : Chan) {s : State} (h : DriveInRange (driveOf s.adu)) :
    DriveInRange (driveOf (cleanExpiry c s).adu) := by
  simp only [cleanExpiry]
  repeat' split
  · exact h
  · simpa using h.chanSet c (x := ((chanGet s.adu c).cfg, (chanGet s.adu c).cfg.attempts))
      ⟨(h.chan c).1, le_refl _⟩
  · exact h

theorem enableChannel_drive (c : Chan) {s : State} (h : DriveInRange (driveOf s.adu)) :
    DriveInRange (driveOf (enableChannel c s).adu) := by
  have hc : AttemptsInRange ((chanGet s.adu c).cfg, (chanGet s.adu c).cfg.attempts) := ⟨(h.chan c).1, le_refl _⟩
  simp only [enableChannel]
  split <;> simpa using h.chanSet c hc

theorem storeGroup_drive {p q : Nat} (hp : 1 ≤ p ∧ p ≤ 32) (hq : 16 ≤ q ∧ q ≤ 65535) (c : Chan) {s : State}
    (h : DriveInRange (driveOf s.adu)) : DriveInRange (driveOf (storeGroup p q c s).adu) := by
  obtain ⟨⟨-, -, hrest⟩, hatt⟩ := h.chan c
  simpa [storeGroup] using h.chanSet c (x := ({ (chanGet s.adu c).cfg with prescaler := p, period := q },
    (chanGet s.adu c).attempts)) ⟨⟨hp, hq, hrest⟩, hatt⟩

theorem actSetReq_drive (tag chan prescaler : Byte) (period limit : Half) (delay retry attempts retryDelay : Byte)
    {s : State} (h : DriveInRange (driveOf s.adu)) :
    DriveInRange (driveOf (actSetReq tag chan prescaler period limit delay retry attempts retryDelay s).adu) := by
  simp only [actSetReq]
  repeat' split
  · exact h
  · exact h
  · next on _ _ c _ =>
    have hcfg := clampSettings_inRange prescaler period limit delay on attempts retryDelay
    simpa [storeSettings] using h.chanSet c ⟨hcfg, Nat.min_le_right _ _⟩

theorem actGroupReq_drive (tag mask prescaler : Byte) (period : Half) {s : State} (h : DriveInRange (driveOf s.adu)) :
    DriveInRange (driveOf (actGroupReq tag mask prescaler period s).adu) := by
  simp only [actGroupReq]
  repeat' split
  · exact h
  · exact h
  · exact forMask_keeps (P := fun t => DriveInRange (driveOf t.adu))
      (fun c t ht => storeGroup_drive (clampNat_mem (by decide) _) (clampNat_mem (by decide) _) c ht) _ h

theorem actEnableOnReq_drive (tag mask : Byte) {s : State} (h : DriveInRange (driveOf s.adu)) :
    DriveInRange (driveOf (actEnableOnReq tag mask s).adu) := by
  simp only [actEnableOnReq]
  repeat' split
  · exact h
  · exact h
  · exact h
  · exact forMask_keeps (P := fun t => DriveInRange (driveOf t.adu)) (fun c t ht => enableChannel_drive c ht) _ h

/-! ## The charger and the selector -/

theorem chargerNotice_inRange {s : State} (h : ChargeInRange s.chg) : ChargeInRange (chargerNotice s).chg := by
  have hu : ChargeInRange (useTarget s).chg := ⟨h.1, h.1, h.2.2⟩
  exact hu.congr (by simp [chargerNotice, useTarget])

theorem roundEnd_inRange {s : State} (h : ChargeInRange s.chg) : ChargeInRange (roundEnd s).chg :=
  chargerNotice_inRange (s := powerNotice s) (by simpa using h)

theorem convertTDie_inRange (r : Reading) {s : State} (h : ChargeInRange s.chg) :
    ChargeInRange (convertTDie r s).chg := by
  simp only [convertTDie]
  exact roundEnd_inRange (h.congr (by simp))

theorem scanStep_inRange (r : Reading) {s : State} (h : ChargeInRange s.chg) : ChargeInRange (scanStep r s).chg := by
  simp only [scanStep, convert]
  split
  iterate 6 exact h
  · exact h.congr (by simp)
  · exact convertTDie_inRange r h

@[simp] theorem ipsNotice_settings (usbV auxV vIn : Int) (p : Ips) :
    inputSettings (ipsNotice usbV auxV vIn p) = inputSettings p := by
  simp only [ipsNotice, walkLimit]
  (repeat' split) <;> rfl

@[simp] theorem powerNotice_settings (s : State) : inputSettings (powerNotice s).ips = inputSettings s.ips := by
  simp only [powerNotice, inputEvent]
  split <;> simp

@[simp] theorem roundEnd_settings (s : State) : inputSettings (roundEnd s).ips = inputSettings s.ips := by
  simp [roundEnd]

@[simp] theorem scanStep_input (r : Reading) (s : State) : inputSettings (scanStep r s).ips = inputSettings s.ips := by
  simp only [scanStep, convert, convertTDie]
  split <;> simp

theorem chargeSetReq_inRange (tag enable : Byte) (target fast termination fastTimer : Half) {s : State}
    (h : ChargeInRange s.chg) : ChargeInRange (chargeSetReq tag enable target fast termination fastTimer s).chg := by
  simp only [chargeSetReq, applyCharge]
  split
  · exact h
  · next on _ =>
    have hc : ChargeInRange (clampCharge target fast termination fastTimer on s.chg) :=
      ⟨clampStep_mem 10 (show 410 ≤ 435 by decide) _, h.2.1,
        clampStep_mem 25 (show 4 ≤ 80 by decide) _, clampNat_mem (by decide) _,
        clampNat_mem (by decide) _⟩
    refine hc.congr ?_
    simp only [answer_frame]
    split <;> simp

theorem inputSetReq_inRange (tag preference : Byte) (usbLimit usbFloor auxLimit auxFloor : Half) {s : State}
    (h : InputInRange s.ips) :
    InputInRange (inputSetReq tag preference usbLimit usbFloor auxLimit auxFloor s).ips := by
  simp only [inputSetReq, storeInput]
  split
  · exact h
  · next pref _ =>
    have hc : InputInRange { s.ips with
        usbLimit := clampNat 100 3000 usbLimit.toNat
        usbFloor := clampNat 4000 5000 usbFloor.toNat
        auxLimit := clampNat 100 3000 auxLimit.toNat
        auxFloor := clampNat 5000 12000 auxFloor.toNat } :=
      ⟨clampNat_mem (by decide) _, clampNat_mem (by decide) _, clampNat_mem (by decide) _, clampNat_mem (by decide) _⟩
    refine hc.congr ?_
    cases s.ips.sel <;> rfl

/-! ## Resets -/

@[simp] theorem cutOff_drive (s : State) : driveOf (cutOff s).adu = driveOf s.adu := rfl

theorem motionInRange_reset : MotionInRange Msu.reset := by
  simp only [MotionInRange, BiasInRange, ImpactInRange]; decide

theorem chargeInRange_reset : ChargeInRange Chg.reset := by
  simp only [ChargeInRange]; decide

theorem inputInRange_reset : InputInRange Ips.reset := by
  simp only [InputInRange]; decide

theorem attemptsInRange_reset : AttemptsInRange (Channel.reset.cfg, Channel.reset.attempts) := by
  simp only [AttemptsInRange, ChanSettingsInRange]; decide

theorem rideInRange_reset (rail : Rail) : RideInRange (Ssv.reset rail) := by
  simp [RideInRange, Ssv.reset]

/-- A channel after a reset stands with the power-on settings (R52). -/
theorem channelAfter_inRange (b : Bool) (a : PerChan Channel) : DriveInRange (driveOf (chanMap (channelAfter b) a)) := by
  intro c
  cases c <;> exact attemptsInRange_reset

/-- R197 to R201: the part right after any reset has the power-on settings. -/
theorem settingsLaw_powerOn (s : State) : SettingsLaw (powerOnState s) :=
  (settingsLaw_iff _).mpr ⟨motionInRange_reset, channelAfter_inRange _ _, chargeInRange_reset, inputInRange_reset,
    rideInRange_reset _⟩

theorem settingsLaw_warm (s : State) : SettingsLaw (warmState s) :=
  (settingsLaw_iff _).mpr ⟨motionInRange_reset, channelAfter_inRange _ _, chargeInRange_reset.congr rfl,
    inputInRange_reset.congr rfl, rideInRange_reset s.ssv.rail⟩

theorem beginReset_settingsLaw (c : ResetCause) {s : State} (h : SettingsLaw s) : SettingsLaw (beginReset c s) := by
  simp only [beginReset]
  split
  · exact h.of_kept ⟨⟨rfl, rfl, rfl, rfl, rfl⟩, rfl, rfl, rfl, rfl, rfl⟩
  · exact h.of_kept ⟨⟨rfl, rfl, rfl, rfl, rfl⟩, rfl, rfl, rfl, rfl, rfl⟩

theorem finishReset_settingsLaw {s : State} (h : SettingsLaw s) : SettingsLaw (finishReset s) := by
  simp only [finishReset, rideAtStart]
  (repeat' split)
  · exact (settingsLaw_powerOn s).of_kept (by simp [KeepsMotionSettings, KeepsPowerSettings])
  · exact settingsLaw_powerOn s
  · exact settingsLaw_warm s
  · exact h

theorem requestReset_settingsLaw {s : State} (h : SettingsLaw s) : SettingsLaw (requestReset s) :=
  finishReset_settingsLaw (beginReset_settingsLaw _ h)

/-! ## Every row -/

theorem stabSetReq_settingsLaw (tag run learn still : Byte) {s : State} (h : SettingsLaw s) :
    SettingsLaw (stabSetReq tag run learn still s) := by
  obtain ⟨⟨hb, htb, -, hi, hti⟩, hd, -⟩ := (settingsLaw_iff s).mp h
  simp only [stabSetReq]
  split
  · next go on _ _ =>
    have hst := clampNat_mem (show 1 ≤ 255 by decide) still.toNat
    have hu : SettingsLaw { s with msu := setLearning on (clampNat 1 255 still.toNat) s.msu } := by
      refine h.of_parts ?_ hd ⟨rfl, rfl, rfl, rfl⟩
      rw [setLearning_eq]
      exact ⟨hb, htb, hst, hi, hti⟩
    generalize { s with msu := setLearning on (clampNat 1 255 still.toNat) s.msu } = u at hu
    refine hu.of_kept ?_
    split <;> simp [KeepsMotionSettings, KeepsPowerSettings]
  · exact h.of_kept (by simp [KeepsMotionSettings, KeepsPowerSettings])

theorem biasSetReq_settingsLaw (tag : Byte) (yaw pitch roll : Half) {s : State} (h : SettingsLaw s) :
    SettingsLaw (biasSetReq tag yaw pitch roll s) := by
  obtain ⟨⟨-, htb, hst, hi, hti⟩, hd, -⟩ := (settingsLaw_iff s).mp h
  exact h.of_parts ⟨⟨biasInRange_clamp _, biasInRange_clamp _, biasInRange_clamp _⟩, htb, hst, hi, hti⟩ hd
    ⟨rfl, rfl, rfl, rfl⟩

theorem impactSetReq_settingsLaw (tag thr count : Byte) (rearm park : Half) (pre post : Byte) {s : State}
    (h : SettingsLaw s) : SettingsLaw (impactSetReq tag thr count rearm park pre post s) := by
  obtain ⟨⟨hb, htb, hst, -, hti⟩, hd, -⟩ := (settingsLaw_iff s).mp h
  exact h.of_parts ⟨hb, htb, hst, clampImpact_inRange _ _ _ _ _ _, hti⟩ hd ⟨rfl, rfl, rfl, rfl⟩

theorem supplySetReq_settingsLaw (tag ride budget : Byte) {s : State} (h : SettingsLaw s) :
    SettingsLaw (supplySetReq tag ride budget s) := by
  obtain ⟨hm, hd, hc, hi, -⟩ := (settingsLaw_iff s).mp h
  exact (settingsLaw_iff _).mpr ⟨hm, hd, hc, hi, clampNat_mem (by decide) _, clampNat_mem (by decide) _⟩

theorem runRequest_settingsLaw (i : Instr) {s : State} (h : SettingsLaw s) : SettingsLaw (runRequest i s) := by
  obtain ⟨hm, hd, hc, hi, hr⟩ := (settingsLaw_iff s).mp h
  cases i
  case stabSet => exact stabSetReq_settingsLaw _ _ _ _ h
  case biasSet => exact biasSetReq_settingsLaw _ _ _ _ h
  case impactSet => exact impactSetReq_settingsLaw _ _ _ _ _ _ _ h
  case supplySet => exact supplySetReq_settingsLaw _ _ _ h
  case actSet =>
    exact h.of_drive (actSetReq_drive _ _ _ _ _ _ _ _ _ hd) (by simp [KeepsMotionSettings, runRequest])
      (by simp [KeepsPowerSettings, runRequest])
  case actGroup =>
    exact h.of_drive (actGroupReq_drive _ _ _ _ hd) (by simp [KeepsMotionSettings, runRequest])
      (by simp [KeepsPowerSettings, runRequest])
  case actEnableOn =>
    exact h.of_drive (actEnableOnReq_drive _ _ hd) (by simp [KeepsMotionSettings, runRequest])
      (by simp [KeepsPowerSettings, runRequest])
  case chargeSet =>
    exact (settingsLaw_iff _).mpr ⟨by simpa [runRequest] using hm, by simpa [runRequest] using hd,
      chargeSetReq_inRange _ _ _ _ _ _ hc, by simpa [runRequest] using hi, by simpa [runRequest] using hr⟩
  case inputSet =>
    exact (settingsLaw_iff _).mpr ⟨by simpa [runRequest] using hm, by simpa [runRequest] using hd,
      by simpa [runRequest] using hc, inputSetReq_inRange _ _ _ _ _ _ hi, by simpa [runRequest] using hr⟩
  all_goals exact h.of_kept (by simp [KeepsMotionSettings, KeepsPowerSettings, runRequest])

theorem takeFrame_settingsLaw (bytes : List Byte) {s : State} (h : SettingsLaw s) : SettingsLaw (takeFrame bytes s) := by
  simp only [takeFrame, errorReply]
  split
  · exact runRequest_settingsLaw _ h
  all_goals exact h.of_kept (by simp [KeepsMotionSettings, KeepsPowerSettings])

theorem readTransaction_settingsLaw (n : Nat) {s : State} (h : SettingsLaw s) : SettingsLaw (readTransaction n s) := by
  have hl : SettingsLaw { s with lnk := linkAfterRead n s.lnk } :=
    h.of_kept (by simp [KeepsMotionSettings, KeepsPowerSettings])
  simp only [readTransaction]
  split
  · exact (requestReset_settingsLaw hl).of_kept (by simp [KeepsMotionSettings, KeepsPowerSettings])
  · exact hl

theorem tickStep_settingsLaw {s : State} (h : SettingsLaw s) : SettingsLaw (tickStep s) := by
  obtain ⟨hm, hd, -⟩ := (settingsLaw_iff s).mp h
  exact h.of_parts (tickStep_motionInRange hm) (by simpa using hd) (by simp [KeepsPowerSettings])

theorem scanStep_settingsLaw (r : Reading) {s : State} (h : SettingsLaw s) : SettingsLaw (scanStep r s) := by
  obtain ⟨hm, hd, hc, hi, hr⟩ := (settingsLaw_iff s).mp h
  exact (settingsLaw_iff _).mpr ⟨by simpa using hm, by simpa using hd, scanStep_inRange r hc,
    hi.congr (scanStep_input r s), by simpa using hr⟩

theorem rowEffect_settingsLaw (i : Instr) {s : State} (h : SettingsLaw s) : SettingsLaw (rowEffect i s) := by
  obtain ⟨hm, hd, -⟩ := (settingsLaw_iff s).mp h
  have ht := tickStep_settingsLaw h
  cases i
  case tick => exact ht
  case sensorLost | sensorRestored | biasLearned | impactQualify => exact stepThat_keeps h ht
  case scanConversion => exact scanStep_settingsLaw _ h
  case batteryAbsent | batteryPresent | sourcePresent | sourceLost | iEffRaise | chargeDone =>
    exact stepThat_keeps h (scanStep_settingsLaw _ h)
  case overcurrentFault =>
    exact h.of_drive (overcurrentStep_drive _ _ hd) (by simp [KeepsMotionSettings, rowEffect])
      (by simp [KeepsPowerSettings, rowEffect])
  case cleanRunExpiry =>
    exact h.of_drive (cleanExpiry_drive _ hd) (by simp [KeepsMotionSettings, rowEffect])
      (by simp [KeepsPowerSettings, rowEffect])
  case readTransaction => exact readTransaction_settingsLaw _ h
  case writeTransaction =>
    simp only [rowEffect]
    repeat' split
    · exact h
    · exact readTransaction_settingsLaw _ h
    · exact takeFrame_settingsLaw _ h
  case brownout =>
    simp only [rowEffect, brownout]
    split
    · exact h
    · exact (beginReset_settingsLaw .brownout h).of_kept (by simp [KeepsMotionSettings, KeepsPowerSettings])
  case railBelowPowerOnLevel =>
    simp only [rowEffect, belowPowerOnLevel]
    split
    · exact (beginReset_settingsLaw .powerOn h).of_kept (by simp [KeepsMotionSettings, KeepsPowerSettings])
    · exact h
  case powerOnResetEnd =>
    simp only [rowEffect, supplyBack]
    repeat' split
    · exact finishReset_settingsLaw (h.of_kept (by simp [KeepsMotionSettings, KeepsPowerSettings]))
    · exact h
    · exact h.of_kept (by simp only [riseToWarn]; split <;> simp [KeepsMotionSettings, KeepsPowerSettings])
    · exact h
  case rstnLow =>
    simp only [rowEffect, lineFalls]
    split
    · exact h
    · exact (beginReset_settingsLaw .line h).of_kept (by simp [KeepsMotionSettings, KeepsPowerSettings])
  case rstnHigh =>
    simp only [rowEffect, lineRises]
    split
    · exact finishReset_settingsLaw (h.of_kept (by simp [KeepsMotionSettings, KeepsPowerSettings]))
    · exact h
  case resetWaitExpiry =>
    simp only [rowEffect, waitExpiry]
    repeat' split
    · exact h
    · exact requestReset_settingsLaw h
    · exact h
  case checkpoint => exact stepThat_keeps h (h.of_kept (by simp [KeepsMotionSettings, KeepsPowerSettings]))
  case bringUpDone | formatHeaderDone | scanReadDone | blockWriteDone | headerUpdateDone | openingHeaderDone |
      closedHeaderDone | hostReadDone | railBelowWarn | railRecover | railBelowRecover =>
    simp only [rowEffect]
    (repeat' split) <;> exact h.of_kept (by simp [KeepsMotionSettings, KeepsPowerSettings])
  case sensorReadDone | rearmHoldExpiry | impactParkExpiry | fsyncEdge | cropSample | frameGetTimeout | pwmPeriodStart |
      ocComparatorChange | retryDelayExpiry | cardAttemptFailed | cardAttemptTimeout | unitWriteDone |
      motionReadTimeout | cdetChange | cardInserted | cardRemoved | rideThroughExpiry | emergencyWriteDone |
      emergencyWriteFailed | stableTimeReached | quietTimerExpiry | windowTimerExpiry =>
    exact h.of_kept (by simp [KeepsMotionSettings, KeepsPowerSettings, rowEffect, periodStart])
  all_goals exact runRequest_settingsLaw _ h

/-- The first law of O58: every step keeps every setting in its range. -/
theorem step_settingsLaw {s t : State} (hs : SettingsLaw s) (h : step s = .next t) : SettingsLaw t :=
  step_keeps (fun _ _ h => h) (fun _ h => h.of_kept (by simp [refuse, KeepsMotionSettings, KeepsPowerSettings]))
    (fun i _ _ h => rowEffect_settingsLaw i h) hs h

end Sys2Proof.Machine
end

section
/-! No buffer, ring, list or history outgrows its size (R35, R74, R81, R90). -/

namespace Sys2Proof.Machine

set_option linter.unnecessarySeqFocus false
set_option linter.unusedTactic false
set_option linter.unreachableTactic false

/-! ## The clip buffer -/

/-- The clip buffer within its sizes (R81, R90). -/
def Buffered (c : Cbf) : Prop := fillOf c.segs ≤ ringBytes ∧ c.pend.length ≤ 128

theorem Buffered.mono {c d : Cbf} (h : Buffered c) (hs : fillOf d.segs ≤ fillOf c.segs)
    (hp : d.pend.length ≤ c.pend.length) : Buffered d := ⟨hs.trans h.1, hp.trans h.2⟩

/-- Only the stream ring and the pending list count. -/
@[simp] theorem buffered_mk (segs : List Segment) (assigned : Nat) (admitted : List Admitted) (pend : List MotionRec) :
    Buffered ⟨segs, assigned, admitted, pend⟩ ↔ fillOf segs ≤ ringBytes ∧ pend.length ≤ 128 := Iff.rfl

@[simp] theorem buffered_reset : Buffered Cbf.reset := ⟨by decide, by decide⟩

theorem fillOf_filter_le (p : Segment → Bool) : ∀ segs, fillOf (segs.filter p) ≤ fillOf segs
  | [] => le_refl _
  | g :: rest => by
      have := fillOf_filter_le p rest
      simp only [List.filter_cons, fillOf]
      split
      · simp only [fillOf]; omega
      · omega

theorem fillOf_dropBytes_le (n : Nat) : ∀ segs, fillOf (dropBytes n segs) ≤ fillOf segs
  | [] => le_refl _
  | g :: rest => by
      simp only [dropBytes, fillOf]
      split
      · omega
      · simp only [fillOf, List.length_drop]; omega

/-- R84: appending adds the bytes' number. -/
theorem fillOf_appendSeg (slot : Nat) (bytes : List Byte) :
    ∀ segs, fillOf (appendSeg slot bytes segs) = fillOf segs + bytes.length
  | [] => by
      simp only [appendSeg]
      split
      · next h => simp [h, fillOf]
      · simp [fillOf]
  | g :: rest => by
      have := fillOf_appendSeg slot bytes rest
      simp only [appendSeg]
      split
      · simp [fillOf]; omega
      · simp [fillOf]; omega

@[simp] theorem unitWritten_buffered (slot real : Nat) (s : State) (h : Buffered s.cbf) :
    Buffered (unitWritten slot real s).cbf := by
  simp only [unitWritten, modEntry_frame]
  exact h.mono (fillOf_dropBytes_le _ _) (le_refl _)

@[simp] theorem blockWritten_buffered (slot real : Nat) (s : State) (h : Buffered s.cbf) :
    Buffered (blockWritten slot real s).cbf := by
  simp only [blockWritten, modEntry_frame]
  exact h.mono (le_refl _) (by simp)

@[simp] theorem loseSegment_buffered (slot : Nat) (s : State) (h : Buffered s.cbf) :
    Buffered (loseSegment slot s).cbf := by
  simp only [loseSegment, addLost_frame]
  exact h.mono (fillOf_filter_le _ _) (le_refl _)

@[simp] theorem loseRecords_buffered (slot : Nat) (s : State) (h : Buffered s.cbf) :
    Buffered (loseRecords slot s).cbf := by
  simp only [loseRecords, modEntry_frame]
  exact h.mono (le_refl _) (List.length_filter_le _ _)

@[simp] theorem openTheSlot_buffered (i q recId : Nat) (s : State) (h : Buffered s.cbf) :
    Buffered (openTheSlot i q recId s).cbf := by
  simp only [openTheSlot, resetEntry_frame]
  exact h

@[simp] theorem startRecording_buffered (i q : Nat) (s : State) (h : Buffered s.cbf) :
    Buffered (startRecording i q s).cbf := by
  simp only [startRecording, setWriter_frame]
  exact openTheSlot_buffered _ _ _ _ h

/-- R90: a record is admitted only below 128 pending. -/
@[simp] theorem intake_buffered (r : FrameRecord) (s : State) (h : Buffered s.cbf) : Buffered (intake r s).cbf := by
  simp only [intake]
  repeat' split
  · exact h
  · simpa [dropRecord] using h
  · next i _ hn =>
    refine ⟨?_, ?_⟩
    · simp only [admitRecord]
      split <;> simpa using h.1
    · simp only [admitRecord]
      split <;> simp <;> omega
  · exact h

/-- R84: assigned bytes fill the ring by their number. -/
theorem assign_fill (i : Nat) (bytes : List Byte) (s : State) :
    fillOf (assign i bytes s).cbf.segs = fillOf s.cbf.segs + bytes.length ∧
      (assign i bytes s).cbf.pend = s.cbf.pend := by
  simp [assign, fillOf_appendSeg]

/-- R85: a crossing fills the ring by no more than the payload's remainder. -/
theorem crossing_fill (i : Nat) (rest : List Byte) (s : State) :
    fillOf (crossing i rest s).1.cbf.segs ≤ fillOf s.cbf.segs + rest.length ∧
      (crossing i rest s).1.cbf.pend = s.cbf.pend := by
  simp only [crossing]
  split
  · simp [crossTo, assign_fill, openTheSlot]
  · simp [crossNowhere]

/-- R83, R84: an accepted payload fits in the free space, whether it crosses a slot's end or not. -/
theorem acceptData_buffered (i : Nat) (bytes : List Byte) (s : State) (h : Buffered s.cbf)
    (hb : bytes.length ≤ freeSpace s.cbf) : Buffered (acceptData i bytes s).1.cbf := by
  obtain ⟨hfill, hpend⟩ := h
  have hfree : fillOf s.cbf.segs + bytes.length ≤ ringBytes := by
    simp only [freeSpace] at hb
    omega
  generalize hroom : slotCapacity s - s.cbf.assigned = room
  have hsplit : (bytes.take room).length + (bytes.drop room).length = bytes.length := by
    rw [← List.length_append, List.take_append_drop]
  obtain ⟨ha, hp⟩ := assign_fill i (bytes.take room) s
  simp only [acceptData, hroom]
  split
  · obtain ⟨hc, hq⟩ := crossing_fill i (bytes.drop room) (assign i (bytes.take room) s)
    refine ⟨?_, by rw [hq, hp]; exact hpend⟩
    dsimp only
    omega
  · refine ⟨?_, by rw [hp]; exact hpend⟩
    dsimp only
    omega

@[simp] theorem discardBuffer_buffered (s : State) : Buffered (discardBuffer s).cbf := by
  simp [discardBuffer]

@[simp] theorem giveUpCard_buffered (w : Writer) (s : State) :
    Buffered (giveUpCard w s).cbf := by
  simp [giveUpCard]

@[simp] theorem writerFault_buffered (slot addr : Nat) (kind : WriteKind) (s : State) :
    Buffered (writerFault slot addr kind s).cbf := by
  simp [writerFault]

@[simp] theorem finishUnmount_buffered (s : State) (h : Buffered s.cbf) : Buffered (finishUnmount s).cbf := by
  simp only [finishUnmount]; (repeat' split) <;> simp [h]

@[simp] theorem commitSlot_buffered (i : Nat) (reason : CloseReason) (spent : Nat) (unsaved : List Nat) (s : State) (h : Buffered s.cbf) :
    Buffered (commitSlot i reason spent unsaved s).cbf := by
  simp only [commitSlot]; (repeat' split) <;> simp [h]

@[simp] theorem closeMotion_buffered (c : EmergencyClose) (k : Nat) (s : State) (h : Buffered s.cbf) :
    Buffered (closeMotion c k s).cbf := by
  simp only [closeMotion]; (repeat' split) <;> simp [h]

@[simp] theorem closeStream_buffered (c : EmergencyClose) (k : Nat) (s : State) (h : Buffered s.cbf) :
    Buffered (closeStream c k s).cbf := by
  simp only [closeStream]; (repeat' split) <;> simp [h]

@[simp] theorem closeSlots_buffered (c : EmergencyClose) (s : State) (h : Buffered s.cbf) :
    Buffered (closeSlots c s).cbf := by
  simp only [closeSlots]; (repeat' split) <;> simp [h]

@[simp] theorem closeUpdates_buffered (c : EmergencyClose) (s : State) (h : Buffered s.cbf) :
    Buffered (closeUpdates c s).cbf := by
  simp only [closeUpdates]; (repeat' split) <;> simp [h]

@[simp] theorem closeAdvance_buffered (s : State) (h : Buffered s.cbf) : Buffered (closeAdvance s).cbf := by
  simp only [closeAdvance]; (repeat' split) <;> simp [h]

@[simp] theorem settle_buffered (s : State) (h : Buffered s.cbf) : Buffered (settle s).cbf := by
  simp only [settle]; (repeat' split) <;> simp [h]

@[simp] theorem recStartWith_buffered (tag : Byte) (i q : Nat) (s : State) (h : Buffered s.cbf) :
    Buffered (recStartWith tag i q s).cbf := by
  simp only [recStartWith]; (repeat' split) <;> simp [h]

@[simp] theorem beginRead_buffered (tag : Byte) (i k number : Nat) (s : State) (h : Buffered s.cbf) :
    Buffered (beginRead tag i k number s).cbf := by
  simp only [beginRead]; (repeat' split) <;> simp [h]

@[simp] theorem readStart_buffered (tag : Byte) (i count : Nat) (e : Entry) (s : State) (h : Buffered s.cbf) :
    Buffered (readStart tag i count e s).cbf := by
  simp only [readStart]; (repeat' split) <;> simp [h]

@[simp] theorem readContinue_buffered (tag : Byte) (i count : Nat) (e : Entry) (s : State) (h : Buffered s.cbf) :
    Buffered (readContinue tag i count e s).cbf := by
  simp only [readContinue]; (repeat' split) <;> simp [h]

@[simp] theorem mountFailed_buffered (cause : CardCause) (s : State) : Buffered (mountFailed cause s).cbf := by
  simp [mountFailed]

@[simp] theorem completeMount_buffered (conflicts : Nat) (s : State) (h : Buffered s.cbf) :
    Buffered (completeMount conflicts s).cbf := by
  simp only [completeMount]; (repeat' split) <;> simp [h]

@[simp] theorem completeScan_buffered (s : State) (h : Buffered s.cbf) : Buffered (completeScan s).cbf := by
  simp only [completeScan]; (repeat' split) <;> simp [h]

@[simp] theorem completeFormat_buffered (s : State) (h : Buffered s.cbf) : Buffered (completeFormat s).cbf := by
  simp only [completeFormat]; (repeat' split) <;> simp [h]

@[simp] theorem mountStep_buffered (i : Nat) (s : State) (h : Buffered s.cbf) : Buffered (mountStep i s).cbf := by
  simp only [mountStep]; (repeat' split) <;> simp [h]

@[simp] theorem mountEntry_buffered (i : Nat) (e : Entry) (s : State) (h : Buffered s.cbf) :
    Buffered (mountEntry i e s).cbf := by
  simp only [mountEntry]; (repeat' split) <;> simp [h]

@[simp] theorem broughtUp_buffered (capacity : Nat) (s : State) (h : Buffered s.cbf) :
    Buffered (broughtUp capacity s).cbf := by
  simp only [broughtUp]; (repeat' split) <;> simp [h]

@[simp] theorem unitDone_buffered (i n : Nat) (s : State) (h : Buffered s.cbf) :
    Buffered (unitDone i n s).cbf := by
  simp only [unitDone]; (repeat' split) <;> simp [h]

@[simp] theorem blockDone_buffered (i n : Nat) (s : State) (h : Buffered s.cbf) :
    Buffered (blockDone i n s).cbf := by
  simp only [blockDone]; (repeat' split) <;> simp [h]

@[simp] theorem openingDone_buffered (i : Nat) (s : State) (h : Buffered s.cbf) :
    Buffered (openingDone i s).cbf := by
  simp only [openingDone]; (repeat' split) <;> simp [h]

@[simp] theorem closedDone_buffered (i : Nat) (reason : CloseReason) (s : State) (h : Buffered s.cbf) :
    Buffered (closedDone i reason s).cbf := by
  simp only [closedDone]; (repeat' split) <;> simp [h]

@[simp] theorem emClosedDone_buffered (i : Nat) (s : State) (h : Buffered s.cbf) :
    Buffered (emClosedDone i s).cbf := by
  simp only [emClosedDone]; (repeat' split) <;> simp [h]

@[simp] theorem emDone_buffered (s : State) (h : Buffered s.cbf) : Buffered (emDone s).cbf := by
  simp only [emDone]; (repeat' split) <;> simp [h]

@[simp] theorem emUpdateFailed_buffered (i : Nat) (s : State) (h : Buffered s.cbf) :
    Buffered (emUpdateFailed i s).cbf := by
  simp only [emUpdateFailed]; (repeat' split) <;> simp [h]

@[simp] theorem emWriteFailed_buffered (s : State) (h : Buffered s.cbf) : Buffered (emWriteFailed s).cbf := by
  simp only [emWriteFailed]; (repeat' split) <;> simp [h]

@[simp] theorem transferFailed_buffered (t : Transfer) (s : State) (h : Buffered s.cbf) :
    Buffered (transferFailed t s).cbf := by
  simp only [transferFailed]; (repeat' split) <;> simp [h]

@[simp] theorem attemptFailed_buffered (s : State) (h : Buffered s.cbf) : Buffered (attemptFailed s).cbf := by
  simp only [attemptFailed]; (repeat' split) <;> simp [h]

@[simp] theorem attemptTimeout_buffered (s : State) (h : Buffered s.cbf) : Buffered (attemptTimeout s).cbf := by
  simp only [attemptTimeout]; (repeat' split) <;> simp [h]

@[simp] theorem emFailed_buffered (s : State) (h : Buffered s.cbf) : Buffered (emFailed s).cbf := by
  simp only [emFailed]; (repeat' split) <;> simp [h]

@[simp] theorem readDone_buffered (wanted : Bool) (blocks : List Byte) (s : State) (h : Buffered s.cbf) :
    Buffered (readDone wanted blocks s).cbf := by
  simp only [readDone]; (repeat' split) <;> simp [h]

@[simp] theorem removed_buffered (s : State) (h : Buffered s.cbf) : Buffered (removed s).cbf := by
  simp only [removed]; (repeat' split) <;> simp [h]

@[simp] theorem unitCompletion_buffered (s : State) (h : Buffered s.cbf) : Buffered (unitCompletion s).cbf := by
  simp only [unitCompletion]; (repeat' split) <;> simp [h]

@[simp] theorem produce_buffered (r : FrameRecord) (s : State) (h : Buffered s.cbf) :
    Buffered (produce r s).cbf := by
  simp only [produce]; (repeat' split) <;> simp [h]

@[simp] theorem takeSample_buffered (n : Word) (s : State) (h : Buffered s.cbf) :
    Buffered (takeSample n s).cbf := by
  simp only [takeSample]; (repeat' split) <;> simp [h]

@[simp] theorem forceSample_buffered (s : State) (h : Buffered s.cbf) : Buffered (forceSample s).cbf := by
  simp only [forceSample]; (repeat' split) <;> simp [h]

@[simp] theorem countFrame_buffered (s : State) (h : Buffered s.cbf) : Buffered (countFrame s).cbf := by
  simp only [countFrame]; (repeat' split) <;> simp [h]

@[simp] theorem fsyncStep_buffered (s : State) (h : Buffered s.cbf) : Buffered (fsyncStep s).cbf := by
  simp only [fsyncStep]; (repeat' split) <;> simp [h]

@[simp] theorem cropStep_buffered (s : State) (h : Buffered s.cbf) : Buffered (cropStep s).cbf := by
  simp only [cropStep]; (repeat' split) <;> simp [h]

@[simp] theorem impact_buffered (s : State) (h : Buffered s.cbf) : Buffered (impact s).cbf := by
  simp only [impact]; (repeat' split) <;> simp [h]

@[simp] theorem tickWork_buffered (s : State) (h : Buffered s.cbf) : Buffered (tickWork s).cbf := by
  simp only [tickWork]; (repeat' split) <;> simp [h]

@[simp] theorem tickStep_buffered (s : State) (h : Buffered s.cbf) : Buffered (tickStep s).cbf := by
  simp only [tickStep]; (repeat' split) <;> simp [h]

@[simp] theorem rideExpiry_buffered (s : State) (h : Buffered s.cbf) : Buffered (rideExpiry s).cbf := by
  simp only [rideExpiry]; (repeat' split) <;> simp [h]

@[simp] theorem tripGuard_buffered (cause : Trip) (s : State) (h : Buffered s.cbf) :
    Buffered (tripGuard cause s).cbf := by
  simp only [tripGuard]; (repeat' split) <;> simp [h]

@[simp] theorem checkIn_buffered (s : State) (h : Buffered s.cbf) : Buffered (checkIn s).cbf := by
  simp only [checkIn]; (repeat' split) <;> simp [h]

@[simp] theorem windowExpiry_buffered (s : State) (h : Buffered s.cbf) : Buffered (windowExpiry s).cbf := by
  simp only [windowExpiry]; (repeat' split) <;> simp [h]

@[simp] theorem checkinReq_buffered (tag : Byte) (s : State) (h : Buffered s.cbf) :
    Buffered (checkinReq tag s).cbf := by
  simp only [checkinReq]; (repeat' split) <;> simp [h]

@[simp] theorem unmountReq_buffered (tag : Byte) (s : State) (h : Buffered s.cbf) :
    Buffered (unmountReq tag s).cbf := by
  simp only [unmountReq]; (repeat' split) <;> simp [h]

@[simp] theorem recStartReq_buffered (tag : Byte) (s : State) (h : Buffered s.cbf) :
    Buffered (recStartReq tag s).cbf := by
  simp only [recStartReq]; (repeat' split) <;> simp [h]

@[simp] theorem recStopReq_buffered (tag : Byte) (s : State) (h : Buffered s.cbf) :
    Buffered (recStopReq tag s).cbf := by
  simp only [recStopReq]; (repeat' split) <;> simp [h]

/-- R83: only a payload that fits is accepted. -/
@[simp] theorem dataReq_buffered (tag : Byte) (bytes : List Byte) (s : State) (h : Buffered s.cbf) :
    Buffered (dataReq tag bytes s).cbf := by
  simp only [dataReq]
  repeat' split
  · exact h
  · simpa using h
  · next i _ hfit =>
    simp only [dataFits, Bool.and_eq_true, decide_eq_true_eq] at hfit
    exact settle_buffered _ (by simpa using acceptData_buffered i bytes s h hfit.1)
  · simpa using h
  · simpa using h

@[simp] theorem slotLockReq_buffered (code tag : Byte) (on : Bool) (slot : Half) (kind : Byte) (s : State) (h : Buffered s.cbf) :
    Buffered (slotLockReq code tag on slot kind s).cbf := by
  simp only [slotLockReq]; (repeat' split) <;> simp [h]

@[simp] theorem motionReadReq_buffered (tag : Byte) (slot : Half) (mode count : Byte) (s : State) (h : Buffered s.cbf) :
    Buffered (motionReadReq tag slot mode count s).cbf := by
  simp only [motionReadReq]; (repeat' split) <;> simp [h]

/-! ## The frame records and the measurements -/

/-- R35: the ring holds sixteen records. -/
theorem pushRing_length (ring : List FrameRecord) (r : FrameRecord) : (pushRing ring r).length ≤ 16 := by
  simp only [pushRing, List.length_drop]
  omega

/-- R72: a history holds eight values. -/
theorem pushHist_length (hist : List Int) (z : Int) : (pushHist hist z).length ≤ 8 := by
  simp only [pushHist, List.length_drop]
  omega

@[simp] theorem enterValue_length (i : Input) (z : Int) : (enterValue i z).hist.length ≤ 8 := pushHist_length _ _

@[simp] theorem produce_ring (r : FrameRecord) (s : State) : (produce r s).csu.ring = pushRing s.csu.ring r := by
  simp [produce]

theorem takeSample_ring (n : Word) (s : State) : (takeSample n s).csu.ring.length ≤ 16 := by
  simpa [takeSample] using pushRing_length _ _

theorem forceSample_ring {s : State} (h : s.csu.ring.length ≤ 16) : (forceSample s).csu.ring.length ≤ 16 := by
  simp only [forceSample]
  split
  · exact h
  · exact takeSample_ring _ _

theorem countFrame_ring {s : State} (h : s.csu.ring.length ≤ 16) : (countFrame s).csu.ring.length ≤ 16 := by
  simp only [countFrame]
  repeat' split
  · exact h
  · exact takeSample_ring _ _
  · exact h

theorem fsyncStep_ring {s : State} (h : s.csu.ring.length ≤ 16) : (fsyncStep s).csu.ring.length ≤ 16 :=
  countFrame_ring (by simpa using forceSample_ring h)

theorem cropStep_ring {s : State} (h : s.csu.ring.length ≤ 16) : (cropStep s).csu.ring.length ≤ 16 := by
  simp only [cropStep]
  repeat' split
  · exact h
  · exact takeSample_ring _ _
  · exact h

/-- No input's history holds more than eight values (R74). -/
def Measured (c : Scn) : Prop :=
  c.vIn.hist.length ≤ 8 ∧ c.vAlt.hist.length ≤ 8 ∧ c.vBat.hist.length ≤ 8 ∧ c.iBat.hist.length ≤ 8 ∧
    c.vSys.hist.length ≤ 8 ∧ c.iSys.hist.length ≤ 8 ∧ c.tBat.hist.length ≤ 8 ∧ c.tDie.hist.length ≤ 8

theorem exchange_measured (sel : Option Src) {c : Scn} (h : Measured c) : Measured (exchange sel c) := by
  obtain ⟨h1, h2, h⟩ := h
  simp only [exchange]
  split
  · exact ⟨h1, h2, h⟩
  · exact ⟨h2, h1, h⟩

theorem batteryReading_measured (r : Reading) {c : Scn} (h : Measured c) : Measured (batteryReading r c) := by
  obtain ⟨h1, h2, h3, h4, h5, h6, h7, h8⟩ := h
  simp only [batteryReading, batteryGone, batteryCome]
  repeat' split
  all_goals exact ⟨h1, h2, h3, h4, h5, h6, by simp [h7, Input.empty], h8⟩

theorem convertTDie_measured (r : Reading) {s : State} (h : Measured s.scn) : Measured (convertTDie r s).scn := by
  obtain ⟨h1, h2, h3, h4, h5, h6, h7, -⟩ := h
  simp only [convertTDie, roundEnd]
  refine exchange_measured _ ?_
  simpa [dieReading] using ⟨h1, h2, h3, h4, h5, h6, h7, enterValue_length _ _⟩

theorem scanStep_measured (r : Reading) {s : State} (h : Measured s.scn) : Measured (scanStep r s).scn := by
  have hc : Measured (convert r s).scn := by
    obtain ⟨h1, h2, h3, h4, h5, h6, h7, h8⟩ := h
    simp only [convert]
    split
    · simp only [convertVIn, noteSource]
      split <;> exact ⟨enterValue_length _ _, h2, h3, h4, h5, h6, h7, h8⟩
    · simp only [convertVAlt, noteSource]
      split <;> exact ⟨h1, enterValue_length _ _, h3, h4, h5, h6, h7, h8⟩
    · exact ⟨h1, h2, enterValue_length _ _, h4, h5, h6, h7, h8⟩
    · exact ⟨h1, h2, h3, enterValue_length _ _, h5, h6, h7, h8⟩
    · exact ⟨h1, h2, h3, h4, enterValue_length _ _, h6, h7, h8⟩
    · exact ⟨h1, h2, h3, h4, h5, enterValue_length _ _, h7, h8⟩
    · simpa [convertTBat] using batteryReading_measured r ⟨h1, h2, h3, h4, h5, h6, h7, h8⟩
    · exact convertTDie_measured r ⟨h1, h2, h3, h4, h5, h6, h7, h8⟩
  exact hc

/-! ## The law -/

theorem sizeLaw_iff (s : State) : SizeLaw s ↔ Buffered s.cbf ∧ s.csu.ring.length ≤ 16 ∧ Measured s.scn := by
  simp only [SizeLaw, Buffered, Measured, and_assoc]

/-- A state whose frame ring and measurements are those of one that obeys the law, with its buffer in size, obeys it. -/
theorem SizeLaw.of_buffered {s t : State} (h : SizeLaw s)
    (k : Buffered t.cbf ∧ t.csu.ring = s.csu.ring ∧ t.scn = s.scn) : SizeLaw t := by
  obtain ⟨-, hr, hm⟩ := (sizeLaw_iff s).mp h
  obtain ⟨kb, kr, km⟩ := k
  exact (sizeLaw_iff t).mpr ⟨kb, kr ▸ hr, km ▸ hm⟩

theorem sizeLaw_powerOn (s : State) : SizeLaw (powerOnState s) := by
  simp [SizeLaw, powerOnState, State.reset, Cbf.reset, fillOf, Csu.reset, Scn.reset, Input.empty]

theorem sizeLaw_warm (s : State) : SizeLaw (warmState s) := by
  simp [SizeLaw, warmState, State.reset, Cbf.reset, fillOf, Csu.reset, scanAfter, Scn.reset, Input.empty]

theorem beginReset_sizeLaw (c : ResetCause) {s : State} (h : SizeLaw s) : SizeLaw (beginReset c s) := by
  simp only [beginReset]
  split
  · exact h
  · exact h

theorem finishReset_sizeLaw {s : State} (h : SizeLaw s) : SizeLaw (finishReset s) := by
  simp only [finishReset, rideAtStart]
  (repeat' split)
  · exact (sizeLaw_powerOn s).of_buffered (by simp [powerOnState, State.reset])
  · exact sizeLaw_powerOn s
  · exact sizeLaw_warm s
  · exact h

theorem requestReset_sizeLaw {s : State} (h : SizeLaw s) : SizeLaw (requestReset s) :=
  finishReset_sizeLaw (beginReset_sizeLaw _ h)

theorem runRequest_sizeLaw (i : Instr) {s : State} (h : SizeLaw s) : SizeLaw (runRequest i s) := by
  have hb := ((sizeLaw_iff s).mp h).1
  cases i
  all_goals exact h.of_buffered (by simp [runRequest, hb])

theorem takeFrame_sizeLaw (bytes : List Byte) {s : State} (h : SizeLaw s) : SizeLaw (takeFrame bytes s) := by
  have hb := ((sizeLaw_iff s).mp h).1
  simp only [takeFrame, errorReply]
  split
  · exact runRequest_sizeLaw _ h
  all_goals exact h.of_buffered (by simp [hb])

theorem readTransaction_sizeLaw (n : Nat) {s : State} (h : SizeLaw s) : SizeLaw (readTransaction n s) := by
  have hb := ((sizeLaw_iff s).mp h).1
  have hl : SizeLaw { s with lnk := linkAfterRead n s.lnk } := h.of_buffered (by simp [hb])
  simp only [readTransaction]
  split
  · exact requestReset_sizeLaw hl
  · exact hl

theorem rowEffect_sizeLaw (i : Instr) {s : State} (h : SizeLaw s) : SizeLaw (rowEffect i s) := by
  obtain ⟨hb, hr, hm⟩ := (sizeLaw_iff s).mp h
  have ht : SizeLaw (tickStep s) := h.of_buffered (by simp [hb])
  have hscan (r : Reading) : SizeLaw (scanStep r s) :=
    (sizeLaw_iff _).mpr ⟨by simp [hb], by simpa using hr, scanStep_measured r hm⟩
  cases i
  case tick => exact ht
  case sensorLost | sensorRestored | biasLearned | impactQualify => exact stepThat_keeps h ht
  case scanConversion => exact hscan _
  case batteryAbsent | batteryPresent | sourcePresent | sourceLost | iEffRaise | chargeDone =>
    exact stepThat_keeps h (hscan _)
  case fsyncEdge => exact (sizeLaw_iff _).mpr ⟨by simp [rowEffect, hb], fsyncStep_ring hr, by simpa [rowEffect] using hm⟩
  case cropSample => exact (sizeLaw_iff _).mpr ⟨by simp [rowEffect, hb], cropStep_ring hr, by simpa [rowEffect] using hm⟩
  case readTransaction => exact readTransaction_sizeLaw _ h
  case writeTransaction =>
    simp only [rowEffect]
    repeat' split
    · exact h
    · exact readTransaction_sizeLaw _ h
    · exact takeFrame_sizeLaw _ h
  case brownout =>
    simp only [rowEffect, brownout]
    split
    · exact h
    · exact beginReset_sizeLaw .brownout h
  case railBelowPowerOnLevel =>
    simp only [rowEffect, belowPowerOnLevel]
    split
    · exact beginReset_sizeLaw .powerOn h
    · exact h
  case powerOnResetEnd =>
    simp only [rowEffect, supplyBack]
    repeat' split
    · exact finishReset_sizeLaw h
    · exact h
    · exact h.of_buffered (by simp only [riseToWarn]; split <;> simp [hb])
    · exact h
  case rstnLow =>
    simp only [rowEffect, lineFalls]
    split
    · exact h
    · exact beginReset_sizeLaw .line h
  case rstnHigh =>
    simp only [rowEffect, lineRises]
    split
    · exact finishReset_sizeLaw h
    · exact h
  case resetWaitExpiry =>
    simp only [rowEffect, waitExpiry]
    repeat' split
    · exact h
    · exact requestReset_sizeLaw h
    · exact h
  case checkpoint => exact stepThat_keeps h (h.of_buffered (by simp [hb]))
  case bringUpDone | formatHeaderDone | scanReadDone | blockWriteDone | headerUpdateDone | openingHeaderDone |
      closedHeaderDone | hostReadDone | railBelowWarn | railRecover | railBelowRecover =>
    simp only [rowEffect]
    (repeat' split) <;> exact h.of_buffered (by simp [hb])
  case sensorReadDone | rearmHoldExpiry | impactParkExpiry | frameGetTimeout | pwmPeriodStart | ocComparatorChange |
      overcurrentFault | retryDelayExpiry | cleanRunExpiry | cardAttemptFailed | cardAttemptTimeout | unitWriteDone |
      motionReadTimeout | cdetChange | cardInserted | cardRemoved | rideThroughExpiry | emergencyWriteDone |
      emergencyWriteFailed | stableTimeReached | quietTimerExpiry | windowTimerExpiry =>
    exact h.of_buffered (by simp [hb, rowEffect])
  all_goals exact runRequest_sizeLaw _ h

/-- The second law of O58: every step keeps every buffer, ring and history in its size. -/
theorem step_sizeLaw {s t : State} (hs : SizeLaw s) (h : step s = .next t) : SizeLaw t :=
  step_keeps (fun _ _ h => h) (fun _ h => h) (fun i _ _ h => rowEffect_sizeLaw i h) hs h

end Sys2Proof.Machine
end

section
/-! The slots as the directory's laws see them: each one's state and sequence, the writer, and the transfer under way. -/

namespace Sys2Proof.Machine

/-! ## The view -/

/-- Each slot's state and sequence. -/
def keysOf (es : List Entry) : List (SlotState × Option Nat) := es.map fun e => (e.st, e.sequence)

/-- A transfer whose purpose says something of the slots or of the writer. -/
def bound : Xfer → Bool
  | .streamUnit _ _ => false
  | .motionBlock _ _ => false
  | .hostRead _ => false
  | _ => true

/-- The purpose of the transfer under way, where it says something of the slots or of the writer. -/
def workOf (p : Option Transfer) : Option Xfer := (p.map Transfer.op).filter bound

/-- What the fourth and the seventh law and the transfers' fit read of a state. -/
structure Slots where
  keys : List (SlotState × Option Nat)
  writer : Writer
  work : Option Xfer
  nextSeq : Option Nat
  geo : Option Geometry
  asleep : Bool
  todo : Option (List Nat)

def slotsOf (s : State) : Slots where
  keys := keysOf s.sdr.entries
  writer := s.cwr.writer
  work := workOf s.cwr.port
  nextSeq := s.sdr.nextSeq
  geo := s.sdr.geo
  asleep := s.rst.active
  todo := s.ssv.close.map EmergencyClose.todo

namespace Slots

/-- Slot `i` is in state `st`. -/
def isIn (v : Slots) (st : SlotState) (i : Nat) : Prop := (v.keys[i]?).map Prod.fst = some st

/-- The sequence of slot `i`. -/
def sequence (v : Slots) (i : Nat) : Option Nat := (v.keys[i]?).bind Prod.snd

/-- The first slot in state `st`. -/
def slot (v : Slots) (st : SlotState) : Option Nat := v.keys.findIdx? fun k => k.1 == st

/-- A transfer for the purpose `x` fits the slots and the writer. -/
def Fits (v : Slots) : Xfer → Prop
  | .identify => v.writer = .mounting ∧ v.keys = []
  | .formatHeader i =>
      v.writer = .mounting ∧ i = v.keys.length ∧ ∃ g, v.geo = some g ∧ i < g.slotCount ∧ g.format = true
  | .scanRead i =>
      v.writer = .mounting ∧ i = v.keys.length ∧ ∃ g, v.geo = some g ∧ i < g.slotCount ∧ g.format = false
  | .headerUpdate i => i < v.keys.length
  | .openingHeader i => v.slot .closing = some i ∨ (v.slot .opened = some i ∧ v.slot .closing = none)
  | .closedHeader i _ => v.slot .closing = some i
  | .streamUnit _ _ => True
  | .motionBlock _ _ => True
  | .hostRead _ => True
  | .emUpdate i => v.writer = .emergencyClose ∧ i < v.keys.length
  | .emUnit _ _ => v.writer = .emergencyClose
  | .emBlock _ _ => v.writer = .emergencyClose
  | .emClosed i => v.writer = .emergencyClose ∧ v.slot .closing = some i

end Slots

/-- The fourth and the seventh law and the transfers' fit, slot by slot. -/
structure SlotsCore (v : Slots) : Prop where
  oneOpen : ∀ i j, v.isIn .opened i → v.isIn .opened j → i = j
  oneClosing : ∀ i j, v.isIn .closing i → v.isIn .closing j → i = j
  openWriter : ∀ i, v.isIn .opened i → v.writer = .recording ∨ v.writer = .rolling ∨ v.writer = .emergencyClose
  closingWriter : ∀ i, v.isIn .closing i → v.writer = .stopping ∨ v.writer = .rolling ∨ v.writer = .emergencyClose
  bothWriter : ∀ i, v.isIn .opened i → ∀ j, v.isIn .closing j → v.writer = .rolling ∨ v.writer = .emergencyClose
  unnumbered : ∀ i, v.sequence i = none ↔ ∀ st, v.isIn st i → st = .free ∨ st = .bad
  distinct : directoryUp v.writer = true → ∀ i j q, v.sequence i = some q → v.sequence j = some q → i = j
  below : directoryUp v.writer = true → ∀ n, v.nextSeq = some n → ∀ i q, v.sequence i = some q → q < n
  newest : directoryUp v.writer = true → ∀ i p, v.isIn .opened i → v.sequence i = some p →
    ∀ j q, v.sequence j = some q → q ≤ p
  fewSlots : ∀ g, v.geo = some g → g.slotCount ≤ 256
  formatting : v.writer = .mounting → ∀ g, v.geo = some g → g.format = true → ∀ i, v.sequence i = none
  fits : ∀ x, v.work = some x → v.Fits x

/-- R173: an emergency close has the CLOSING slot to close and then the OPEN one, never an OPEN one alone. -/
def CloseInOrder (v : Slots) : Prop :=
  v.asleep = false → v.writer = .emergencyClose →
    (v.slot .closing = none → v.slot .opened = none) ∧
      v.todo = some ((v.slot .closing).toList ++ (v.slot .opened).toList)

structure SlotsLaw (v : Slots) : Prop where
  core : SlotsCore v
  close : CloseInOrder v

/-- The queue and the Queued fields in step (R113 to R115). -/
structure QueuedLaw (d : Sdr) : Prop where
  slots : d.entries.length ≤ 256
  nodup : d.queue.Nodup
  inRange : ∀ i ∈ d.queue, i < d.entries.length
  fields : ∀ i e, d.entries[i]? = some e → (e.queued = true ↔ i ∈ d.queue)

/-! ## The view and the model's own words -/

theorem keysOf_length (es : List Entry) : (keysOf es).length = es.length := by simp [keysOf]

theorem keysOf_getElem? (es : List Entry) (i : Nat) :
    (keysOf es)[i]? = (es[i]?).map fun e => (e.st, e.sequence) := by simp [keysOf]

/-- The first entry in a state is the first key in it. -/
theorem findState_keys (st : SlotState) :
    ∀ (es : List Entry) (k : Nat), findState st k es = ((keysOf es).findIdx? fun x => x.1 == st).map (· + k)
  | [], k => rfl
  | e :: rest, k => by
      have ih := findState_keys st rest (k + 1)
      by_cases h : e.st = st
      · simp [findState, keysOf, List.findIdx?_cons, h]
      · simp only [findState, h, if_false, ih]
        simp only [keysOf, List.map_cons, List.findIdx?_cons, beq_eq_false_iff_ne.mpr h, Bool.false_eq_true, if_false]
        cases List.findIdx? (fun x => x.1 == st) (List.map (fun e => (e.st, e.sequence)) rest) with
        | none => rfl
        | some j => simp only [Option.map_some, Option.some.injEq]; omega

theorem openSlot_view (s : State) : openSlot s = (slotsOf s).slot .opened := by
  simp [openSlot, findState_keys, Slots.slot, slotsOf]

theorem closingSlot_view (s : State) : closingSlot s = (slotsOf s).slot .closing := by
  simp [closingSlot, findState_keys, Slots.slot, slotsOf]

theorem isIn_view (s : State) (st : SlotState) (i : Nat) :
    (slotsOf s).isIn st i ↔ ∃ e, entryAt s i = some e ∧ e.st = st := by
  simp [Slots.isIn, slotsOf, keysOf_getElem?, entryAt]

theorem sequence_view (s : State) (i : Nat) : (slotsOf s).sequence i = (entryAt s i).bind Entry.sequence := by
  simp only [Slots.sequence, slotsOf, keysOf_getElem?, entryAt]
  cases s.sdr.entries[i]? <;> rfl

theorem fits_view (s : State) (x : Xfer) : TransferFits s x ↔ (slotsOf s).Fits x := by
  cases x <;> simp [TransferFits, Slots.Fits, openSlot_view, closingSlot_view, slotsOf, keysOf]

/-- A transfer whose purpose is not bound fits any state. -/
theorem fits_of_not_bound {v : Slots} {x : Xfer} (h : bound x = false) : v.Fits x := by
  cases x <;> trivial

/-! ## The first slot in a state -/

namespace Slots

theorem slot_isIn {v : Slots} {st : SlotState} {i : Nat} (h : v.slot st = some i) : v.isIn st i := by
  obtain ⟨hi, hst, -⟩ := List.findIdx?_eq_some_iff_getElem.mp h
  simp only [isIn, List.getElem?_eq_getElem hi, Option.map_some, Option.some.injEq]
  simpa using hst

theorem slot_none {v : Slots} {st : SlotState} : v.slot st = none ↔ ∀ i, ¬ v.isIn st i := by
  simp only [slot, List.findIdx?_eq_none_iff, isIn]
  constructor
  · intro h i hi
    cases hk : v.keys[i]? with
    | none => simp [hk] at hi
    | some k =>
        have := h k (List.mem_of_getElem? hk)
        simp_all
  · intro h k hk
    obtain ⟨i, hi⟩ := List.mem_iff_getElem?.mp hk
    have := h i
    simp_all

/-- Where at most one slot is in a state, the first one is that one. -/
theorem slot_eq_some {v : Slots} {st : SlotState} (h : ∀ i j, v.isIn st i → v.isIn st j → i = j) {i : Nat} :
    v.slot st = some i ↔ v.isIn st i := by
  refine ⟨slot_isIn, fun hi => ?_⟩
  cases hs : v.slot st with
  | none => exact absurd hi (slot_none.mp hs i)
  | some j => rw [h j i (slot_isIn hs) hi]

end Slots

end Sys2Proof.Machine
end

section
/-! The directory's laws, slot by slot. -/

namespace Sys2Proof.Machine

/-- At most one element of a list has `p` where two places with it are one. -/
theorem length_filter_le_one {α : Type} (p : α → Bool) :
    ∀ l : List α, (l.filter p).length ≤ 1 ↔
      ∀ (i j : Nat) (a b : α), l[i]? = some a → l[j]? = some b → p a = true → p b = true → i = j
  | [] => by simp
  | x :: l => by
      have ih := length_filter_le_one p l
      by_cases hx : p x = true
      · have hnil : (l.filter p).length = 0 ↔ ∀ (j : Nat) (b : α), l[j]? = some b → p b = true → False := by
          rw [List.length_eq_zero_iff, List.filter_eq_nil_iff]
          constructor
          · exact fun h j b hj hb => h b (List.mem_of_getElem? hj) hb
          · intro h b hm hb
            obtain ⟨j, hj⟩ := List.mem_iff_getElem?.mp hm
            exact h j b hj hb
        simp only [List.filter_cons, hx, if_true, List.length_cons]
        rw [show (l.filter p).length + 1 ≤ 1 ↔ (l.filter p).length = 0 by omega, hnil]
        constructor
        · intro h i j a b hi hj ha hb
          cases i with
          | zero =>
              cases j with
              | zero => rfl
              | succ j => exact (h j b (by simpa using hj) hb).elim
          | succ i => exact (h i a (by simpa using hi) ha).elim
        · intro h j b hj hb
          have := h 0 (j + 1) x b (by simp) (by simpa using hj) hx hb
          omega
      · simp only [List.filter_cons, hx, Bool.false_eq_true, if_false]
        rw [ih]
        constructor
        · intro h i j a b hi hj ha hb
          cases i with
          | zero => simp at hi; exact absurd (hi ▸ ha) hx
          | succ i =>
              cases j with
              | zero => simp at hj; exact absurd (hj ▸ hb) hx
              | succ j => rw [h i j a b (by simpa using hi) (by simpa using hj) ha hb]
        · intro h i j a b hi hj ha hb
          have := h (i + 1) (j + 1) a b (by simpa using hi) (by simpa using hj) ha hb
          omega

/-- R104: at most one slot in a state. -/
theorem countSlots_le_one (s : State) (st : SlotState) :
    countSlots st s.sdr.entries ≤ 1 ↔ ∀ i j, (slotsOf s).isIn st i → (slotsOf s).isIn st j → i = j := by
  simp only [countSlots, length_filter_le_one, isIn_view, entryAt, beq_iff_eq]
  constructor
  · rintro h i j ⟨a, hi, ha⟩ ⟨b, hj, hb⟩
    exact h i j a b hi hj ha hb
  · exact fun h i j a b hi hj ha hb => h i j ⟨a, hi, ha⟩ ⟨b, hj, hb⟩

/-- R107: the sequences are distinct. -/
theorem nodup_sequences (s : State) :
    (s.sdr.entries.filterMap Entry.sequence).Nodup ↔
      ∀ i j q, (slotsOf s).sequence i = some q → (slotsOf s).sequence j = some q → i = j := by
  rw [List.Nodup, List.pairwise_filterMap, List.pairwise_iff_getElem]
  simp only [sequence_view, entryAt]
  constructor
  · intro h i j q hi hj
    obtain ⟨a, ha, hqa⟩ := Option.bind_eq_some_iff.mp hi
    obtain ⟨b, hb, hqb⟩ := Option.bind_eq_some_iff.mp hj
    obtain ⟨hil, rfl⟩ := List.getElem?_eq_some_iff.mp ha
    obtain ⟨hjl, rfl⟩ := List.getElem?_eq_some_iff.mp hb
    rcases Nat.lt_trichotomy i j with hlt | he | hlt
    · exact absurd rfl (h i j hil hjl hlt q hqa q hqb)
    · exact he
    · exact absurd rfl (h j i hjl hil hlt q hqb q hqa)
  · intro h i j hi hj hlt q hq r hr he
    subst he
    have := h i j q (by simp [List.getElem?_eq_getElem hi, hq]) (by simp [List.getElem?_eq_getElem hj, hr])
    omega

theorem forall_entries {s : State} {P : Entry → Prop} :
    (∀ e ∈ s.sdr.entries, P e) ↔ ∀ i e, entryAt s i = some e → P e := by
  constructor
  · exact fun h i e he => h e (List.mem_of_getElem? he)
  · intro h e he
    obtain ⟨i, hi⟩ := List.mem_iff_getElem?.mp he
    exact h i e hi

/-- R113: a queue of distinct slots of a region is no longer than the region. -/
theorem QueuedLaw.queue_length {d : Sdr} (h : QueuedLaw d) : d.queue.length ≤ 256 := by
  have hsub : d.queue ⊆ List.range d.entries.length := fun i hi => List.mem_range.mpr (h.inRange i hi)
  have := (h.nodup.subperm hsub).length_le
  rw [List.length_range] at this
  exact this.trans h.slots

theorem queueLaw_iff (s : State) : QueueLaw s ↔ QueuedLaw s.sdr := by
  constructor
  · rintro ⟨h1, -, h3, h4, h5⟩
    exact ⟨h1, h3, h4, h5⟩
  · exact fun h => ⟨h.slots, h.queue_length, h.nodup, h.inRange, h.fields⟩

/-- What the directory's laws say of the transfer under way. -/
theorem fits_work (s : State) :
    (∀ x, s.cwr.port = some x → TransferFits s x.op) ↔ ∀ x, (slotsOf s).work = some x → (slotsOf s).Fits x := by
  simp only [slotsOf, workOf, fits_view]
  cases hp : s.cwr.port with
  | none => simp
  | some t =>
      simp only [Option.map_some, Option.some.injEq, forall_eq']
      by_cases hb : bound t.op = true
      · simp [Option.filter, hb]
      · simp only [Option.filter, hb]
        simpa using fits_of_not_bound (by simpa using hb)

/-- The directory's laws, and a mount's empty queue, slot by slot. -/
structure DirLaw (s : State) : Prop where
  queued : QueuedLaw s.sdr
  slots : SlotsLaw (slotsOf s)
  mounting : s.cwr.writer = .mounting → s.sdr.queue = []

theorem slot_ne_none {v : Slots} {st : SlotState} : v.slot st ≠ none ↔ ∃ i, v.isIn st i := by
  rw [Ne, Slots.slot_none]
  simp

theorem slotLaw_iff (s : State) :
    SlotLaw s ↔
      (∀ i j, (slotsOf s).isIn .opened i → (slotsOf s).isIn .opened j → i = j) ∧
      (∀ i j, (slotsOf s).isIn .closing i → (slotsOf s).isIn .closing j → i = j) ∧
      (∀ i, (slotsOf s).isIn .opened i →
        s.cwr.writer = .recording ∨ s.cwr.writer = .rolling ∨ s.cwr.writer = .emergencyClose) ∧
      (∀ i, (slotsOf s).isIn .closing i →
        s.cwr.writer = .stopping ∨ s.cwr.writer = .rolling ∨ s.cwr.writer = .emergencyClose) ∧
      (∀ i, (slotsOf s).isIn .opened i → ∀ j, (slotsOf s).isIn .closing j →
        s.cwr.writer = .rolling ∨ s.cwr.writer = .emergencyClose) := by
  simp only [SlotLaw, countSlots_le_one, openSlot_view, closingSlot_view, slot_ne_none, forall_exists_index]

theorem sequenceLaw_iff (s : State) :
    SequenceLaw s ↔
      (∀ i, (slotsOf s).sequence i = none ↔ ∀ st, (slotsOf s).isIn st i → st = .free ∨ st = .bad) ∧
      (directoryUp s.cwr.writer = true →
        (∀ i j q, (slotsOf s).sequence i = some q → (slotsOf s).sequence j = some q → i = j) ∧
        (∀ n, s.sdr.nextSeq = some n → ∀ i q, (slotsOf s).sequence i = some q → q < n) ∧
        ∀ i p, (slotsOf s).isIn .opened i → (slotsOf s).sequence i = some p →
          ∀ j q, (slotsOf s).sequence j = some q → q ≤ p) := by
  have hnum : (∀ e ∈ s.sdr.entries, e.sequence = none ↔ e.st = .free ∨ e.st = .bad) ↔
      ∀ i, (slotsOf s).sequence i = none ↔ ∀ st, (slotsOf s).isIn st i → st = .free ∨ st = .bad := by
    rw [forall_entries]
    refine forall_congr' fun i => ?_
    simp only [isIn_view, sequence_view]
    cases entryAt s i <;> simp
  have hbelow : (∀ n, s.sdr.nextSeq = some n → ∀ e ∈ s.sdr.entries, ∀ q, e.sequence = some q → q < n) ↔
      ∀ n, s.sdr.nextSeq = some n → ∀ i q, (slotsOf s).sequence i = some q → q < n := by
    simp only [forall_entries, sequence_view]
    refine forall_congr' fun n => imp_congr_right fun _ => forall_congr' fun i => ?_
    cases entryAt s i <;> simp
  simp only [SequenceLaw, hnum, nodup_sequences, hbelow]
  refine and_congr_right fun hn => imp_congr_right fun _ => and_congr_right fun _ => and_congr_right fun _ => ?_
  simp only [forall_entries, isIn_view, sequence_view]
  constructor
  · rintro h i p ⟨e, he, ho⟩ hp j q hq
    obtain ⟨x, hx, hxq⟩ := Option.bind_eq_some_iff.mp hq
    have := h i e he ho j x hx
    simp_all
  · intro h i e he ho j x hx
    cases hq : x.sequence with
    | none => simp
    | some q =>
        have hne : (slotsOf s).sequence i ≠ none := by
          rw [Ne, hn i]
          simp only [isIn_view]
          intro hc
          simpa [ho] using hc e.st ⟨e, he, rfl⟩
        rw [sequence_view, he] at hne
        obtain ⟨p, hp⟩ := Option.ne_none_iff_exists'.mp hne
        have hp' : e.sequence = some p := hp
        have := h i p ⟨e, he, ho⟩ (by rw [he]; exact hp) j q (by rw [hx]; exact hq)
        simp only [hp', Option.getD_some]
        exact this

theorem directoryLaw_iff (s : State) : DirectoryLaw s ↔ DirLaw s := by
  simp only [DirectoryLaw, queueLaw_iff, slotLaw_iff, sequenceLaw_iff, TransferLaw, fits_work, openSlot_view,
    closingSlot_view]
  constructor
  · rintro ⟨hq, ⟨s1, s2, s3, s4, s5⟩, ⟨n1, n2⟩, t1, t2, t3, t4⟩
    refine ⟨hq, ⟨⟨s1, s2, s3, s4, s5, n1, fun h => (n2 h).1, fun h => (n2 h).2.1, fun h => (n2 h).2.2, t1, ?_, t3⟩, ?_⟩,
      fun h => (t2 h).1⟩
    · intro hw g hg hf i
      rw [sequence_view]
      cases he : entryAt s i with
      | none => rfl
      | some e => exact (t2 hw).2 g hg hf e (List.mem_of_getElem? he)
    · intro ha hw
      obtain ⟨h1, c, hc, h2⟩ := t4 ha hw
      refine ⟨h1, ?_⟩
      show s.ssv.close.map EmergencyClose.todo = _
      rw [hc, Option.map_some, h2]
  · rintro ⟨hq, ⟨hs, hc⟩, hm⟩
    refine ⟨hq, ⟨hs.oneOpen, hs.oneClosing, hs.openWriter, hs.closingWriter, hs.bothWriter⟩, ⟨hs.unnumbered, fun h =>
      ⟨hs.distinct h, hs.below h, hs.newest h⟩⟩, hs.fewSlots, fun hw => ⟨hm hw, fun g hg hf => ?_⟩, hs.fits,
      fun ha hw => ?_⟩
    · rw [forall_entries]
      intro i e he
      have := hs.formatting hw g hg hf i
      simpa [sequence_view, he] using this
    · obtain ⟨h1, h2⟩ := hc ha hw
      obtain ⟨c, hcl, h3⟩ := Option.map_eq_some_iff.mp h2
      exact ⟨h1, c, hcl, h3⟩

end Sys2Proof.Machine
end

section
/-! The moves of the slots: a slot opened, stopped or committed, the port taken or freed, and the writer's own moves. -/

namespace Sys2Proof.Machine

namespace Slots

/-! ## One slot rewritten -/

/-- Slot `i` is put in state `st`. -/
def mark (st : SlotState) (i : Nat) (v : Slots) : Slots := { v with keys := v.keys.modify i fun k => (st, k.2) }

/-- Slot `i` is opened with sequence `q`. -/
def number (q i : Nat) (v : Slots) : Slots := { v with keys := v.keys.modify i fun _ => (.opened, some q) }

theorem isIn_lt {v : Slots} {st : SlotState} {i : Nat} (h : v.isIn st i) : i < v.keys.length := by
  obtain ⟨k, hk, -⟩ := Option.map_eq_some_iff.mp h
  exact (List.getElem?_eq_some_iff.mp hk).1

theorem isIn_unique {v : Slots} {st st' : SlotState} {i : Nat} (h : v.isIn st i) (h' : v.isIn st' i) : st = st' := by
  rw [isIn] at h h'
  simpa [h] using h'

theorem isIn_mark {v : Slots} {st st' : SlotState} {i j : Nat} :
    (v.mark st i).isIn st' j ↔ if i = j then i < v.keys.length ∧ st = st' else v.isIn st' j := by
  simp only [isIn, mark, List.getElem?_modify]
  by_cases hij : i = j
  · subst hij
    by_cases hi : i < v.keys.length <;> simp [hi]
  · simp [hij]

theorem sequence_mark {v : Slots} {st : SlotState} {i j : Nat} : (v.mark st i).sequence j = v.sequence j := by
  simp only [sequence, mark, List.getElem?_modify]
  cases v.keys[j]? with
  | none => rfl
  | some k => by_cases hij : i = j <;> simp [hij]

theorem isIn_number {v : Slots} {st : SlotState} {q i j : Nat} :
    (v.number q i).isIn st j ↔ if i = j then i < v.keys.length ∧ .opened = st else v.isIn st j := by
  simp only [isIn, number, List.getElem?_modify]
  by_cases hij : i = j
  · subst hij
    by_cases hi : i < v.keys.length <;> simp [hi]
  · simp [hij]

theorem sequence_number {v : Slots} {q i j : Nat} :
    (v.number q i).sequence j = if i = j ∧ i < v.keys.length then some q else v.sequence j := by
  simp only [sequence, number, List.getElem?_modify]
  by_cases hij : i = j
  · subst hij
    by_cases hi : i < v.keys.length <;> simp [hi]
  · simp [hij]

/-- The slots with another writer state. -/
def writing (w : Writer) (v : Slots) : Slots := { v with writer := w }

/-- The slots with another transfer under way. -/
def working (x : Option Xfer) (v : Slots) : Slots := { v with work := x }

end Slots

open Slots

/-! ## The moves -/

/-- The transfer under way fits another writer state when the writer neither mounts nor closes in an emergency. -/
theorem Slots.Fits.writing {v : Slots} {x : Xfer} (h : v.Fits x) (hm : v.writer ≠ .mounting)
    (he : v.writer ≠ .emergencyClose) (w : Writer) : (v.writing w).Fits x := by
  cases x <;> simp_all [Slots.Fits, Slots.writing, Slots.slot]

/-- A transfer that fits takes the port, or the port is free. -/
theorem SlotsCore.working {v : Slots} (h : SlotsCore v) {x : Option Xfer} (hx : ∀ y, x = some y → v.Fits y) :
    SlotsCore (v.working x) :=
  ⟨h.oneOpen, h.oneClosing, h.openWriter, h.closingWriter, h.bothWriter, h.unnumbered, h.distinct, h.below, h.newest,
    h.fewSlots, h.formatting, fun y hy => by
      have hf : v.Fits y := hx y hy
      cases y <;> exact hf⟩

theorem SlotsCore.idle {v : Slots} (h : SlotsCore v) : SlotsCore (v.working none) := h.working (by simp)

/-- A writer with a directory moves on, where the open and the closing slot let it. -/
theorem SlotsCore.writing {v : Slots} (h : SlotsCore v) {w : Writer} (hd : directoryUp v.writer = true)
    (hw : directoryUp w = true)
    (ho : ∀ i, v.isIn .opened i → w = .recording ∨ w = .rolling ∨ w = .emergencyClose)
    (hc : ∀ i, v.isIn .closing i → w = .stopping ∨ w = .rolling ∨ w = .emergencyClose)
    (hb : ∀ i, v.isIn .opened i → ∀ j, v.isIn .closing j → w = .rolling ∨ w = .emergencyClose)
    (hf : v.work = none ∨ v.writer ≠ .emergencyClose) : SlotsCore (v.writing w) where
  oneOpen := h.oneOpen
  oneClosing := h.oneClosing
  openWriter := ho
  closingWriter := hc
  bothWriter := hb
  unnumbered := h.unnumbered
  distinct _ := h.distinct hd
  below _ := h.below hd
  newest _ := h.newest hd
  fewSlots := h.fewSlots
  formatting hm := by simp_all [Slots.writing, directoryUp]
  fits x hx := by
    have hx' : v.work = some x := hx
    refine (h.fits x hx').writing ?_ ?_ w
    · intro hm; simp [hm, directoryUp] at hd
    · simpa [hx'] using hf

/-- The OPEN slot becomes CLOSING when no other slot is. -/
theorem SlotsCore.stop {v : Slots} (h : SlotsCore v) {i : Nat} {w : Writer} (ho : v.isIn .opened i)
    (hc : ∀ j, ¬ v.isIn .closing j) (hw : w = .stopping ∨ w = .rolling ∨ w = .emergencyClose)
    (hf : v.work = none ∨ v.writer ≠ .emergencyClose) : SlotsCore ((v.mark .closing i).writing w) := by
  have hd : directoryUp v.writer = true := by
    obtain hr | hr | hr := h.openWriter i ho <;> simp [hr, directoryUp]
  have hi := isIn_lt ho
  have open_iff (j : Nat) : ¬ (v.mark .closing i).isIn .opened j := by
    rw [isIn_mark]
    split
    · simp
    · next hij => exact fun hj => hij (h.oneOpen i j ho hj)
  have closing_iff (j : Nat) : (v.mark .closing i).isIn .closing j ↔ i = j := by
    rw [isIn_mark]
    split <;> simp_all
  have hone : (v.mark .closing i).slot .closing = some i :=
    (slot_eq_some fun a b ha hb => ((closing_iff a).mp ha).symm.trans ((closing_iff b).mp hb)).mpr ((closing_iff i).mpr rfl)
  have hcn : v.slot .closing = none := slot_none.mpr hc
  refine ⟨fun a b ha => absurd ha (open_iff a), fun a b ha hb => ((closing_iff a).mp ha).symm.trans ((closing_iff b).mp hb),
    fun a ha => absurd ha (open_iff a), fun _ _ => hw, fun a ha => absurd ha (open_iff a), fun j => ?_, fun _ a b q ha hb => ?_,
    fun _ n hn a q ha => ?_, fun _ a p ha => absurd ha (open_iff a), h.fewSlots, fun hm => ?_, fun x hx => ?_⟩
  · show (v.mark .closing i).sequence j = none ↔ ∀ st, (v.mark .closing i).isIn st j → _
    rw [sequence_mark, h.unnumbered]
    by_cases hij : i = j
    · subst hij
      constructor
      · exact fun hs => absurd (hs _ ho) (by simp)
      · exact fun hs => absurd (hs _ ((closing_iff i).mpr rfl)) (by simp)
    · simp [isIn_mark, hij]
  · exact h.distinct hd a b q (by rw [← sequence_mark]; exact ha) (by rw [← sequence_mark]; exact hb)
  · exact h.below hd n hn a q (by rw [← sequence_mark]; exact ha)
  · have : w = .mounting := hm
    subst this
    simp at hw
  · have hx' : v.work = some x := hx
    have hfx := h.fits x hx'
    have hne : v.writer ≠ .emergencyClose := by simpa [hx'] using hf
    have hnm : v.writer ≠ .mounting := by intro hm; simp [hm, directoryUp] at hd
    have hlen : ((v.mark .closing i).writing w).keys.length = v.keys.length := by simp [Slots.mark, Slots.writing]
    have hslot : ((v.mark .closing i).writing w).slot .closing = some i := hone
    have hopen : v.slot .opened = some i := (slot_eq_some h.oneOpen).mpr ho
    cases x <;> simp_all [Slots.Fits]

/-- A slot that is neither OPEN nor CLOSING opens with the next sequence. -/
theorem SlotsCore.begin {v : Slots} (h : SlotsCore v) {i q : Nat} {n : Option Nat} {w : Writer} (hi : i < v.keys.length)
    (hn : v.nextSeq = some q) (hn' : n = seqAfter q) (ho : ∀ j, ¬ v.isIn .opened j) (hc : ¬ v.isIn .closing i)
    (hw : (v.writer = .ready ∧ w = .recording) ∨ (v.writer = .rolling ∧ w = .rolling)) :
    SlotsCore { v.number q i with writer := w, nextSeq := n } := by
  have hd : directoryUp v.writer = true := by obtain ⟨hr, -⟩ | ⟨hr, -⟩ := hw <;> simp [hr, directoryUp]
  have open_iff (j : Nat) : (v.number q i).isIn .opened j ↔ i = j := by
    rw [isIn_number]
    split <;> simp_all
  have closing_iff (j : Nat) : (v.number q i).isIn .closing j ↔ v.isIn .closing j := by
    rw [isIn_number]
    split
    · next hij => subst hij; simp [hc]
    · rfl
  have seq_iff (j : Nat) : (v.number q i).sequence j = if i = j then some q else v.sequence j := by
    rw [sequence_number]
    simp [hi]
  have hbelow (j p : Nat) (hp : v.sequence j = some p) : p < q := h.below hd q hn j p hp
  have hwr : ∀ j, v.isIn .closing j → v.writer = .rolling ∧ w = .rolling := by
    intro j hj
    obtain ⟨hr, -⟩ | hr := hw
    · have := h.closingWriter j hj
      simp [hr] at this
    · exact hr
  refine ⟨fun a b ha hb => ((open_iff a).mp ha).symm.trans ((open_iff b).mp hb),
    fun a b ha hb => h.oneClosing a b ((closing_iff a).mp ha) ((closing_iff b).mp hb),
    fun a _ => hw.elim (fun hr => .inl hr.2) (fun hr => .inr (.inl hr.2)),
    fun a ha => .inr (.inl (hwr a ((closing_iff a).mp ha)).2),
    fun a _ b hb => .inl (hwr b ((closing_iff b).mp hb)).2, fun j => ?_, fun _ a b p ha hb => ?_, fun _ m hm a p ha => ?_,
    fun _ a p ha hp b r hr => ?_, h.fewSlots, fun hm => ?_, fun x hx => ?_⟩
  · show (v.number q i).sequence j = none ↔ ∀ st, (v.number q i).isIn st j → _
    by_cases hij : i = j
    · subst hij
      simp [seq_iff, isIn_number, hi]
    · simp [seq_iff, isIn_number, hij, h.unnumbered]
  · have ha' : (v.number q i).sequence a = some p := ha
    have hb' : (v.number q i).sequence b = some p := hb
    rw [seq_iff] at ha' hb'
    split at ha' <;> split at hb'
    · omega
    · have := hbelow b p hb'; simp_all
    · have := hbelow a p ha'; simp_all
    · exact h.distinct hd a b p ha' hb'
  · have ha' : (v.number q i).sequence a = some p := ha
    have hm' : n = some m := hm
    rw [hn', seqAfter] at hm'
    rw [seq_iff] at ha'
    split at hm'
    · simp at hm'
    · split at ha'
      · simp_all; omega
      · have := hbelow a p ha'; simp_all; omega
  · have hp' : (v.number q i).sequence a = some p := hp
    have hr' : (v.number q i).sequence b = some r := hr
    have hia : i = a := (open_iff a).mp ha
    rw [seq_iff] at hp' hr'
    simp only [hia, if_true, Option.some.injEq] at hp' hr'
    split at hr'
    · simp_all
    · have := hbelow b r hr'; omega
  · have : w = .mounting := hm
    subst this
    simp at hw
  · have hfx := h.fits x hx
    have hlen : (v.number q i).keys.length = v.keys.length := by simp [Slots.number]
    have hcl : (v.number q i).slot .closing = v.slot .closing := by
      cases hs : v.slot .closing with
      | none => exact slot_none.mpr fun j hj => slot_none.mp hs j ((closing_iff j).mp hj)
      | some j =>
          exact (slot_eq_some fun a b ha hb => h.oneClosing a b ((closing_iff a).mp ha) ((closing_iff b).mp hb)).mpr
            ((closing_iff j).mpr (slot_isIn hs))
    have hon : v.slot .opened = none := slot_none.mpr ho
    have hne : v.writer ≠ .emergencyClose := by obtain ⟨hr, -⟩ | ⟨hr, -⟩ := hw <;> simp [hr]
    have hnm : v.writer ≠ .mounting := by obtain ⟨hr, -⟩ | ⟨hr, -⟩ := hw <;> simp [hr]
    have hslot : ∀ n', ({ v.number q i with writer := w, nextSeq := n' } : Slots).slot .closing = v.slot .closing := fun _ => hcl
    cases x <;> simp_all [Slots.Fits]

/-- The CLOSING slot is CLOSED with its CLOSED header on card. -/
theorem SlotsCore.commit {v : Slots} (h : SlotsCore v) {i : Nat} {w : Writer} (hc : v.isIn .closing i)
    (hx : v.work = none) (hw : (v.writer = .stopping ∧ w = .ready) ∨ w = v.writer) :
    SlotsCore ((v.mark .closed i).writing w) := by
  have hd : directoryUp v.writer = true := by
    obtain hr | hr | hr := h.closingWriter i hc <;> simp [hr, directoryUp]
  have hi := isIn_lt hc
  have closing_iff (j : Nat) : ¬ (v.mark .closed i).isIn .closing j := by
    rw [isIn_mark]
    split
    · simp
    · next hij => exact fun hj => hij (h.oneClosing i j hc hj)
  have open_iff (j : Nat) : (v.mark .closed i).isIn .opened j ↔ v.isIn .opened j := by
    rw [isIn_mark]
    split
    · next hij => subst hij; exact ⟨by simp, fun ho => absurd (isIn_unique ho hc) (by simp)⟩
    · rfl
  refine ⟨fun a b ha hb => h.oneOpen a b ((open_iff a).mp ha) ((open_iff b).mp hb), fun a b ha => absurd ha (closing_iff a),
    fun a ha => ?_, fun a ha => absurd ha (closing_iff a), fun _ _ b hb => absurd hb (closing_iff b), fun j => ?_,
    fun _ a b q ha hb => ?_, fun _ n hn a q ha => ?_, fun _ a p ha hp b q hq => ?_, h.fewSlots, fun hm => ?_,
    fun x hx' => ?_⟩
  · have ha' := (open_iff a).mp ha
    obtain ⟨hs, -⟩ | rfl := hw
    · have := h.openWriter a ha'
      simp [hs] at this
    · exact h.openWriter a ha'
  · show (v.mark .closed i).sequence j = none ↔ ∀ st, (v.mark .closed i).isIn st j → _
    rw [sequence_mark, h.unnumbered]
    by_cases hij : i = j
    · subst hij
      constructor
      · exact fun hs => absurd (hs _ hc) (by simp)
      · exact fun hs => absurd (hs .closed (isIn_mark.mpr (by simp [hi]))) (by simp)
    · simp [isIn_mark, hij]
  · exact h.distinct hd a b q (by rw [← sequence_mark]; exact ha) (by rw [← sequence_mark]; exact hb)
  · exact h.below hd n hn a q (by rw [← sequence_mark]; exact ha)
  · exact h.newest hd a p ((open_iff a).mp ha) (by rw [← sequence_mark]; exact hp) b q (by rw [← sequence_mark]; exact hq)
  · have hm' : w = .mounting := hm
    obtain ⟨-, hr⟩ | hr := hw
    · simp [hr] at hm'
    · simp [← hr, hm', directoryUp] at hd
  · have : v.work = some x := hx'
    simp [hx] at this

end Sys2Proof.Machine
end

section
/-! The slots in the order of their sequences: the lowest, the greatest, and the ones a header scan keeps. -/

namespace Sys2Proof.Machine

/-- What the search for an entry in the order of the sequences has found: entry `i`, numbered from `k` on, has `p` and the
sequence `q`, and every other entry with `p` and a sequence comes no earlier. -/
def FirstBy (before : Nat → Nat → Prop) (p : Nat → Entry → Bool) (k : Nat) (es : List Entry) (q i : Nat) : Prop :=
  ∃ j e, i = k + j ∧ es[j]? = some e ∧ e.sequence = some q ∧ p i e = true ∧
    ∀ j' e' q', es[j']? = some e' → e'.sequence = some q' → p (k + j') e' = true → before q q'

/-- No entry has `p` and a sequence. -/
def NoneNumbered (p : Nat → Entry → Bool) (k : Nat) (es : List Entry) : Prop :=
  ∀ j e q, es[j]? = some e → e.sequence = some q → p (k + j) e = false

theorem NoneNumbered.skip {p : Nat → Entry → Bool} {k : Nat} {x : Entry} {es : List Entry}
    (h : NoneNumbered p (k + 1) es) (hx : ∀ q, x.sequence = some q → p k x = false) : NoneNumbered p k (x :: es) := by
  intro j e q he hq
  cases j with
  | zero => simp at he; subst he; exact hx q hq
  | succ j =>
      have := h j e q (by simpa using he) hq
      rwa [show k + 1 + j = k + (j + 1) by omega] at this

theorem FirstBy.skip {before : Nat → Nat → Prop} {p : Nat → Entry → Bool} {k : Nat} {x : Entry} {es : List Entry}
    {q i : Nat} (h : FirstBy before p (k + 1) es q i) (hx : ∀ r, x.sequence = some r → p k x = true → before q r) :
    FirstBy before p k (x :: es) q i := by
  obtain ⟨j, e, rfl, he, hq, hp, hb⟩ := h
  refine ⟨j + 1, e, by omega, by simpa using he, hq, hp, fun j' e' q' he' hq' hp' => ?_⟩
  cases j' with
  | zero => simp at he'; subst he'; exact hx q' hq' hp'
  | succ j' =>
      exact hb j' e' q' (by simpa using he') hq' (by rwa [show k + 1 + j' = k + (j' + 1) by omega])

theorem FirstBy.head {before : Nat → Nat → Prop} {p : Nat → Entry → Bool} {k : Nat} {x : Entry} {es : List Entry}
    {q : Nat} (hr : before q q) (hx : x.sequence = some q) (hp : p k x = true)
    (h : ∀ j e r, es[j]? = some e → e.sequence = some r → p (k + 1 + j) e = true → before q r) :
    FirstBy before p k (x :: es) q k := by
  refine ⟨0, x, by omega, rfl, hx, hp, fun j e r he hr' hp' => ?_⟩
  cases j with
  | zero => simp at he; subst he; rw [hx] at hr'; cases hr'; exact hr
  | succ j => exact h j e r (by simpa using he) hr' (by rwa [show k + 1 + j = k + (j + 1) by omega])

/-- The entry with the lowest sequence among those with `p`. -/
theorem lowestSeq_spec (p : Nat → Entry → Bool) : ∀ (es : List Entry) (k : Nat),
    (lowestSeq p k es = none → NoneNumbered p k es) ∧
      ∀ q i, lowestSeq p k es = some (q, i) → FirstBy (· ≤ ·) p k es q i
  | [], k => by simp [lowestSeq, NoneNumbered]
  | x :: es, k => by
      obtain ⟨hn, hs⟩ := lowestSeq_spec p es (k + 1)
      simp only [lowestSeq]
      cases hx : x.sequence with
      | none => exact ⟨fun h => (hn h).skip (by simp [hx]), fun q i h => (hs q i h).skip (by simp [hx])⟩
      | some r =>
          by_cases hp : p k x = true
          · simp only [hp, if_true]
            cases hl : lowestSeq p (k + 1) es with
            | none =>
                refine ⟨by simp, fun q i h => ?_⟩
                cases h
                exact FirstBy.head (Nat.le_refl _) hx hp fun j e t he ht hpe => by simp [hn hl j e t he ht] at hpe
            | some found =>
                obtain ⟨r', i'⟩ := found
                have hf := hs r' i' hl
                refine ⟨by dsimp only; split <;> simp, fun q i h => ?_⟩
                dsimp only at h
                split at h
                · next hle =>
                  cases h
                  obtain ⟨-, -, -, -, -, -, hb⟩ := hf
                  exact FirstBy.head (Nat.le_refl _) hx hp fun j e t he ht hpe => Nat.le_trans hle (hb j e t he ht hpe)
                · next hle =>
                  cases h
                  exact hf.skip fun t ht _ => by rw [hx] at ht; cases ht; omega
          · simp only [hp]
            exact ⟨fun h => (hn h).skip fun _ _ => by simpa using hp, fun q i h => (hs q i h).skip fun _ _ h => absurd h hp⟩

/-- The entry with the greatest sequence among those with `p`. -/
theorem greatestSeq_spec (p : Nat → Entry → Bool) : ∀ (es : List Entry) (k : Nat),
    (greatestSeq p k es = none → NoneNumbered p k es) ∧
      ∀ q i, greatestSeq p k es = some (q, i) → FirstBy (fun a b => b ≤ a) p k es q i
  | [], k => by simp [greatestSeq, NoneNumbered]
  | x :: es, k => by
      obtain ⟨hn, hs⟩ := greatestSeq_spec p es (k + 1)
      simp only [greatestSeq]
      cases hx : x.sequence with
      | none => exact ⟨fun h => (hn h).skip (by simp [hx]), fun q i h => (hs q i h).skip (by simp [hx])⟩
      | some r =>
          by_cases hp : p k x = true
          · simp only [hp, if_true]
            cases hl : greatestSeq p (k + 1) es with
            | none =>
                refine ⟨by simp, fun q i h => ?_⟩
                cases h
                exact FirstBy.head (Nat.le_refl _) hx hp fun j e t he ht hpe => by simp [hn hl j e t he ht] at hpe
            | some found =>
                obtain ⟨r', i'⟩ := found
                have hf := hs r' i' hl
                refine ⟨by dsimp only; split <;> simp, fun q i h => ?_⟩
                dsimp only at h
                split at h
                · next hle =>
                  cases h
                  obtain ⟨-, -, -, -, -, -, hb⟩ := hf
                  exact FirstBy.head (Nat.le_refl _) hx hp fun j e t he ht hpe => Nat.le_trans (hb j e t he ht hpe) hle
                · next hle =>
                  cases h
                  exact hf.skip fun t ht _ => by rw [hx] at ht; cases ht; omega
          · simp only [hp]
            exact ⟨fun h => (hn h).skip fun _ _ => by simpa using hp, fun q i h => (hs q i h).skip fun _ _ h => absurd h hp⟩

/-- The entry found is one of the list. -/
theorem FirstBy.getElem? {before : Nat → Nat → Prop} {p : Nat → Entry → Bool} {es : List Entry} {q i : Nat}
    (h : FirstBy before p 0 es q i) : ∃ e, es[i]? = some e ∧ e.sequence = some q ∧ p i e = true := by
  obtain ⟨j, e, rfl, he, hq, hp, -⟩ := h
  exact ⟨e, by simpa using he, hq, hp⟩

theorem FirstBy.lt {before : Nat → Nat → Prop} {p : Nat → Entry → Bool} {es : List Entry} {q i : Nat}
    (h : FirstBy before p 0 es q i) : i < es.length := by
  obtain ⟨e, he, -⟩ := h.getElem?
  exact (List.getElem?_eq_some_iff.mp he).1

/-! ## The header scan (R100, R101) -/

/-- R100: a header scan keeps each entry or makes it FREE, and leaves no sequence twice. -/
theorem dropConflicts_spec : ∀ (es : List Entry) (seen : List Nat),
    (dropConflicts seen es).1.length = es.length ∧
      (∀ e ∈ (dropConflicts seen es).1, e ∈ es ∨ e = freeEntry) ∧
      (∀ e ∈ (dropConflicts seen es).1, ∀ q, e.sequence = some q → q ∉ seen) ∧
      ((dropConflicts seen es).1.filterMap Entry.sequence).Nodup
  | [], seen => by simp [dropConflicts]
  | x :: es, seen => by
      simp only [dropConflicts]
      cases hx : x.sequence with
      | none =>
          obtain ⟨h1, h2, h3, h4⟩ := dropConflicts_spec es seen
          refine ⟨by simp [h1], ?_, ?_, by simpa [hx] using h4⟩
          · intro e he
            rcases List.mem_cons.mp he with rfl | he
            · simp
            · exact (h2 e he).imp_left (List.mem_cons_of_mem x)
          · intro e he q hq
            rcases List.mem_cons.mp he with rfl | he
            · simp [hx] at hq
            · exact h3 e he q hq
      | some r =>
          by_cases hs : seen.contains r = true
          · obtain ⟨h1, h2, h3, h4⟩ := dropConflicts_spec es seen
            simp only [hs, if_true]
            refine ⟨by simp [h1], ?_, ?_, by simpa [freeEntry] using h4⟩
            · intro e he
              rcases List.mem_cons.mp he with rfl | he
              · simp
              · exact (h2 e he).imp_left (List.mem_cons_of_mem x)
            · intro e he q hq
              rcases List.mem_cons.mp he with rfl | he
              · simp [freeEntry] at hq
              · exact h3 e he q hq
          · obtain ⟨h1, h2, h3, h4⟩ := dropConflicts_spec es (r :: seen)
            simp only [hs]
            refine ⟨by simp [h1], ?_, ?_, ?_⟩
            · intro e he
              rcases List.mem_cons.mp he with rfl | he
              · simp
              · exact (h2 e he).imp_left (List.mem_cons_of_mem x)
            · intro e he q hq
              rcases List.mem_cons.mp he with rfl | he
              · rw [hx] at hq; cases hq; simpa using hs
              · exact fun hm => h3 e he q hq (List.mem_cons_of_mem r hm)
            · simp only [Bool.false_eq_true, if_false, List.filterMap_cons, hx, List.nodup_cons]
              refine ⟨fun hm => ?_, h4⟩
              obtain ⟨e, he, hq⟩ := List.mem_filterMap.mp hm
              exact h3 e he r hq (List.mem_cons_self ..)

/-- R101: the next sequence lies above every one found. -/
theorem nextNumbers_above {es : List Entry} {n : Nat} (h : (nextNumbers es).1 = some n) {e : Entry} {q : Nat} (he : e ∈ es)
    (hq : e.sequence = some q) : q < n := by
  obtain ⟨j, hj⟩ := List.mem_iff_getElem?.mp he
  obtain ⟨hn, hs⟩ := greatestSeq_spec (fun _ _ => true) es 0
  simp only [nextNumbers] at h
  cases hg : greatestSeq (fun _ _ => true) 0 es with
  | none => simpa using hn hg j e q hj hq
  | some found =>
      obtain ⟨r, i⟩ := found
      have hf := hs r i hg
      obtain ⟨x, hx, -, -⟩ := hf.getElem?
      obtain ⟨-, -, -, -, -, -, hb⟩ := hf
      have hle : q ≤ r := hb j e q hj hq rfl
      simp only [hg, hx, seqAfter] at h
      split at h <;> simp_all
      omega

end Sys2Proof.Machine
end

section
/-! What the model's operations leave of the slots' view and of the header update queue. -/

namespace Sys2Proof.Machine

/-! ## One entry rewritten -/

/-- Two states with the same entries' keys, writer, transfer, next sequence, region and close show the same slots. -/
theorem slotsOf_congr {s t : State} (hk : keysOf t.sdr.entries = keysOf s.sdr.entries)
    (hw : t.cwr.writer = s.cwr.writer) (hp : workOf t.cwr.port = workOf s.cwr.port) (hn : t.sdr.nextSeq = s.sdr.nextSeq)
    (hg : t.sdr.geo = s.sdr.geo) (ha : t.rst.active = s.rst.active)
    (hc : t.ssv.close.map EmergencyClose.todo = s.ssv.close.map EmergencyClose.todo) : slotsOf t = slotsOf s := by
  simp only [slotsOf, hk, hw, hp, hn, hg, ha, hc]

theorem keysOf_rewritten (i : Nat) {f : Entry → Entry} {g : SlotState × Option Nat → SlotState × Option Nat}
    (hf : ∀ e, ((f e).st, (f e).sequence) = g (e.st, e.sequence)) (es : List Entry) :
    keysOf (rewritten i f es) = (keysOf es).modify i g := by
  apply List.ext_getElem?
  intro j
  simp only [keysOf_getElem?, getElem?_rewritten, List.getElem?_modify, Option.map_eq_map, Option.map_map]
  congr 1
  funext e
  by_cases hij : j = i
  · subst hij; simpa using hf e
  · simp [hij, Ne.symm hij]

/-- A rewriting that leaves an entry's state and sequence leaves the slots. -/
@[simp] theorem slotsOf_modEntry (i : Nat) (f : Entry → Entry) (s : State)
    (hf : ∀ e, (f e).st = e.st ∧ (f e).sequence = e.sequence) : slotsOf (modEntry i f s) = slotsOf s := by
  have hk : keysOf (modEntry i f s).sdr.entries = keysOf s.sdr.entries := by
    rw [modEntry_rewritten, keysOf_rewritten i (g := id) (fun e => by simp [hf e]), List.modify_id]
  exact slotsOf_congr hk (by simp) (by simp) (by simp) (by simp) (by simp) (by simp)

@[simp] theorem slotsOf_setSlotState (st : SlotState) (i : Nat) (s : State) :
    slotsOf (setSlotState st i s) = (slotsOf s).mark st i := by
  simp only [setSlotState, slotsOf, Slots.mark, modEntry_rewritten]
  rw [keysOf_rewritten i (g := fun k => (st, k.2)) (fun _ => rfl)]
  simp

@[simp] theorem slotsOf_setPort (t : Option Transfer) (s : State) :
    slotsOf (setPort t s) = (slotsOf s).working (workOf t) := rfl

@[simp] theorem slotsOf_setWriter (w : Writer) (s : State) : slotsOf (setWriter w s) = (slotsOf s).writing w := rfl

@[simp] theorem slotsOf_raise (d : Detail) (s : State) : slotsOf (raise d s) = slotsOf s := rfl

theorem length_view (s : State) : (slotsOf s).keys.length = s.sdr.entries.length := keysOf_length _

/-- The number of entries is the slots'. -/
theorem entries_length {s t : State} (h : slotsOf t = slotsOf s) : t.sdr.entries.length = s.sdr.entries.length := by
  rw [← length_view, h, length_view]

/-! ## The header update queue -/

theorem QueuedLaw.of_same {d d' : Sdr} (h : QueuedLaw d) (he : d'.entries.map Entry.queued = d.entries.map Entry.queued)
    (hq : d'.queue = d.queue) : QueuedLaw d' := by
  have hl : d'.entries.length = d.entries.length := by simpa using congrArg List.length he
  refine ⟨hl ▸ h.slots, hq ▸ h.nodup, by rw [hq, hl]; exact h.inRange, fun i e hi => ?_⟩
  have hi' : (d'.entries.map Entry.queued)[i]? = some e.queued := by simp [hi]
  rw [he, List.getElem?_map] at hi'
  obtain ⟨x, hx, hxe⟩ := Option.map_eq_some_iff.mp hi'
  rw [hq, ← hxe]
  exact h.fields i x hx

/-- An empty queue, and no entry queued. -/
theorem QueuedLaw.of_nil {d : Sdr} (hl : d.entries.length ≤ 256) (hq : d.queue = [])
    (he : ∀ e ∈ d.entries, e.queued = false) : QueuedLaw d :=
  ⟨hl, by simp [hq], by simp [hq], fun i e hi => by simp [hq, he e (List.mem_of_getElem? hi)]⟩

theorem map_queued_rewritten (i : Nat) {f : Entry → Entry} (hf : ∀ e, (f e).queued = e.queued) (es : List Entry) :
    (rewritten i f es).map Entry.queued = es.map Entry.queued := by
  apply List.ext_getElem?
  intro j
  simp only [List.getElem?_map, getElem?_rewritten, Option.map_map]
  congr 1
  funext e
  by_cases hij : j = i <;> simp [hij, hf]

@[simp] theorem modEntry_queued (i : Nat) (f : Entry → Entry) (s : State) (hf : ∀ e, (f e).queued = e.queued)
    (h : QueuedLaw s.sdr) : QueuedLaw (modEntry i f s).sdr :=
  h.of_same (by rw [modEntry_rewritten, map_queued_rewritten i hf]) (by simp)

@[simp] theorem setSlotState_queued (st : SlotState) (i : Nat) (s : State) (h : QueuedLaw s.sdr) :
    QueuedLaw (setSlotState st i s).sdr := modEntry_queued i _ s (fun _ => rfl) h

@[simp] theorem slotsOf_enqueue (i : Nat) (s : State) : slotsOf (enqueue i s) = slotsOf s := by
  simp only [enqueue]
  split
  · rfl
  · exact slotsOf_modEntry i (fun e => { e with queued := true }) s fun _ => ⟨rfl, rfl⟩

@[simp] theorem slotsOf_dequeue (i : Nat) (rest : List Nat) (s : State) : slotsOf (dequeue i rest s) = slotsOf s :=
  slotsOf_modEntry i (fun e => { e with queued := false }) s fun _ => ⟨rfl, rfl⟩

@[simp] theorem enqueue_queued (i : Nat) (s : State) (h : QueuedLaw s.sdr) (hi : i < s.sdr.entries.length) :
    QueuedLaw (enqueue i s).sdr := by
  simp only [enqueue]
  split
  · exact h
  · next hm =>
    have hl : (modEntry i (fun e => { e with queued := true }) s).sdr.entries.length = s.sdr.entries.length := by
      simp [modEntry_rewritten, rewritten]
    refine ⟨?_, ?_, ?_, ?_⟩
    · exact hl ▸ h.slots
    · simp only [modEntry_frame, List.nodup_append, h.nodup]
      simp only [List.nodup_cons, List.not_mem_nil, not_false_eq_true, List.nodup_nil, and_self, List.mem_cons, or_false,
        forall_eq, true_and]
      exact fun j hj hji => hm (hji ▸ hj)
    · simp only [hl, modEntry_frame, List.mem_append, List.mem_cons, List.not_mem_nil, or_false]
      rintro j (hj | rfl)
      · exact h.inRange j hj
      · exact hi
    · simp only [modEntry_rewritten, getElem?_rewritten, modEntry_frame, List.mem_append, List.mem_cons, List.not_mem_nil,
        or_false]
      intro j e he
      obtain ⟨x, hx, rfl⟩ := Option.map_eq_some_iff.mp he
      by_cases hji : j = i
      · simp [hji]
      · simpa [hji] using h.fields j x hx

@[simp] theorem dequeue_queued (i : Nat) (rest : List Nat) (s : State) (h : QueuedLaw s.sdr)
    (hq : s.sdr.queue = i :: rest) : QueuedLaw (dequeue i rest s).sdr := by
  have hl : (dequeue i rest s).sdr.entries.length = s.sdr.entries.length := entries_length (slotsOf_dequeue i rest s)
  have hnd := h.nodup
  rw [hq, List.nodup_cons] at hnd
  obtain ⟨hi, hrest⟩ := hnd
  refine ⟨hl ▸ h.slots, hrest, fun j hj => ?_, fun j e he => ?_⟩
  · rw [hl]
    exact h.inRange j (by rw [hq]; exact List.mem_cons_of_mem i hj)
  · simp only [dequeue, modEntry_rewritten, getElem?_rewritten] at he
    obtain ⟨x, hx, rfl⟩ := Option.map_eq_some_iff.mp he
    by_cases hji : j = i
    · subst hji; simpa [dequeue] using hi
    · have := h.fields j x hx
      simpa [hji, hq, dequeue] using this

@[simp] theorem slotsOf_skipQueue : ∀ (q : List Nat) (s : State), slotsOf (skipQueue q s) = slotsOf s
  | [], _ => rfl
  | i :: rest, s => by
      simp only [skipQueue]
      split
      · rfl
      · rw [slotsOf_skipQueue rest, slotsOf_dequeue]

theorem skipQueue_queued : ∀ (q : List Nat) (s : State), s.sdr.queue = q → QueuedLaw s.sdr → QueuedLaw (skipQueue q s).sdr
  | [], _, _, h => h
  | i :: rest, s, hq, h => by
      simp only [skipQueue]
      split
      · exact h
      · exact skipQueue_queued rest _ rfl (dequeue_queued i rest s h hq)

/-! ## Locks (R108 to R112) -/

@[simp] theorem slotsOf_setImpact (b : Bool) (i : Nat) (s : State) : slotsOf (setImpact b i s) = slotsOf s := by
  simp [setImpact]

@[simp] theorem slotsOf_releaseSlot (i : Nat) (s : State) : slotsOf (releaseSlot i s) = slotsOf s := by
  simp [releaseSlot]

@[simp] theorem slotsOf_lockSlot (i : Nat) (s : State) : slotsOf (lockSlot i s) = slotsOf s := by
  simp [lockSlot]

@[simp] theorem setImpact_queued (b : Bool) (i : Nat) (s : State) (h : QueuedLaw s.sdr) :
    QueuedLaw (setImpact b i s).sdr := modEntry_queued i _ s (fun _ => rfl) h

@[simp] theorem releaseSlot_queued (i : Nat) (s : State) (h : QueuedLaw s.sdr) (hi : i < s.sdr.entries.length) :
    QueuedLaw (releaseSlot i s).sdr :=
  enqueue_queued i (raise _ (setImpact false i s)) (setImpact_queued false i s h) (by
    show i < (setImpact false i s).sdr.entries.length
    rwa [entries_length (slotsOf_setImpact false i s)])

@[simp] theorem lockSlot_queued (i : Nat) (s : State) (h : QueuedLaw s.sdr) (hi : i < s.sdr.entries.length) :
    QueuedLaw (lockSlot i s).sdr :=
  enqueue_queued i _ (setImpact_queued true i s h) (by rwa [entries_length (slotsOf_setImpact true i s)])

@[simp] theorem slotsOf_lockList (cands : List Nat) : ∀ (l : List Nat) (s : State), slotsOf (lockList cands l s) = slotsOf s
  | [], _ => rfl
  | i :: rest, s => by
      simp only [lockList]
      (repeat' split) <;> simp [slotsOf_lockList cands rest]

theorem lockList_queued (cands : List Nat) : ∀ (l : List Nat) (s : State), QueuedLaw s.sdr →
    (∀ i ∈ l, i < s.sdr.entries.length) → QueuedLaw (lockList cands l s).sdr
  | [], _, h, _ => h
  | i :: rest, s, h, hl => by
      have hi := hl i (List.mem_cons_self ..)
      have hrest (t : State) (ht : slotsOf t = slotsOf s) : ∀ j ∈ rest, j < t.sdr.entries.length := fun j hj => by
        rw [entries_length ht]
        exact hl j (List.mem_cons_of_mem i hj)
      simp only [lockList]
      repeat' split
      · exact lockList_queued cands rest s h (hrest s rfl)
      · exact h
      · exact lockList_queued cands rest _ (lockSlot_queued i s h hi) (hrest _ (by simp))
      · exact h
      · next q j hlow =>
        have hj : j < s.sdr.entries.length := ((lowestSeq_spec _ _ 0).2 q j hlow).lt
        have hr : slotsOf (releaseSlot j s) = slotsOf s := by simp
        exact lockList_queued cands rest _
          (lockSlot_queued i _ (releaseSlot_queued j s h hj) (by rwa [entries_length hr])) (hrest _ (by simp))

theorem openSlot_lt {s : State} {i : Nat} (h : openSlot s = some i) : i < s.sdr.entries.length := by
  obtain ⟨e, he⟩ := openSlot_entry h
  exact (List.getElem?_eq_some_iff.mp he).1

theorem beforeAnchor_lt {time : Word} {pre : Nat} {e : Entry} {s : State} {j : Nat} (h : j ∈ beforeAnchor time pre e s) :
    j < s.sdr.entries.length := by
  simp only [beforeAnchor] at h
  repeat' split at h
  all_goals try exact absurd h List.not_mem_nil
  next he _ =>
    obtain rfl := List.mem_singleton.mp h
    exact (List.getElem?_eq_some_iff.mp he).1

theorem lockRequest_kept (time : Word) (pre post : Nat) (s : State) :
    slotsOf (lockRequest time pre post s).1 = slotsOf s ∧
      (QueuedLaw s.sdr → QueuedLaw (lockRequest time pre post s).1.sdr) := by
  have hmark (cands : List Nat) : slotsOf (setMark time cands post s) = slotsOf s ∧
      (QueuedLaw s.sdr → QueuedLaw (setMark time cands post s).sdr) := by
    simp only [setMark]
    split
    · exact ⟨rfl, fun h => h.of_same rfl rfl⟩
    · exact ⟨rfl, id⟩
  simp only [lockRequest]
  split
  · exact ⟨rfl, id⟩
  · next i ha =>
    split
    · exact ⟨rfl, id⟩
    · next e he =>
      obtain ⟨hk, hq⟩ := hmark (i :: beforeAnchor time pre e s)
      refine ⟨by simp [hk], fun h => ?_⟩
      refine modEntry_queued i _ _ (fun _ => rfl) (lockList_queued _ _ _ (hq h) fun j hj => ?_)
      rw [entries_length hk]
      rcases List.mem_cons.mp hj with rfl | hj
      · exact (List.getElem?_eq_some_iff.mp he).1
      · exact beforeAnchor_lt hj

theorem postRoll_kept (i : Nat) (s : State) :
    slotsOf (postRoll i s) = slotsOf s ∧
      (QueuedLaw s.sdr → i < s.sdr.entries.length → QueuedLaw (postRoll i s).sdr) := by
  simp only [postRoll]
  split
  · exact ⟨rfl, fun h _ => h⟩
  · next m _ =>
    have hq (h : QueuedLaw s.sdr) (hi : i < s.sdr.entries.length) :
        QueuedLaw (lockList (m.candidates ++ [i]) [i] { s with sdr := { s.sdr with mark := none } }).sdr :=
      lockList_queued _ _ _ (h.of_same rfl rfl) (by simpa using hi)
    have hk : slotsOf (lockList (m.candidates ++ [i]) [i] { s with sdr := { s.sdr with mark := none } }) = slotsOf s := by
      rw [slotsOf_lockList]; rfl
    repeat' split
    · exact ⟨by simpa using hk, hq⟩
    · exact ⟨hk, hq⟩
    · exact ⟨rfl, fun h _ => h.of_same rfl rfl⟩

theorem releaseExcess_kept : ∀ (n : Nat) (s : State),
    slotsOf (releaseExcess n s).1 = slotsOf s ∧ (QueuedLaw s.sdr → QueuedLaw (releaseExcess n s).1.sdr)
  | 0, _ => ⟨rfl, id⟩
  | n + 1, s => by
      simp only [releaseExcess]
      repeat' split
      · exact ⟨rfl, id⟩
      · next q i hlow =>
        have hi : i < s.sdr.entries.length := ((lowestSeq_spec _ _ 0).2 q i hlow).lt
        obtain ⟨hk, hq⟩ := releaseExcess_kept n (releaseSlot i s)
        exact ⟨by simpa using hk, fun h => hq (releaseSlot_queued i s h hi)⟩
      · exact ⟨rfl, id⟩

theorem setLocks_kept (i : Nat) (l : LockSet) (s : State) :
    slotsOf (setLocks i l s) = slotsOf s ∧ (QueuedLaw s.sdr → QueuedLaw (setLocks i l s).sdr) := by
  simp only [setLocks]
  repeat' split
  · exact ⟨rfl, id⟩
  · exact ⟨rfl, id⟩
  · next e he _ =>
    have hk : slotsOf (modEntry i (fun e => { e with locks := l }) s) = slotsOf s := by simp
    refine ⟨by simp, fun h => enqueue_queued i _ (modEntry_queued i _ s (fun _ => rfl) h) ?_⟩
    rw [entries_length hk]
    exact (List.getElem?_eq_some_iff.mp he).1

end Sys2Proof.Machine
end

section
/-! The directory's laws and the settling of the port: what the arbiter and the emergency close begin. -/

namespace Sys2Proof.Machine

open Slots

/-! ## What leaves the slots -/

@[simp] theorem workOf_none : workOf none = none := rfl

@[simp] theorem workOf_some (t : Transfer) : workOf (some t) = (some t.op).filter bound := rfl

/-- A held MOTION_READ that ends leaves the purpose of its read unbound. -/
@[simp] theorem endMotionRead_work (status : Status) (s : State) :
    workOf (endMotionRead status s).cwr.port = workOf s.cwr.port := by
  simp only [endMotionRead]
  split
  · simp only [endHold, answer]
    split
    · next t hp =>
      split
      · next w ho => simp [workOf, hp, ho, Option.filter, bound]
      · rfl
    · rfl
  · rfl

@[simp] theorem slotsOf_endMotionRead (status : Status) (s : State) : slotsOf (endMotionRead status s) = slotsOf s :=
  slotsOf_congr (by simp) (by simp) (by simp) (by simp) (by simp) (by simp) (by simp)

@[simp] theorem slotsOf_endUnmount (status : Status) (s : State) : slotsOf (endUnmount status s) = slotsOf s :=
  slotsOf_congr (by simp) (by simp) (by simp) (by simp) (by simp) (by simp) (by simp)

@[simp] theorem slotsOf_endRecording (reason : CloseReason) (budget spent : Nat) (s : State) :
    slotsOf (endRecording reason budget spent s) = slotsOf s :=
  slotsOf_congr (by simp) (by simp) (by simp) (by simp) (by simp) (by simp) (by simp)

@[simp] theorem slotsOf_checkStable (s : State) : slotsOf (checkStable s) = slotsOf s :=
  slotsOf_congr (by simp) (by simp) (by simp) (by simp) (by simp) (by simp) (by simp)

@[simp] theorem slotsOf_answer (kind tag : Byte) (status : Status) (data : List Byte) (s : State) :
    slotsOf (answer kind tag status data s) = slotsOf s := rfl

@[simp] theorem slotsOf_hold (h : Held) (s : State) : slotsOf (hold h s) = slotsOf s := rfl

@[simp] theorem slotsOf_refreshOffers (s : State) : slotsOf (refreshOffers s) = slotsOf s := rfl

@[simp] theorem slotsOf_unitTaken (s : State) : slotsOf (unitTaken s) = slotsOf s := rfl

@[simp] theorem slotsOf_blockTaken (s : State) : slotsOf (blockTaken s) = slotsOf s := rfl

@[simp] theorem slotsOf_countRun (s : State) : slotsOf (countRun s) = slotsOf s := rfl

@[simp] theorem slotsOf_clearRun (s : State) : slotsOf (clearRun s) = slotsOf s := rfl

@[simp] theorem slotsOf_addLost (slot n : Nat) (s : State) : slotsOf (addLost slot n s) = slotsOf s := by
  simp [addLost]

@[simp] theorem addLost_queued (slot n : Nat) (s : State) (h : QueuedLaw s.sdr) : QueuedLaw (addLost slot n s).sdr :=
  modEntry_queued slot _ s (fun _ => rfl) h

@[simp] theorem slotsOf_loseSegment (slot : Nat) (s : State) : slotsOf (loseSegment slot s) = slotsOf s := by
  simp only [loseSegment, slotsOf_addLost]; rfl

@[simp] theorem loseSegment_queued (slot : Nat) (s : State) (h : QueuedLaw s.sdr) : QueuedLaw (loseSegment slot s).sdr :=
  addLost_queued _ _ _ h

@[simp] theorem slotsOf_loseRecords (slot : Nat) (s : State) : slotsOf (loseRecords slot s) = slotsOf s := by
  exact slotsOf_modEntry slot (fun e => { e with motionDropped := _ }) _ fun _ => ⟨rfl, rfl⟩

@[simp] theorem loseRecords_queued (slot : Nat) (s : State) (h : QueuedLaw s.sdr) : QueuedLaw (loseRecords slot s).sdr :=
  modEntry_queued slot _ _ (fun _ => rfl) h

/-- A change of the close's record that leaves its slots to do leaves the slots. -/
theorem slotsOf_modClose {f : EmergencyClose → EmergencyClose} (hf : ∀ c, (f c).todo = c.todo) (s : State) :
    slotsOf (modClose f s) = slotsOf s := by
  refine slotsOf_congr (by simp) (by simp) (by simp) (by simp) (by simp) (by simp) ?_
  cases hc : s.ssv.close <;> simp [modClose, hc, hf]

@[simp] theorem slotsOf_charge (n : Nat) (s : State) : slotsOf (charge n s) = slotsOf s :=
  slotsOf_modClose (f := fun c => { c with left := c.left - n }) (fun _ => rfl) s

@[simp] theorem slotsOf_setPart (p : ClosePart) (s : State) : slotsOf (setPart p s) = slotsOf s :=
  slotsOf_modClose (f := fun c => { c with part := p }) (fun _ => rfl) s

@[simp] theorem slotsOf_closeFailed (s : State) : slotsOf (closeFailed s) = slotsOf s :=
  slotsOf_modClose (f := fun c => { c with failed := true }) (fun _ => rfl) s

/-! ## A transfer begun -/

/-- `t` has the slots of `s`, with the transfer of `s` or one for the purpose `op`. -/
def MayBegin (op : Xfer) (s t : State) : Prop :=
  slotsOf t = slotsOf s ∨ slotsOf t = (slotsOf s).working ((some op).filter bound)

theorem MayBegin.after {op : Xfer} {s t u : State} (h : MayBegin op t u) (hs : slotsOf t = slotsOf s) : MayBegin op s u := by
  rwa [MayBegin, hs] at h

theorem MayBegin.before {op : Xfer} {s t u : State} (h : MayBegin op s t) (hs : slotsOf u = slotsOf t) : MayBegin op s u := by
  rwa [MayBegin, hs]

theorem beginHeader_begins (op : Xfer) (i : Nat) (bytes : Geometry → Entry → List Byte) (s : State) :
    MayBegin op s (beginHeader op i bytes s) := by
  simp only [beginHeader, withGeo]
  repeat' split
  · exact .inl rfl
  · exact .inl rfl
  · exact .inr rfl

theorem beginUnit_begins (op : Xfer) (o : Offer) (s : State) : MayBegin op s (beginUnit op o s) := by
  simp only [beginUnit, withGeo]
  split
  · exact .inl rfl
  · exact .inr rfl

theorem beginBlock_begins (op : Xfer) (o : Offer) (s : State) : MayBegin op s (beginBlock op o s) := by
  simp only [beginBlock, withGeo]
  split
  · exact .inl rfl
  · exact .inr rfl

theorem beginHostRead_begins (i k n : Nat) (s : State) : MayBegin (.hostRead true) s (beginHostRead i k n s) := by
  simp only [beginHostRead, withGeo]
  split
  · exact .inl rfl
  · exact .inr rfl

/-! ## The laws from one state to the next -/

/-- A state with the slots of one that obeys the laws obeys them, where its queue is in step. -/
theorem DirLaw.alike {s t : State} (h : DirLaw s) (hs : slotsOf t = slotsOf s) (hq : QueuedLaw t.sdr)
    (hm : s.cwr.writer = .mounting → t.sdr.queue = s.sdr.queue) : DirLaw t := by
  have hw : t.cwr.writer = s.cwr.writer := congrArg Slots.writer hs
  exact ⟨hq, hs ▸ h.slots, fun hwm => by rw [hm (hw ▸ hwm)]; exact h.mounting (hw ▸ hwm)⟩

/-- What leaves the directory and the writer, and the purpose of the transfer under way, keeps the laws. -/
theorem DirLaw.of_same {s t : State} (h : DirLaw s) (hs : slotsOf t = slotsOf s)
    (hd : t.sdr.entries = s.sdr.entries) (hq : t.sdr.queue = s.sdr.queue) : DirLaw t :=
  h.alike hs (h.queued.of_same (by rw [hd]) hq) fun _ => hq

theorem CloseInOrder.working {v : Slots} (h : CloseInOrder v) (x : Option Xfer) : CloseInOrder (v.working x) := h

theorem CloseInOrder.of_writer {v : Slots} (h : v.writer ≠ .emergencyClose) : CloseInOrder v := fun _ hw => absurd hw h

/-- A purpose that is not bound leaves the port free as the slots see it. -/
theorem SlotsLaw.begin {v : Slots} (h : SlotsLaw v) {op : Xfer} (hf : v.Fits op) :
    SlotsLaw (v.working ((some op).filter bound)) := by
  refine ⟨h.core.working fun y hy => ?_, h.close.working _⟩
  rw [Option.filter_eq_some_iff] at hy
  cases hy.1
  exact hf

theorem SlotsLaw.idle {v : Slots} (h : SlotsLaw v) : SlotsLaw (v.working none) := ⟨h.core.idle, h.close⟩

/-- A transfer that fits may begin. -/
theorem DirLaw.begin {s t : State} (h : DirLaw s) {op : Xfer} (hb : MayBegin op s t) (hf : (slotsOf s).Fits op)
    (hq : QueuedLaw t.sdr) (hw : s.cwr.writer ≠ .mounting) : DirLaw t := by
  obtain hs | hs := hb
  · exact h.alike hs hq fun hm => absurd hm hw
  · refine ⟨hq, hs ▸ h.slots.begin hf, fun hm => absurd ?_ hw⟩
    have : t.cwr.writer = s.cwr.writer := congrArg Slots.writer hs
    exact this ▸ hm

/-- The port is freed. -/
theorem DirLaw.freePort {s : State} (h : DirLaw s) : DirLaw (setPort none s) :=
  ⟨h.queued, h.slots.idle, h.mounting⟩

/-! ## The card given up -/

/-- No slots: the laws ask only for the region's size and the transfer's fit. -/
theorem SlotsCore.of_nil {v : Slots} (hk : v.keys = []) (hg : ∀ g, v.geo = some g → g.slotCount ≤ 256)
    (hf : ∀ x, v.work = some x → v.Fits x) : SlotsCore v := by
  have hi (st : SlotState) (i : Nat) : ¬ v.isIn st i := by simp [Slots.isIn, hk]
  have hs (i : Nat) : v.sequence i = none := by simp [Slots.sequence, hk]
  exact ⟨fun i _ h => absurd h (hi _ i), fun i _ h => absurd h (hi _ i), fun i h => absurd h (hi _ i),
    fun i h => absurd h (hi _ i), fun i h => absurd h (hi _ i), fun i => by simp [hs, hi],
    fun _ i j q h => by simp [hs] at h, fun _ n _ i q h => by simp [hs] at h, fun _ i p h => absurd h (hi _ i), hg,
    fun _ _ _ _ i => hs i, hf⟩

/-- Giving up the card leaves no slots and no transfer. -/
theorem giveUpCard_dir {w : Writer} (hw : w ≠ .emergencyClose) (s : State) : DirLaw (giveUpCard w s) :=
  ⟨QueuedLaw.of_nil (Nat.zero_le _) rfl (fun _ he => absurd he List.not_mem_nil),
    ⟨SlotsCore.of_nil rfl (by simp [slotsOf, giveUpCard, discardDirectory, setWriter, Sdr.reset])
      (by simp [slotsOf, giveUpCard]), CloseInOrder.of_writer hw⟩, fun _ => rfl⟩

theorem writerFault_dir (slot addr : Nat) (kind : WriteKind) (s : State) : DirLaw (writerFault slot addr kind s) :=
  (giveUpCard_dir (w := .fault) (by simp) (endUnmount .state (endMotionRead .state s))).of_same
    (by simp [writerFault]) (by simp [writerFault]) (by simp [writerFault])

theorem finishUnmount_dir {s : State} (h : DirLaw s) : DirLaw (finishUnmount s) := by
  simp only [finishUnmount]
  split
  · split
    · exact (giveUpCard_dir (w := .unmounted) (by simp) s).of_same (by simp) (by simp) (by simp)
    · exact h
  · exact h

/-! ## The arbiter (R125) -/

section Arbiter

variable {s : State}

theorem grantRead_dir (h : DirLaw s) (hw : s.cwr.writer ≠ .mounting) : DirLaw (grantRead s) := by
  simp only [grantRead]
  split
  · exact h.begin ((beginHostRead_begins _ _ _ s).before (slotsOf_clearRun _)) trivial (by simpa using h.queued) hw
  · exact h

theorem grantUnit_dir (h : DirLaw s) (hw : s.cwr.writer ≠ .mounting) (o : Offer) : DirLaw (grantUnit o s) :=
  h.begin ((beginUnit_begins (.streamUnit o.slot o.real) o s).before (slotsOf_countRun _)) trivial
    (by simpa using h.queued) hw

theorem grantBlock_dir (h : DirLaw s) (hw : s.cwr.writer ≠ .mounting) (o : Offer) : DirLaw (grantBlock o s) :=
  h.begin ((beginBlock_begins (.motionBlock o.slot o.real) o s).before (slotsOf_countRun _)) trivial
    (by simpa using h.queued) hw

theorem grantData_dir (h : DirLaw s) (hw : s.cwr.writer ≠ .mounting) : DirLaw (grantData s) := by
  simp only [grantData]
  repeat' split
  · exact grantBlock_dir h hw _
  · exact grantUnit_dir h hw _
  · exact grantUnit_dir h hw _
  · exact grantBlock_dir h hw _
  · exact grantRead_dir h hw
  · exact h

/-- The head of the queue is taken for a header update. -/
theorem grantUpdate_dir (h : DirLaw s) (hw : s.cwr.writer ≠ .mounting) {op : Xfer} {i : Nat} {rest : List Nat}
    (hq : s.sdr.queue = i :: rest) (hf : (slotsOf s).Fits op) : DirLaw (grantUpdate op i s) := by
  have hd : QueuedLaw (dequeue i (s.sdr.queue.drop 1) s).sdr := dequeue_queued i _ s h.queued (by simp [hq])
  exact h.begin ((beginHeader_begins op i _ _).after (slotsOf_dequeue i _ s)) hf (by simpa [grantUpdate] using hd) hw

theorem queue_head_lt (h : DirLaw s) {i : Nat} {rest : List Nat} (hq : s.sdr.queue = i :: rest) :
    i < (slotsOf s).keys.length := by
  rw [length_view]
  exact h.queued.inRange i (by simp [hq])

theorem skipQueue_dir (h : DirLaw s) (hw : s.cwr.writer ≠ .mounting) : DirLaw (skipQueue s.sdr.queue s) :=
  h.alike (slotsOf_skipQueue _ s) (skipQueue_queued _ s rfl h.queued) fun hm => absurd hm hw

/-- R125: what the arbiter grants fits. -/
theorem grantPort_dir (h : DirLaw s) (hw : s.cwr.writer ≠ .mounting) : DirLaw (grantPort s) := by
  have h' := skipQueue_dir h hw
  have hw' : (skipQueue s.sdr.queue s).cwr.writer ≠ .mounting := by simpa using hw
  simp only [grantPort]
  generalize skipQueue s.sdr.queue s = u at h' hw'
  split
  · next i rest hq => exact grantUpdate_dir h' hw' hq (queue_head_lt h' hq)
  · split
    · next i hc =>
      have hcl : (slotsOf u).slot .closing = some i := by
        rw [← closingSlot_view]
        simp only [readyClosing] at hc
        split at hc
        · simp at hc
        · split at hc <;> simp_all
      exact h'.begin (beginHeader_begins (.closedHeader i _) i _ u) hcl (by simpa [grantClosed] using h'.queued) hw'
    · split
      · next i ho =>
        have hfit : (slotsOf u).slot .closing = some i ∨
            ((slotsOf u).slot .opened = some i ∧ (slotsOf u).slot .closing = none) := by
          rw [← closingSlot_view, ← openSlot_view]
          simp only [readyOpening] at ho
          split at ho
          · split at ho <;> simp_all
          · split at ho
            · split at ho <;> simp_all
            · simp at ho
        exact h'.begin (beginHeader_begins (.openingHeader i) i _ u) hfit (by simpa [grantOpening] using h'.queued) hw'
      · split
        · exact grantRead_dir h' hw'
        · exact grantData_dir h' hw'

end Arbiter

/-! ## The emergency close (R173 to R181) -/

section Close

variable {s : State} {c : EmergencyClose} {k : Nat}

/-- R173: the slots to close are the CLOSING one and then the OPEN one. -/
theorem close_todo (h : DirLaw s) (ha : Awake s) (hw : s.cwr.writer = .emergencyClose) (hc : s.ssv.close = some c) :
    ((slotsOf s).slot .closing = none → (slotsOf s).slot .opened = none) ∧
      c.todo = ((slotsOf s).slot .closing).toList ++ ((slotsOf s).slot .opened).toList := by
  obtain ⟨h1, h2⟩ := h.slots.close ha hw
  have h3 : (slotsOf s).todo = some c.todo := by simp [slotsOf, hc]
  exact ⟨h1, Option.some.inj (h3 ▸ h2)⟩

/-- The first slot to close is the CLOSING one. -/
theorem close_head (h : DirLaw s) (ha : Awake s) (hw : s.cwr.writer = .emergencyClose) (hc : s.ssv.close = some c)
    {rest : List Nat} (ht : c.todo = k :: rest) : (slotsOf s).slot .closing = some k := by
  obtain ⟨h1, h2⟩ := close_todo h ha hw hc
  cases hcl : (slotsOf s).slot .closing with
  | none => simp [ht, hcl, h1 hcl] at h2
  | some i => simp [ht, hcl] at h2; simp [h2]

theorem closeHeader_dir (h : DirLaw s) (hw : s.cwr.writer = .emergencyClose)
    (hk : (slotsOf s).slot .closing = some k) : DirLaw (closeHeader k s) :=
  h.begin (((beginHeader_begins (.emClosed k) k _ _).after (slotsOf_setPart .header s)).before (slotsOf_charge _ _))
    ⟨hw, hk⟩ (by simpa [closeHeader] using h.queued) (by simp [hw])

theorem loseRecords_dir (h : DirLaw s) (hw : s.cwr.writer = .emergencyClose) (k : Nat) : DirLaw (loseRecords k s) :=
  h.alike (slotsOf_loseRecords k s) (loseRecords_queued k s h.queued) (by simp [hw])

theorem closeMotion_dir (h : DirLaw s) (hw : s.cwr.writer = .emergencyClose)
    (hk : (slotsOf s).slot .closing = some k) : DirLaw (closeMotion c k s) := by
  have hend : DirLaw (closeHeader k (loseRecords k s)) :=
    closeHeader_dir (loseRecords_dir h hw k) (by simpa using hw) (by simpa using hk)
  simp only [closeMotion]
  repeat' split
  · next o _ _ =>
    exact h.begin (((beginBlock_begins (.emBlock k o.real) o _).after (slotsOf_setPart .motion s)).before
      (slotsOf_charge _ _)) hw (by simpa using h.queued) (by simp [hw])
  · exact hend
  · exact hend

theorem closeStream_dir (h : DirLaw s) (hw : s.cwr.writer = .emergencyClose)
    (hk : (slotsOf s).slot .closing = some k) : DirLaw (closeStream c k s) := by
  have hlose : DirLaw (loseSegment k s) :=
    h.alike (slotsOf_loseSegment k s) (loseSegment_queued k s h.queued) (by simp [hw])
  have hend : DirLaw (closeMotion c k (loseSegment k s)) := closeMotion_dir hlose (by simpa using hw) (by simpa using hk)
  simp only [closeStream]
  repeat' split
  · next o _ _ =>
    exact h.begin (((beginUnit_begins (.emUnit k o.real) o _).after (slotsOf_setPart .stream s)).before
      (slotsOf_charge _ _)) hw (by simpa using h.queued) (by simp [hw])
  · exact hend
  · exact hend

/-- The laws of the slots do not read the close's record but for its order. -/
theorem SlotsCore.closing {v : Slots} (h : SlotsCore v) (todo : Option (List Nat)) (asleep : Bool) :
    SlotsCore { v with todo := todo, asleep := asleep } :=
  ⟨h.oneOpen, h.oneClosing, h.openWriter, h.closingWriter, h.bothWriter, h.unnumbered, h.distinct, h.below, h.newest,
    h.fewSlots, h.formatting, fun y hy => by
      have hf : v.Fits y := h.fits y hy
      cases y <;> exact hf⟩

/-- R181: with no slot left to close the close ends in READY. -/
theorem closeEnd_dir (h : DirLaw s) (hw : s.cwr.writer = .emergencyClose) (hp : s.cwr.port = none)
    (hc : (slotsOf s).slot .closing = none) (ho : (slotsOf s).slot .opened = none) : DirLaw (closeEnd s) := by
  simp only [closeEnd]
  split
  · exact h
  · have hwv : (slotsOf s).writer = .emergencyClose := hw
    have hv : SlotsCore ((slotsOf s).writing .ready) :=
      h.slots.core.writing (by simp [hwv, directoryUp]) rfl (fun i hi => absurd hi (slot_none.mp ho i))
        (fun i hi => absurd hi (slot_none.mp hc i)) (fun i hi => absurd hi (slot_none.mp ho i))
        (.inl (by simp [slotsOf, hp]))
    refine DirLaw.of_same (s := { setWriter .ready s with
      cwr := { (setWriter .ready s).cwr with closeReason := none }, ssv := { s.ssv with close := none } })
      ⟨h.queued.of_same rfl rfl, ⟨hv.closing none s.rst.active, CloseInOrder.of_writer (by simp [slotsOf])⟩, by simp⟩
      (by simp) (by simp) (by simp)

theorem closeSlots_dir (h : DirLaw s) (ha : Awake s) (hw : s.cwr.writer = .emergencyClose) (hp : s.cwr.port = none)
    (hc : s.ssv.close = some c) : DirLaw (closeSlots c s) := by
  simp only [closeSlots]
  split
  · next ht =>
    obtain ⟨h1, h2⟩ := close_todo h ha hw hc
    have hcl : (slotsOf s).slot .closing = none := by
      cases hcl : (slotsOf s).slot .closing with
      | none => rfl
      | some i => simp [ht, hcl] at h2
    exact closeEnd_dir h hw hp hcl (h1 hcl)
  · next ht => exact closeStream_dir h hw (close_head h ha hw hc ht)

theorem closeUpdates_dir (h : DirLaw s) (ha : Awake s) (hw : s.cwr.writer = .emergencyClose) (hp : s.cwr.port = none)
    (hc : s.ssv.close = some c) : DirLaw (closeUpdates c s) := by
  have h' := skipQueue_dir h (by simp [hw])
  have hslots : DirLaw (closeSlots c (skipQueue s.sdr.queue s)) :=
    closeSlots_dir h' (by simpa [Awake] using ha) (by simpa using hw) (by simpa using hp) (by simpa using hc)
  simp only [closeUpdates]
  repeat' split
  · exact closeSlots_dir h ha hw hp hc
  · exact hslots
  · next i rest hq _ =>
    have hset : DirLaw (setPart .updates (skipQueue s.sdr.queue s)) := h'.of_same (by simp) (by simp) (by simp)
    refine (grantUpdate_dir hset (by simp [hw]) (by simpa using hq)
      (show (slotsOf _).Fits (.emUpdate i) from ⟨by simpa [slotsOf] using hw, ?_⟩)).of_same (by simp) (by simp) (by simp)
    exact queue_head_lt hset (by simpa using hq)
  · exact hslots

theorem closeAdvance_dir (h : DirLaw s) (ha : Awake s) (hw : s.cwr.writer = .emergencyClose) (hp : s.cwr.port = none) :
    DirLaw (closeAdvance s) := by
  simp only [closeAdvance]
  split
  · exact h
  · next c hc =>
    split
    · exact closeUpdates_dir h ha hw hp hc
    · exact closeUpdates_dir h ha hw hp hc
    · next ht => exact closeMotion_dir h hw (close_head h ha hw hc ht)
    · exact closeSlots_dir h ha hw hp hc

end Close

/-- Settling the port keeps the directory's laws. -/
theorem settle_dir {s : State} (h : DirLaw s) (ha : Awake s) : DirLaw (settle s) := by
  have h1 : DirLaw (refreshOffers s) := h.of_same rfl rfl rfl
  have h2 : DirLaw (if (refreshOffers s).cwr.port.isNone && (refreshOffers s).cwr.writer == .emergencyClose
      then closeAdvance (refreshOffers s) else refreshOffers s) := by
    split
    · next hc =>
      simp only [Bool.and_eq_true, Option.isNone_iff_eq_none, beq_iff_eq] at hc
      exact closeAdvance_dir h1 ha hc.2 hc.1
    · exact h1
  simp only [settle]
  generalize (if (refreshOffers s).cwr.port.isNone && (refreshOffers s).cwr.writer == .emergencyClose
      then closeAdvance (refreshOffers s) else refreshOffers s) = u at h2
  refine finishUnmount_dir ?_
  split
  · next hc =>
    simp only [Bool.and_eq_true] at hc
    exact grantPort_dir h2 (by intro hm; simp [hm, arbitrating] at hc)
  · exact h2

end Sys2Proof.Machine
end

section
/-! The directory's laws and the card's operations: a stop, an emergency close begun, a slot opened, a slot committed. -/

namespace Sys2Proof.Machine

open Slots

/-! ## The OPEN and the CLOSING slot -/

/-- Where at most one slot is in a state, the first one is told by the slots in it. -/
theorem Slots.slot_congr {v v' : Slots} {st : SlotState} (h : ∀ i j, v.isIn st i → v.isIn st j → i = j)
    (hv : ∀ j, v'.isIn st j ↔ v.isIn st j) : v'.slot st = v.slot st := by
  cases hs : v.slot st with
  | none => exact slot_none.mpr fun j hj => slot_none.mp hs j ((hv j).mp hj)
  | some i =>
      exact (slot_eq_some fun a b ha hb => h a b ((hv a).mp ha) ((hv b).mp hb)).mpr ((hv i).mpr (slot_isIn hs))

/-- Where slot `i` is the only one in a state, it is the first. -/
theorem Slots.slot_only {v : Slots} {st : SlotState} {i : Nat} (h : ∀ j, v.isIn st j ↔ i = j) : v.slot st = some i :=
  (slot_eq_some fun a b ha hb => ((h a).mp ha).symm.trans ((h b).mp hb)).mpr ((h i).mpr rfl)

/-- The OPEN slot, marked CLOSING where no other is, is the CLOSING one, and none is OPEN. -/
theorem SlotsCore.stop_slots {v : Slots} (h : SlotsCore v) {i : Nat} (ho : v.slot .opened = some i)
    (hc : v.slot .closing = none) :
    (v.mark .closing i).slot .closing = some i ∧ (v.mark .closing i).slot .opened = none := by
  have hi := isIn_lt (slot_isIn ho)
  refine ⟨slot_only fun j => ?_, slot_none.mpr fun j => ?_⟩
  · rw [isIn_mark]
    split
    · next hij => simp [hij.symm, hi]
    · next hij => exact ⟨fun hj => absurd hj (slot_none.mp hc j), fun hj => absurd hj hij⟩
  · rw [isIn_mark]
    split
    · simp
    · next hij => exact fun hj => hij (h.oneOpen i j (slot_isIn ho) hj)

/-- The CLOSING slot, marked CLOSED, leaves no other CLOSING and the OPEN one as it was. -/
theorem SlotsCore.commit_slots {v : Slots} (h : SlotsCore v) {i : Nat} (hc : v.slot .closing = some i) :
    (v.mark .closed i).slot .closing = none ∧ (v.mark .closed i).slot .opened = v.slot .opened := by
  refine ⟨slot_none.mpr fun j => ?_, slot_congr h.oneOpen fun j => ?_⟩
  · rw [isIn_mark]
    split
    · simp
    · next hij => exact fun hj => hij (h.oneClosing i j (slot_isIn hc) hj)
  · rw [isIn_mark]
    split
    · next hij =>
      subst hij
      exact ⟨by simp, fun hj => absurd (isIn_unique hj (slot_isIn hc)) (by simp)⟩
    · rfl

theorem DirLaw.core {s : State} (h : DirLaw s) : SlotsCore (slotsOf s) := h.slots.core

/-- In RECORDING and in READY no slot is CLOSING. -/
theorem SlotsCore.noClosing {v : Slots} (h : SlotsCore v) (hw : v.writer = .recording ∨ v.writer = .ready) (j : Nat) :
    ¬ v.isIn .closing j := by
  intro hj
  have := h.closingWriter j hj
  obtain hw | hw := hw <;> simp [hw] at this

/-- In READY and in STOPPING no slot is OPEN. -/
theorem SlotsCore.noOpen {v : Slots} (h : SlotsCore v) (hw : v.writer = .ready ∨ v.writer = .stopping) (j : Nat) :
    ¬ v.isIn .opened j := by
  intro hj
  have := h.openWriter j hj
  obtain hw | hw := hw <;> simp [hw] at this

/-! ## A stop asked for (R131) -/

theorem askStop_dir {s : State} (h : DirLaw s) (reason : CloseReason) : DirLaw (askStop reason s) := by
  simp only [askStop]
  split
  · next hw =>
    split
    · exact h
    · next i hi =>
      have ho : (slotsOf s).slot .opened = some i := by rw [← openSlot_view]; exact hi
      have hv : SlotsCore (((slotsOf s).mark .closing i).writing .stopping) :=
        h.core.stop (slot_isIn ho) (h.core.noClosing (.inl hw)) (.inl rfl) (.inr (by simp [slotsOf, hw]))
      have hs : slotsOf (setWriter .stopping (setSlotState .closing i s)) =
          ((slotsOf s).mark .closing i).writing .stopping := by simp
      exact ⟨(setSlotState_queued .closing i s h.queued).of_same rfl rfl,
        ⟨hs ▸ hv, CloseInOrder.of_writer (by simp [slotsOf])⟩, by simp⟩
  · exact h.of_same rfl rfl rfl
  · exact h

/-! ## An emergency close begun (R173) -/

theorem closeList_view (s : State) :
    closeList s = ((slotsOf s).slot .closing).toList ++ ((slotsOf s).slot .opened).toList := by
  simp only [closeList, closingSlot_view, openSlot_view]
  cases (slotsOf s).slot .closing <;> cases (slotsOf s).slot .opened <;> rfl

/-- R173: with the CLOSING slot, or with the OPEN one become CLOSING, the writer may close in an emergency, the slots to
close being the CLOSING and then the OPEN one. -/
theorem closeFirst_view {s : State} (h : SlotsCore (slotsOf s)) (hw : closable s.cwr.writer = true) :
    let v := slotsOf (closeFirst s)
    SlotsCore (v.writing .emergencyClose) ∧ (v.slot .closing = none → v.slot .opened = none) ∧
      closeList s = (v.slot .closing).toList ++ (v.slot .opened).toList := by
  have hd : directoryUp (slotsOf s).writer = true := by
    show directoryUp s.cwr.writer = true
    cases hx : s.cwr.writer <;> simp [hx, closable] at hw <;> rfl
  have hne : (slotsOf s).writer ≠ .emergencyClose := fun hx => by
    have hx' : s.cwr.writer = .emergencyClose := hx
    simp [hx', closable] at hw
  have hstay : SlotsCore ((slotsOf s).writing .emergencyClose) :=
    h.writing hd rfl (fun _ _ => by simp) (fun _ _ => by simp) (fun _ _ _ _ => by simp) (.inr hne)
  simp only [closeList_view, closeFirst, closingSlot_view, openSlot_view]
  cases hc : (slotsOf s).slot .closing with
  | some i => exact ⟨hstay, by simp [hc], by simp [hc]⟩
  | none =>
      cases ho : (slotsOf s).slot .opened with
      | none => exact ⟨hstay, by simp [ho], by simp [hc, ho]⟩
      | some j =>
          obtain ⟨sc, so⟩ := h.stop_slots ho hc
          simp only [slotsOf_setSlotState]
          exact ⟨h.stop (slot_isIn ho) (slot_none.mp hc) (by simp) (.inr hne), by simp [sc], by simp [sc, so]⟩

theorem closeFirst_queued {s : State} (h : QueuedLaw s.sdr) : QueuedLaw (closeFirst s).sdr := by
  simp only [closeFirst]
  split
  · exact setSlotState_queued .closing _ s h
  · exact h

theorem startClose_dir {s : State} (h : DirLaw s) (hw : closable s.cwr.writer = true) : DirLaw (startClose s) := by
  have h1 : DirLaw (endMotionRead .state s) := h.of_same (by simp) (by simp) (by simp)
  have hw1 : closable (endMotionRead .state s).cwr.writer = true := by simpa using hw
  simp only [startClose]
  generalize endMotionRead .state s = u at h1 hw1
  obtain ⟨hcore, hfirst, htodo⟩ := closeFirst_view h1.core hw1
  refine ⟨(closeFirst_queued h1.queued).of_same rfl rfl, ⟨hcore.closing (some (closeList u)) (closeFirst u).rst.active,
    fun _ _ => ⟨hfirst, congrArg some htodo⟩⟩, ?_⟩
  intro hm
  simp [setWriter] at hm

/-! ## A slot opened (R106, R107) -/

/-- R106: the slot chosen is FREE, or recorded. -/
theorem chooseSlot_isIn {s : State} {i : Nat} (h : chooseSlot s = some i) :
    i < (slotsOf s).keys.length ∧ ¬ (slotsOf s).isIn .closing i := by
  simp only [chooseSlot] at h
  split at h
  · simp at h
  · split at h
    · next j hf =>
      cases h
      rw [findState_keys, Option.map_eq_some_iff] at hf
      obtain ⟨k, hk, rfl⟩ := hf
      have hi : (slotsOf s).isIn .free k := slot_isIn hk
      exact ⟨isIn_lt hi, fun hc => absurd (isIn_unique hi hc) (by simp)⟩
    · obtain ⟨⟨q, k⟩, hk, rfl⟩ := Option.map_eq_some_iff.mp h
      obtain ⟨e, he, -, hp⟩ := ((lowestSeq_spec _ _ 0).2 q k hk).getElem?
      refine ⟨by rw [length_view]; exact (List.getElem?_eq_some_iff.mp he).1, fun hc => ?_⟩
      obtain ⟨x, hx, hst⟩ := (isIn_view s _ _).mp hc
      have : x = e := by rw [entryAt, he] at hx; exact (Option.some.inj hx).symm
      subst this
      simp [recorded, hst] at hp

@[simp] theorem slotsOf_staleCursor (i : Nat) (s : State) : slotsOf (staleCursor i s) = slotsOf s := by
  refine slotsOf_congr (by simp) (by simp) ?_ (by simp) (by simp) (by simp) (by simp)
  simp only [staleCursor]
  (repeat' split) <;> simp

/-- The slots after slot `i` has been opened with sequence `q`. -/
@[simp] theorem slotsOf_openTheSlot (i q recId : Nat) (s : State) :
    slotsOf (openTheSlot i q recId s) = { (slotsOf s).number q i with nextSeq := seqAfter q } := by
  have hk : keysOf (modEntry i (openedEntry q recId s.now) s).sdr.entries =
      (keysOf s.sdr.entries).modify i fun _ => (.opened, some q) := by
    rw [modEntry_rewritten, keysOf_rewritten i (g := fun _ => (.opened, some q)) fun _ => rfl]
  calc slotsOf (openTheSlot i q recId s)
      = slotsOf (resetEntry i q recId s) := rfl
    _ = slotsOf { modEntry i (openedEntry q recId s.now) s with
          sdr := { (modEntry i (openedEntry q recId s.now) s).sdr with nextSeq := seqAfter q } } := slotsOf_staleCursor _ _
    _ = { (slotsOf s).number q i with nextSeq := seqAfter q } := by simp [slotsOf, Slots.number, hk]

@[simp] theorem openTheSlot_queued (i q recId : Nat) (s : State) (h : QueuedLaw s.sdr) :
    QueuedLaw (openTheSlot i q recId s).sdr := by
  have hm : QueuedLaw (modEntry i (openedEntry q recId s.now) s).sdr := modEntry_queued i _ s (fun _ => rfl) h
  exact hm.of_same (by simp [openTheSlot, resetEntry]) (by simp [openTheSlot, resetEntry])

theorem startRecording_dir {s : State} (h : DirLaw s) {i q : Nat} (hw : s.cwr.writer = .ready)
    (hi : chooseSlot s = some i) (hq : s.sdr.nextSeq = some q) : DirLaw (startRecording i q s) := by
  obtain ⟨hlen, hc⟩ := chooseSlot_isIn hi
  have hv : SlotsCore { (slotsOf s).number q i with writer := .recording, nextSeq := seqAfter q } :=
    h.core.begin hlen hq rfl (h.core.noOpen (.inl hw)) hc (.inl ⟨hw, rfl⟩)
  have hs : slotsOf (startRecording i q s) =
      { (slotsOf s).number q i with writer := .recording, nextSeq := seqAfter q } := by
    refine Eq.trans ?_ (congrArg (Slots.writing .recording) (slotsOf_openTheSlot i q s.sdr.nextRec
      { s with cbf := { s.cbf with admitted := [] } }))
    rfl
  have hqd : QueuedLaw (openTheSlot i q s.sdr.nextRec { s with cbf := { s.cbf with admitted := [] } }).sdr :=
    openTheSlot_queued _ _ _ _ h.queued
  exact ⟨hqd.of_same rfl rfl, hs ▸ ⟨hv, CloseInOrder.of_writer (by simp)⟩, by simp [startRecording, setWriter]⟩

theorem recStartReq_dir {s : State} (h : DirLaw s) (ha : Awake s) (tag : Byte) : DirLaw (recStartReq tag s) := by
  simp only [recStartReq]
  split
  · next hw =>
    split
    · next i q hi hq =>
      have h1 : DirLaw (answer 0x22 tag .accepted (u16 i ++ u32 q ++ u16 s.sdr.nextRec) (startRecording i q s)) :=
        (startRecording_dir h hw hi hq).of_same rfl rfl rfl
      simp only [recStartWith]
      split
      · exact settle_dir (startClose_dir h1 (by simp [answer, startRecording, setWriter, closable]))
          (by simpa [Awake] using ha)
      · exact settle_dir h1 (by simpa [Awake] using ha)
    · exact h.of_same rfl rfl rfl
  · exact h.of_same rfl rfl rfl

/-! ## The crossing (R85) -/

@[simp] theorem slotsOf_assign (i : Nat) (bytes : List Byte) (s : State) : slotsOf (assign i bytes s) = slotsOf s := rfl

/-- R85: the crossing closes the OPEN slot and opens the one chosen, if any. -/
theorem crossing_dir {s : State} (h : DirLaw s) {i : Nat} (rest : List Byte) (hw : stopTaken s.cwr.writer = true)
    (ho : openSlot s = some i) (hc : closingSlot s = none) : DirLaw (crossing i rest s).1 := by
  rw [openSlot_view] at ho
  rw [closingSlot_view] at hc
  have hne : (slotsOf s).writer ≠ .emergencyClose := fun hx => by
    have hx' : s.cwr.writer = .emergencyClose := hx
    simp [hx', stopTaken] at hw
  have hstop (w : Writer) (hw : w = .stopping ∨ w = .rolling ∨ w = .emergencyClose) :
      SlotsCore (((slotsOf s).mark .closing i).writing w) :=
    h.core.stop (slot_isIn ho) (slot_none.mp hc) hw (.inr hne)
  have hq : QueuedLaw (setSlotState .closing i s).sdr := setSlotState_queued .closing i s h.queued
  have hs : slotsOf (setSlotState .closing i s) = (slotsOf s).mark .closing i := by simp
  simp only [crossing]
  generalize setSlotState .closing i s = u at hq hs
  split
  · next j q hj hn =>
    obtain ⟨hlen, hcj⟩ := chooseSlot_isIn hj
    have hroll : SlotsCore ((slotsOf u).writing .rolling) := hs ▸ hstop .rolling (by simp)
    have hnone : ∀ k, ¬ ((slotsOf u).writing .rolling).isIn .opened k := by
      have := (h.core.stop_slots ho hc).2
      rw [hs]
      exact slot_none.mp this
    have hv : SlotsCore { (slotsOf u).number q j with writer := .rolling, nextSeq := seqAfter q } :=
      hroll.begin hlen hn rfl hnone hcj (.inr ⟨rfl, rfl⟩)
    have hopen := slotsOf_openTheSlot j q (u.cwr.recId.getD 0) u
    have hoq := openTheSlot_queued j q (u.cwr.recId.getD 0) u hq
    have hol : j < (openTheSlot j q (u.cwr.recId.getD 0) u).sdr.entries.length := by
      rw [← length_view, hopen]
      simpa [Slots.number] using hlen
    simp only [crossTo]
    generalize openTheSlot j q (u.cwr.recId.getD 0) u = x at hopen hoq hol
    obtain ⟨pk, pq⟩ := postRoll_kept j (setWriter .rolling { x with cwr := { x.cwr with closeReason := some .full } })
    have hx : slotsOf (setWriter .rolling { x with cwr := { x.cwr with closeReason := some .full } }) =
        { (slotsOf u).number q j with writer := .rolling, nextSeq := seqAfter q } :=
      congrArg (Slots.writing .rolling) hopen
    have hp := (slotsOf_assign j rest _).trans (pk.trans hx)
    refine ⟨pq (hoq.of_same rfl rfl) hol, hp ▸ ⟨hv, CloseInOrder.of_writer (by simp)⟩, fun hm => ?_⟩
    have hwr := congrArg Slots.writer hp
    exact absurd (hwr.symm.trans hm) (by simp)
  · have hl : slotsOf (addLost i rest.length u) = (slotsOf s).mark .closing i := by simp [hs]
    have hlq : QueuedLaw (addLost i rest.length u).sdr := addLost_queued i _ u hq
    simp only [crossNowhere]
    refine ⟨hlq.of_same rfl rfl, ⟨?_, CloseInOrder.of_writer (by simp [slotsOf, setWriter])⟩, by simp [setWriter]⟩
    have hv : SlotsCore ((slotsOf (addLost i rest.length u)).writing .stopping) := by
      rw [hl]
      exact hstop .stopping (by simp)
    exact hv

/-- R84, R85: an accepted payload that fits crosses only where no slot is CLOSING. -/
theorem acceptData_dir {s : State} (h : DirLaw s) {i : Nat} (bytes : List Byte) (hw : stopTaken s.cwr.writer = true)
    (ho : openSlot s = some i) (hf : dataFits bytes.length s = true) : DirLaw (acceptData i bytes s).1 := by
  have h1 : DirLaw (assign i (bytes.take (slotCapacity s - s.cbf.assigned)) s) := h.of_same rfl rfl rfl
  simp only [acceptData]
  split
  · next hcap =>
    refine crossing_dir h1 _ hw ho ?_
    show closingSlot s = none
    simp only [dataFits, Bool.and_eq_true, Bool.or_eq_true, Option.isNone_iff_eq_none, decide_eq_true_eq] at hf
    obtain hn | hroom := hf.2
    · exact hn
    · have hcap' : slotCapacity s ≤ s.cbf.assigned + (bytes.take (slotCapacity s - s.cbf.assigned)).length := hcap
      simp only [List.length_take] at hcap'
      omega
  · exact h1

theorem dataReq_dir {s : State} (h : DirLaw s) (ha : Awake s) (tag : Byte) (bytes : List Byte) :
    DirLaw (dataReq tag bytes s) := by
  simp only [dataReq]
  split
  · exact h.of_same rfl rfl rfl
  · split
    · next hw =>
      split
      · exact h.of_same rfl rfl rfl
      · next i ho =>
        split
        · next hf =>
          exact settle_dir ((acceptData_dir h bytes hw ho hf).of_same rfl rfl rfl) (by simpa [Awake, dataReply] using ha)
        · refine (h.alike (slotsOf_addLost i bytes.length s) (addLost_queued i _ s h.queued) ?_).of_same rfl rfl rfl
          exact fun _ => by simp [addLost]
    · exact h.of_same rfl rfl rfl

end Sys2Proof.Machine
end

section
/-! The directory's laws and the mount: the format pass, the header scan and their completion (R97 to R102). -/

namespace Sys2Proof.Machine

open Slots

/-- An entry that a mount can fill: neither OPEN nor CLOSING, not queued, with no sequence exactly where FREE or BAD. -/
structure MountEntry (e : Entry) : Prop where
  quiet : e.st ≠ .opened ∧ e.st ≠ .closing
  numbered : e.sequence = none ↔ e.st = .free ∨ e.st = .bad
  unqueued : e.queued = false

theorem mountEntry_free : MountEntry freeEntry := ⟨by simp [freeEntry], by simp [freeEntry], rfl⟩

theorem mountEntry_bad : MountEntry badEntry := ⟨by simp [badEntry], by simp [badEntry, freeEntry], rfl⟩

theorem mountEntry_classify (g : Geometry) (block : List Byte) : MountEntry (classify g block) := by
  simp only [classify]
  repeat' split
  all_goals exact ⟨by simp [freeEntry], by simp [freeEntry], rfl⟩

/-- While the writer mounts, every entry is one a mount has filled. -/
theorem DirLaw.mountEntries {s : State} (h : DirLaw s) (hw : s.cwr.writer = .mounting) {e : Entry}
    (he : e ∈ s.sdr.entries) : MountEntry e := by
  obtain ⟨i, hi⟩ := List.mem_iff_getElem?.mp he
  have hin : (slotsOf s).isIn e.st i := (isIn_view s _ i).mpr ⟨e, hi, rfl⟩
  have hwv : (slotsOf s).writer = .mounting := hw
  have hseq : (slotsOf s).sequence i = e.sequence := by rw [sequence_view, entryAt, hi]; rfl
  refine ⟨⟨fun ho => ?_, fun hc => ?_⟩, ?_, ?_⟩
  · have := h.core.openWriter i (ho ▸ hin)
    simp [hwv] at this
  · have := h.core.closingWriter i (hc ▸ hin)
    simp [hwv] at this
  · rw [← hseq, h.core.unnumbered]
    exact ⟨fun hs => hs _ hin, fun hs st hst => isIn_unique hin hst ▸ hs⟩
  · have := h.queued.fields i e hi
    simpa [h.mounting hw] using this

/-- A directory of such entries, their sequences distinct and below the next one, is one for READY. -/
theorem readyCore {s : State} (hm : ∀ e ∈ s.sdr.entries, MountEntry e)
    (hd : (s.sdr.entries.filterMap Entry.sequence).Nodup)
    (hb : ∀ n, s.sdr.nextSeq = some n → ∀ e ∈ s.sdr.entries, ∀ q, e.sequence = some q → q < n)
    (hg : ∀ g, s.sdr.geo = some g → g.slotCount ≤ 256) (hp : s.cwr.port = none) :
    SlotsCore ((slotsOf s).writing .ready) := by
  have hquiet (st : SlotState) (i : Nat) (hi : (slotsOf s).isIn st i) : st ≠ .opened ∧ st ≠ .closing := by
    obtain ⟨e, he, rfl⟩ := (isIn_view s st i).mp hi
    exact (hm e (List.mem_of_getElem? he)).quiet
  refine ⟨fun i _ hi => absurd rfl (hquiet _ i hi).1, fun i _ hi => absurd rfl (hquiet _ i hi).2,
    fun i hi => absurd rfl (hquiet _ i hi).1, fun i hi => absurd rfl (hquiet _ i hi).2,
    fun i hi => absurd rfl (hquiet _ i hi).1, fun i => ?_, fun _ => (nodup_sequences s).mp hd, fun _ n hn i q hq => ?_,
    fun _ i p hi => absurd rfl (hquiet _ i hi).1, hg, fun hw => by simp [Slots.writing] at hw, fun x hx => ?_⟩
  · show (slotsOf s).sequence i = none ↔ ∀ st, (slotsOf s).isIn st i → _
    simp only [sequence_view, isIn_view]
    cases he : entryAt s i with
    | none => simp
    | some e => simpa using (hm e (List.mem_of_getElem? he)).numbered
  · have hq' : (slotsOf s).sequence i = some q := hq
    rw [sequence_view] at hq'
    obtain ⟨e, he, heq⟩ := Option.bind_eq_some_iff.mp hq'
    exact hb n hn e (List.mem_of_getElem? he) q heq
  · have hx' : (slotsOf s).work = some x := hx
    simp [slotsOf, hp] at hx'

/-! ## The completion (R100 to R102) -/

theorem completeMount_dir {s : State} (hq : QueuedLaw s.sdr) (hv : SlotsCore ((slotsOf s).writing .ready)) (ha : Awake s)
    (n : Nat) : DirLaw (completeMount n s) := by
  obtain ⟨hk, hkq⟩ := releaseExcess_kept s.sdr.entries.length s
  have hact : (releaseExcess s.sdr.entries.length s).1.rst = s.rst := by simp
  simp only [completeMount]
  generalize releaseExcess s.sdr.entries.length s = r at hk hkq hact
  refine settle_dir ⟨(hkq hq).of_same rfl rfl, ⟨?_, CloseInOrder.of_writer (by simp [slotsOf, setWriter])⟩,
    by simp [setWriter]⟩ (by simpa [Awake, hact] using ha)
  have hv' : SlotsCore ((slotsOf r.1).writing .ready) := hk ▸ hv
  exact hv'

theorem completeFormat_dir {s : State} (h : DirLaw s) (ha : Awake s) (hw : s.cwr.writer = .mounting)
    (hp : s.cwr.port = none) {g : Geometry} (hg : s.sdr.geo = some g) (hf : g.format = true) :
    DirLaw (completeFormat s) := by
  have hnone : ∀ e ∈ s.sdr.entries, e.sequence = none := by
    rw [forall_entries]
    intro i e he
    have := h.core.formatting hw g hg hf i
    simpa [sequence_view, he] using this
  refine completeMount_dir (s := { s with sdr := { s.sdr with nextSeq := some 1, nextRec := 1 } })
    (h.queued.of_same rfl rfl) (readyCore (fun e he => h.mountEntries hw he) ?_ ?_ h.core.fewSlots hp) ha 0
  · rw [List.filterMap_eq_nil_iff.mpr hnone]
    exact List.nodup_nil
  · intro n _ e he q hq
    rw [hnone e he] at hq
    cases hq

theorem completeScan_dir {s : State} (h : DirLaw s) (ha : Awake s) (hw : s.cwr.writer = .mounting)
    (hp : s.cwr.port = none) : DirLaw (completeScan s) := by
  obtain ⟨hlen, hmem, -, hnd⟩ := dropConflicts_spec s.sdr.entries []
  have hm : ∀ e ∈ (dropConflicts [] s.sdr.entries).1, MountEntry e := fun e he => by
    obtain hold | rfl := hmem e he
    · exact h.mountEntries hw hold
    · exact mountEntry_free
  have hnext : ∀ n, (nextNumbers (dropConflicts [] s.sdr.entries).1).1 = some n →
      ∀ e ∈ (dropConflicts [] s.sdr.entries).1, ∀ q, e.sequence = some q → q < n := fun n hn e he q hq =>
    nextNumbers_above hn he hq
  simp only [completeScan]
  generalize dropConflicts [] s.sdr.entries = r at hlen hnd hm hnext
  generalize nextNumbers r.1 = n at hnext
  have hq : QueuedLaw { s.sdr with entries := r.1, nextSeq := n.1, nextRec := n.2 } :=
    QueuedLaw.of_nil (hlen ▸ h.queued.slots) (h.mounting hw) fun e he => (hm e he).unqueued
  exact completeMount_dir (s := { s with sdr := { s.sdr with entries := r.1, nextSeq := n.1, nextRec := n.2 } }) hq
    (readyCore hm hnd hnext h.core.fewSlots hp) ha r.2

/-! ## The pass (R98, R99) -/

theorem mountStep_dir {s : State} (h : DirLaw s) (ha : Awake s) (hw : s.cwr.writer = .mounting) (hp : s.cwr.port = none)
    {i : Nat} (hi : i = s.sdr.entries.length) : DirLaw (mountStep i s) := by
  have hkeys : i = (slotsOf s).keys.length := by rw [length_view, hi]
  have begin_dir (op : Xfer) (addr : Nat) (bytes : List Byte) (hf : (slotsOf s).Fits op) :
      DirLaw (begin op addr 1 bytes s) :=
    ⟨h.queued, h.slots.begin hf, h.mounting⟩
  simp only [mountStep]
  split
  · exact h
  · next g hg =>
    split
    · next hlt =>
      split
      · next hf => exact begin_dir _ _ _ ⟨hw, hkeys, g, hg, hlt, hf⟩
      · next hf => exact begin_dir _ _ _ ⟨hw, hkeys, g, hg, hlt, by simpa using hf⟩
    · split
      · next hf => exact completeFormat_dir h ha hw hp hg hf
      · exact completeScan_dir h ha hw hp

/-- Slot `i` gets its entry while the writer mounts. -/
theorem SlotsCore.append {v : Slots} (h : SlotsCore v) (hw : v.writer = .mounting) {k : SlotState × Option Nat}
    (hq : k.1 ≠ .opened ∧ k.1 ≠ .closing) (hn : k.2 = none ↔ k.1 = .free ∨ k.1 = .bad)
    (hf : ∀ g, v.geo = some g → g.format = true → k.2 = none) :
    SlotsCore { v with keys := v.keys ++ [k], work := none } := by
  have hin (st : SlotState) (i : Nat) : ({ v with keys := v.keys ++ [k], work := none } : Slots).isIn st i ↔
      v.isIn st i ∨ (i = v.keys.length ∧ k.1 = st) := by
    simp only [Slots.isIn]
    rcases Nat.lt_trichotomy i v.keys.length with hlt | rfl | hgt
    · rw [List.getElem?_append_left hlt]
      simp [Nat.ne_of_lt hlt]
    · simp
    · simp [List.getElem?_eq_none (show (v.keys ++ [k]).length ≤ i by simp; omega),
        List.getElem?_eq_none (show v.keys.length ≤ i by omega), Nat.ne_of_gt hgt]
  have hseq (i : Nat) : ({ v with keys := v.keys ++ [k], work := none } : Slots).sequence i =
      if i = v.keys.length then k.2 else v.sequence i := by
    simp only [Slots.sequence]
    rcases Nat.lt_trichotomy i v.keys.length with hlt | rfl | hgt
    · rw [List.getElem?_append_left hlt]
      simp [Nat.ne_of_lt hlt]
    · simp
    · simp [List.getElem?_eq_none (show (v.keys ++ [k]).length ≤ i by simp; omega),
        List.getElem?_eq_none (show v.keys.length ≤ i by omega), Nat.ne_of_gt hgt]
  have hopen (i : Nat) : ¬ ({ v with keys := v.keys ++ [k], work := none } : Slots).isIn .opened i := by
    rw [hin]
    rintro (hi | ⟨-, hk⟩)
    · have := h.openWriter i hi
      simp [hw] at this
    · exact hq.1 hk
  have hclosing (i : Nat) : ¬ ({ v with keys := v.keys ++ [k], work := none } : Slots).isIn .closing i := by
    rw [hin]
    rintro (hi | ⟨-, hk⟩)
    · have := h.closingWriter i hi
      simp [hw] at this
    · exact hq.2 hk
  have hup : ¬ directoryUp v.writer = true := by simp [hw, directoryUp]
  refine ⟨fun i _ hi => absurd hi (hopen i), fun i _ hi => absurd hi (hclosing i), fun i hi => absurd hi (hopen i),
    fun i hi => absurd hi (hclosing i), fun i hi => absurd hi (hopen i), fun i => ?_, fun hd => absurd hd hup,
    fun hd => absurd hd hup, fun hd => absurd hd hup, h.fewSlots, fun _ g hg hfm i => ?_, by simp⟩
  · rw [hseq]
    by_cases hi : i = v.keys.length
    · subst hi
      have hnone (st : SlotState) : ¬ v.isIn st v.keys.length := fun hs => absurd (isIn_lt hs) (by omega)
      simp [hin, hn, hnone]
    · simp [hin, hi, h.unnumbered]
  · rw [hseq]
    split
    · exact hf g hg hfm
    · exact h.formatting hw g hg hfm i

theorem mountEntry_dir {s : State} (h : DirLaw s) (ha : Awake s) {i : Nat} {e : Entry} (hw : s.cwr.writer = .mounting)
    (hi : i = s.sdr.entries.length) {g : Geometry} (hg : s.sdr.geo = some g) (hlt : i < g.slotCount) (he : MountEntry e)
    (hf : g.format = true → e.sequence = none) : DirLaw (mountEntry i e s) := by
  simp only [mountEntry]
  refine mountStep_dir (s := { s with
    sdr := { s.sdr with entries := s.sdr.entries ++ [e] }
    cwr := { s.cwr with port := none } }) ⟨?_, ⟨?_, ?_⟩, h.mounting⟩ ha hw rfl ?_
  · refine QueuedLaw.of_nil ?_ (h.mounting hw) ?_
    · have := h.core.fewSlots g hg
      simp only [List.length_append, List.length_cons, List.length_nil]
      omega
    · intro x hx
      rcases List.mem_append.mp hx with hx | hx
      · exact (h.mountEntries hw hx).unqueued
      · rw [List.mem_singleton.mp hx]
        exact he.unqueued
  · have := h.core.append hw (k := (e.st, e.sequence)) he.quiet he.numbered fun g' hg' hfm => by
      have hg'' : s.sdr.geo = some g' := hg'
      rw [hg] at hg''
      cases hg''
      exact hf hfm
    simpa [slotsOf, keysOf] using this
  · exact CloseInOrder.of_writer (by simp [slotsOf, hw])
  · simp [hi]

end Sys2Proof.Machine
end

section
/-! The directory's laws and the transfers' ends: what a completed write does, and one that has failed (R87 to R140). -/

namespace Sys2Proof.Machine

open Slots

/-- The transfer under way fits. -/
theorem DirLaw.portFits {s : State} (h : DirLaw s) {x : Xfer} (hp : portOp s = some x) : (slotsOf s).Fits x := by
  obtain ⟨t, ht, rfl⟩ := Option.map_eq_some_iff.mp hp
  rw [← fits_view]
  exact (fits_work s).mpr h.core.fits t ht

/-- A slot of the directory joins the queue outside a mount. -/
theorem DirLaw.enqueue {s : State} (h : DirLaw s) (hw : s.cwr.writer ≠ .mounting) {i : Nat}
    (hi : i < s.sdr.entries.length) : DirLaw (enqueue i s) :=
  h.alike (slotsOf_enqueue i s) (enqueue_queued i s h.queued hi) fun hm => absurd hm hw

/-- A change of an entry's other fields. -/
theorem DirLaw.modEntry {s : State} (h : DirLaw s) (i : Nat) {f : Entry → Entry}
    (hf : ∀ e, (f e).st = e.st ∧ (f e).sequence = e.sequence ∧ (f e).queued = e.queued) : DirLaw (modEntry i f s) :=
  h.alike (slotsOf_modEntry i f s fun e => ⟨(hf e).1, (hf e).2.1⟩) (modEntry_queued i f s (fun e => (hf e).2.2) h.queued)
    fun _ => by simp

/-! ## Units and blocks (R87, R93, R123) -/

theorem unitWritten_dir {s : State} (h : DirLaw s) (i n : Nat) : DirLaw (unitWritten i n s) :=
  DirLaw.modEntry (s := { s with cbf := { s.cbf with segs := dropBytes n s.cbf.segs } }) (h.of_same rfl rfl rfl) i
    fun _ => ⟨rfl, rfl, rfl⟩

theorem blockWritten_dir {s : State} (h : DirLaw s) (i n : Nat) : DirLaw (blockWritten i n s) :=
  DirLaw.modEntry (s := { s with cbf := { s.cbf with pend := s.cbf.pend.drop n } }) (h.of_same rfl rfl rfl) i
    fun _ => ⟨rfl, rfl, rfl⟩

theorem countUnit_dir {s : State} (h : DirLaw s) (i : Nat) : DirLaw (countUnit i s) := by
  simp only [countUnit]
  split
  · next ho =>
    have hc : DirLaw { s with cwr := { s.cwr with units := s.cwr.units + 1 } } := h.of_same rfl rfl rfl
    split
    · refine hc.enqueue (fun hm => ?_) (openSlot_lt ho)
      rw [openSlot_view] at ho
      have hwr := h.core.openWriter i (slot_isIn ho)
      have hm' : (slotsOf s).writer = .mounting := hm
      simp [hm'] at hwr
    · exact hc
  · exact h

theorem unitDone_dir {s : State} (h : DirLaw s) (ha : Awake s) (i n : Nat) : DirLaw (unitDone i n s) := by
  have h1 : DirLaw (unitTaken (unitWritten i n (setPort none s))) :=
    (unitWritten_dir h.freePort i n).of_same rfl rfl rfl
  exact settle_dir (countUnit_dir h1 i) (by simpa [Awake] using ha)

theorem blockDone_dir {s : State} (h : DirLaw s) (ha : Awake s) (i n : Nat) : DirLaw (blockDone i n s) :=
  settle_dir ((blockWritten_dir h.freePort i n).of_same rfl rfl rfl) (by simpa [Awake] using ha)

theorem unitCompletion_dir {s : State} (h : DirLaw s) (ha : Awake s) : DirLaw (unitCompletion s) := by
  simp only [unitCompletion]
  split
  · exact unitDone_dir h ha _ _
  · exact h

/-! ## The commit (R128, R132, R178) -/

@[simp] theorem slotsOf_commitSlot (i : Nat) (reason : CloseReason) (spent : Nat) (unsaved : List Nat) (s : State) :
    slotsOf (commitSlot i reason spent unsaved s) = (slotsOf s).mark .closed i := by
  have hk : slotsOf (Sys2Proof.Machine.modEntry i (fun e => { e with st := .closed, reason := some reason })
      (loseRecords i s)) = (slotsOf s).mark .closed i := by
    rw [← slotsOf_loseRecords i s]
    simp only [slotsOf, Slots.mark, modEntry_rewritten]
    rw [keysOf_rewritten i (g := fun k => (SlotState.closed, k.2)) (fun _ => rfl)]
    simp
  simp only [commitSlot]
  split
  · exact hk
  · exact hk

theorem commitSlot_queued (i : Nat) (reason : CloseReason) (spent : Nat) (unsaved : List Nat) {s : State}
    (h : QueuedLaw s.sdr) : QueuedLaw (commitSlot i reason spent unsaved s).sdr := by
  have hk := modEntry_queued i (fun e => { e with st := .closed, reason := some reason }) _ (fun _ => rfl)
    (loseRecords_queued i s h)
  simp only [commitSlot]
  split
  · exact hk
  · exact hk

theorem Slots.writing_self {v : Slots} {w : Writer} (h : v.writer = w) : v.writing w = v := by
  subst h
  rfl

/-- R178: in an emergency close the commit leaves the OPEN slot, now CLOSING, or none to close. -/
theorem closeNext_dir {s : State} (h : DirLaw s) (ha : Awake s) (hw : s.cwr.writer = .emergencyClose)
    (hp : s.cwr.port = none) {i : Nat} (hc : (slotsOf s).slot .closing = some i) (reason : CloseReason) (spent : Nat)
    (unsaved : List Nat) : DirLaw (closeNext i (commitSlot i reason spent unsaved s)) := by
  have hx : (slotsOf s).work = none := by simp [slotsOf, hp]
  have hwv : (slotsOf s).writer = .emergencyClose := hw
  obtain ⟨sc, so⟩ := h.core.commit_slots hc
  have hv : SlotsCore ((slotsOf s).mark .closed i) := by
    have := h.core.commit (slot_isIn hc) hx (.inr rfl)
    rwa [Slots.writing_self (by simp [Slots.mark])] at this
  have hq := commitSlot_queued i reason spent unsaved h.queued
  have hs := slotsOf_commitSlot i reason spent unsaved s
  obtain ⟨c, hcl⟩ : ∃ c, s.ssv.close = some c := by
    obtain ⟨-, h2⟩ := h.slots.close ha hw
    obtain ⟨c, hcl, -⟩ := Option.map_eq_some_iff.mp h2
    exact ⟨c, hcl⟩
  obtain ⟨-, htodo⟩ := close_todo h ha hw hcl
  have hclu : (commitSlot i reason spent unsaved s).ssv.close = some c := by simpa using hcl
  have hwu : (commitSlot i reason spent unsaved s).cwr.writer = .emergencyClose := by simpa using hw
  generalize commitSlot i reason spent unsaved s = u at hq hs hclu hwu
  have hmod (rest : List Nat) : slotsOf (modClose (fun c => { c with todo := rest }) u) =
      { (slotsOf s).mark .closed i with todo := some rest } := by
    rw [← hs]
    simp [slotsOf, modClose, hclu]
  simp only [closeNext, hclu]
  cases ho : (slotsOf s).slot .opened with
  | none =>
      have hrest : c.todo.filter (fun j => j != i) = [] := by simp [htodo, hc, ho]
      rw [hrest]
      refine ⟨hq.of_same rfl rfl, ?_, ?_⟩
      · rw [hmod]
        have hv' := hv.closing (some []) ((slotsOf s).mark .closed i).asleep
        refine ⟨hv', fun _ _ => ?_⟩
        have sc' : ({ (slotsOf s).mark .closed i with todo := some [] } : Slots).slot .closing = none := sc
        have so' : ({ (slotsOf s).mark .closed i with todo := some [] } : Slots).slot .opened = none := so.trans ho
        exact ⟨fun _ => so', by simp [sc', so']⟩
      · intro hm
        simp [hwu] at hm
  | some k =>
      have hki : k ≠ i := fun hki => absurd (isIn_unique (slot_isIn ho) (hki ▸ slot_isIn hc)) (by simp)
      have hrest : c.todo.filter (fun j => j != i) = [k] := by simp [htodo, hc, ho, hki]
      rw [hrest]
      have hok : ((slotsOf s).mark .closed i).slot .opened = some k := so.trans ho
      obtain ⟨tc, tn⟩ := hv.stop_slots hok sc
      have hstop : SlotsCore (((slotsOf s).mark .closed i).mark .closing k) := by
        have := hv.stop (w := .emergencyClose) (slot_isIn hok) (slot_none.mp sc) (by simp) (.inl hx)
        rwa [Slots.writing_self (by simpa [Slots.mark] using hwv)] at this
      have hset : slotsOf (setSlotState .closing k (modClose (fun c => { c with todo := [k] }) u)) =
          { ((slotsOf s).mark .closed i).mark .closing k with todo := some [k] } := by
        rw [slotsOf_setSlotState, hmod]
        rfl
      refine ⟨setSlotState_queued .closing k _ (hq.of_same rfl rfl), ?_, ?_⟩
      · rw [hset]
        refine ⟨hstop.closing (some [k]) _, fun _ _ => ?_⟩
        have tc' : ({ ((slotsOf s).mark .closed i).mark .closing k with todo := some [k] } : Slots).slot .closing =
            some k := tc
        have tn' : ({ ((slotsOf s).mark .closed i).mark .closing k with todo := some [k] } : Slots).slot .opened =
            none := tn
        exact ⟨fun _ => tn', by simp [tc', tn']⟩
      · intro hm
        simp [hwu] at hm

theorem closedDone_dir {s : State} (h : DirLaw s) (ha : Awake s) {i : Nat} {reason : CloseReason}
    (hp : portOp s = some (.closedHeader i reason)) : DirLaw (closedDone i reason s) := by
  have hc : (slotsOf (setPort none s)).slot .closing = some i := h.portFits hp
  have h1 := h.freePort
  have ha1 : Awake (setPort none s) := ha
  have hx : (slotsOf (setPort none s)).work = none := rfl
  have hp1 : (setPort none s).cwr.port = none := rfl
  simp only [closedDone]
  generalize setPort none s = u at hc h1 ha1 hx hp1
  have hq := commitSlot_queued i reason 0 [] h1.queued
  have hs := slotsOf_commitSlot i reason 0 [] u
  have hwr : (commitSlot i reason 0 [] u).cwr.writer = u.cwr.writer := by simp
  refine settle_dir ?_ ?_
  · split
    · next hw =>
      rw [hwr] at hw
      have hv := h1.core.commit (w := .ready) (slot_isIn hc) hx (.inl ⟨hw, rfl⟩)
      rw [← hs] at hv
      refine DirLaw.of_same (s := setWriter .ready { commitSlot i reason 0 [] u with
        cwr := { (commitSlot i reason 0 [] u).cwr with closeReason := none } }) ?_ (by simp) (by simp) (by simp)
      exact ⟨hq.of_same rfl rfl, ⟨hv, CloseInOrder.of_writer (by simp [slotsOf, setWriter])⟩, by simp [setWriter]⟩
    · next hw =>
      rw [hwr] at hw
      exact closeNext_dir h1 ha1 hw hp1 hc reason 0 []
    · next hns hne =>
      rw [hwr] at hns hne
      have hroll : u.cwr.writer = .rolling := by
        obtain hr | hr | hr := h1.core.closingWriter i (slot_isIn hc)
        · exact absurd hr hns
        · exact hr
        · exact absurd hr hne
      have hv := h1.core.commit (slot_isIn hc) hx (.inr rfl)
      rw [Slots.writing_self (by simp [Slots.mark]), ← hs] at hv
      refine ⟨hq.of_same rfl rfl, ⟨hv, CloseInOrder.of_writer ?_⟩, fun hm => ?_⟩
      · have : (slotsOf (commitSlot i reason 0 [] u)).writer = .rolling := hwr.trans hroll
        show (slotsOf (commitSlot i reason 0 [] u)).writer ≠ _
        rw [this]
        simp
      · have hm' : (commitSlot i reason 0 [] u).cwr.writer = .mounting := hm
        simp [hroll] at hm'
  · split <;> simpa [Awake] using ha1

theorem emClosedDone_dir {s : State} (h : DirLaw s) (ha : Awake s) {i : Nat} (hp : portOp s = some (.emClosed i)) :
    DirLaw (emClosedDone i s) := by
  obtain ⟨hw, hc⟩ := h.portFits hp
  exact settle_dir (closeNext_dir h.freePort ha hw rfl hc .emergency _ _) (by simpa [Awake] using ha)

/-! ## An opening header (R121, R129) -/

theorem endRollover_dir {s : State} (h : DirLaw s) {i : Nat} (hw : s.cwr.writer = .rolling) (hp : s.cwr.port = none)
    (ho : openSlot s = some i) (hc : (slotsOf s).slot .closing = none) : DirLaw (endRollover i s) := by
  rw [openSlot_view] at ho
  have hwv : (slotsOf s).writer = .rolling := hw
  have hx : (slotsOf s).work = none := by simp [slotsOf, hp]
  simp only [endRollover]
  split
  · have hv : SlotsCore ((slotsOf s).writing .recording) :=
      h.core.writing (by simp [hwv, directoryUp]) rfl (fun _ _ => by simp)
        (fun j hj => absurd hj (slot_none.mp hc j)) (fun _ _ j hj => absurd hj (slot_none.mp hc j)) (.inl hx)
    exact ⟨h.queued.of_same rfl rfl, ⟨hv, CloseInOrder.of_writer (by simp [slotsOf, setWriter])⟩, by simp [setWriter]⟩
  · next reason hm =>
    have hv := h.core.stop (w := .stopping) (slot_isIn ho) (slot_none.mp hc) (by simp) (.inl hx)
    have hs : slotsOf (setSlotState .closing i { s with
        cwr := { s.cwr with closeReason := some reason, stopMark := none } }) = (slotsOf s).mark .closing i := by
      rw [slotsOf_setSlotState]; rfl
    have hq : QueuedLaw (setSlotState .closing i { s with
        cwr := { s.cwr with closeReason := some reason, stopMark := none } }).sdr := setSlotState_queued _ _ _ h.queued
    rw [← hs] at hv
    exact ⟨hq.of_same rfl rfl, ⟨hv, CloseInOrder.of_writer (by simp [slotsOf, setWriter])⟩, by simp [setWriter]⟩

theorem openingDone_dir {s : State} (h : DirLaw s) (ha : Awake s) {i : Nat} (hp : portOp s = some (.openingHeader i)) :
    DirLaw (openingDone i s) := by
  have h1 : DirLaw (modEntry i (fun e => { e with headerWritten := true }) (setPort none s)) :=
    h.freePort.modEntry i fun _ => ⟨rfl, rfl, rfl⟩
  have hs : slotsOf (modEntry i (fun e => { e with headerWritten := true }) (setPort none s)) = slotsOf (setPort none s) := by
    simp
  have hport : (modEntry i (fun e => { e with headerWritten := true }) (setPort none s)).cwr.port = none := by
    simp [setPort]
  have ha1 : Awake (modEntry i (fun e => { e with headerWritten := true }) (setPort none s)) := by
    simpa [Awake, setPort] using ha
  have hf := h.portFits hp
  simp only [openingDone]
  generalize modEntry i (fun e => { e with headerWritten := true }) (setPort none s) = u at h1 hs hport ha1
  have h2 : DirLaw (openedEvent i u) := h1.of_same (slotsOf_congr (by simp) (by simp) (by simp) (by simp) (by simp)
    (by simp) (by simp)) (by simp) (by simp)
  have hs2 : slotsOf (openedEvent i u) = slotsOf (setPort none s) := by
    rw [← hs]
    exact slotsOf_congr (by simp) (by simp) (by simp) (by simp) (by simp) (by simp) (by simp)
  have hport2 : (openedEvent i u).cwr.port = none := by simpa using hport
  have ha2 : Awake (openedEvent i u) := by simpa [Awake] using ha1
  generalize openedEvent i u = x at h2 hs2 hport2 ha2
  refine settle_dir ?_ ?_
  · split
    · next hr =>
      obtain ⟨hw, ho⟩ := hr
      refine endRollover_dir h2 hw hport2 ho ?_
      rw [openSlot_view, hs2] at ho
      rw [hs2]
      obtain hc | ⟨-, hc⟩ := hf
      · exact absurd (isIn_unique (slot_isIn ho) (slot_isIn (v := slotsOf (setPort none s)) hc)) (by simp)
      · exact hc
    · exact h2
  · split <;> simpa [Awake] using ha2

/-! ## The emergency close's own writes (R174 to R179) -/

theorem emDone_dir {s : State} (h : DirLaw s) (ha : Awake s) : DirLaw (emDone s) := by
  simp only [emDone]
  split
  · exact h
  · next t hp =>
    split
    · exact settle_dir h.freePort ha
    · exact unitDone_dir h ha _ _
    · exact blockDone_dir h ha _ _
    · next i ho => exact emClosedDone_dir h ha (by simp [portOp, hp, ho])
    · exact h

theorem emUpdateFailed_dir {s : State} (h : DirLaw s) (ha : Awake s) {i : Nat} (hw : s.cwr.writer = .emergencyClose)
    (hi : i < s.sdr.entries.length) : DirLaw (emUpdateFailed i s) := by
  have h1 : DirLaw (enqueue i (setPort none s)) := h.freePort.enqueue (by simp [setPort, hw]) hi
  exact settle_dir (h1.of_same (by simp) (by simp) (by simp)) (by simpa [Awake] using ha)

theorem emWriteFailed_dir {s : State} (h : DirLaw s) (ha : Awake s) : DirLaw (emWriteFailed s) :=
  settle_dir (h.freePort.of_same (by simp) (by simp) (by simp)) (by simpa [Awake] using ha)

/-! ## Failures (R126, R130, R135, R140, R179) -/

theorem mountFailed_dir (cause : CardCause) (s : State) : DirLaw (mountFailed cause s) :=
  (giveUpCard_dir (w := .unmounted) (by simp) s).of_same rfl rfl rfl

theorem transferFailed_dir {s : State} (h : DirLaw s) (ha : Awake s) {t : Transfer} (hp : s.cwr.port = some t) :
    DirLaw (transferFailed t s) := by
  have hf := h.portFits (x := t.op) (by simp [portOp, hp])
  have hlen := length_view s
  simp only [transferFailed]
  split
  · exact mountFailed_dir _ _
  · next i ho =>
    rw [ho] at hf
    obtain ⟨hw, hi, g, hg, hlt, -⟩ := hf
    exact mountEntry_dir h ha hw (hi.trans hlen) hg hlt mountEntry_bad fun _ => rfl
  · next i ho =>
    rw [ho] at hf
    obtain ⟨hw, hi, g, hg, hlt, -⟩ := hf
    exact mountEntry_dir h ha hw (hi.trans hlen) hg hlt mountEntry_bad fun _ => rfl
  · next i ho =>
    rw [ho] at hf
    split
    · next hw => exact emUpdateFailed_dir h ha (by simpa using hw) (hlen ▸ hf)
    · exact writerFault_dir _ _ _ _
  · split
    · exact emWriteFailed_dir h ha
    · exact writerFault_dir _ _ _ _
  · exact writerFault_dir _ _ _ _
  · split
    · exact emWriteFailed_dir h ha
    · exact writerFault_dir _ _ _ _
  · split
    · exact emWriteFailed_dir h ha
    · exact writerFault_dir _ _ _ _
  · have h1 (u : State) (hu : DirLaw u) (hau : Awake u) : DirLaw (settle (setPort none u)) := settle_dir hu.freePort hau
    split
    · exact h1 _ (h.of_same (by simp) (by simp) (by simp)) (by simpa [Awake] using ha)
    · exact h1 s h ha
  · next i ho =>
    rw [ho] at hf
    exact emUpdateFailed_dir h ha hf.1 (hlen ▸ hf.2)
  · exact emWriteFailed_dir h ha
  · exact emWriteFailed_dir h ha
  · exact writerFault_dir _ _ _ _

theorem attemptFailed_dir {s : State} (h : DirLaw s) (ha : Awake s) : DirLaw (attemptFailed s) := by
  simp only [attemptFailed]
  split
  · exact h
  · next t hp =>
    split
    · refine h.of_same ?_ rfl rfl
      exact slotsOf_congr rfl rfl (by simp [setPort, workOf, hp]) rfl rfl rfl rfl
    · exact transferFailed_dir h ha hp

theorem attemptTimeout_dir {s : State} (h : DirLaw s) (ha : Awake s) : DirLaw (attemptTimeout s) := by
  simp only [attemptTimeout]
  repeat' split
  · exact h
  · exact attemptFailed_dir h ha
  · exact h

theorem emFailed_dir {s : State} (h : DirLaw s) (ha : Awake s) : DirLaw (emFailed s) := by
  simp only [emFailed]
  split
  · exact h
  · next t hp =>
    split
    · exact transferFailed_dir h ha hp
    · exact transferFailed_dir h ha hp
    · exact transferFailed_dir h ha hp
    · exact transferFailed_dir h ha hp
    · exact h

/-! ## Host reads, and the card's presence -/

theorem readDone_dir {s : State} (h : DirLaw s) (ha : Awake s) (wanted : Bool) (blocks : List Byte) :
    DirLaw (readDone wanted blocks s) := by
  simp only [readDone]
  split
  · exact settle_dir (h.freePort.of_same rfl rfl rfl) ha
  · exact settle_dir h.freePort ha

theorem removed_dir {s : State} (h : DirLaw s) : DirLaw (removed s) := by
  simp only [removed]
  repeat' split
  · exact h.of_same rfl rfl rfl
  · exact (giveUpCard_dir (w := .unmounted) (by simp)
      (endUnmount .state (endMotionRead .noCard (setPresent false s)))).of_same (by simp) (by simp) (by simp)
  · exact h

end Sys2Proof.Machine
end

section
/-! The third law of O58: every step keeps the directory's laws, and the obligation assembled from its three laws. -/

namespace Sys2Proof.Machine

open Slots

/-- What leaves the directory, the writer, the transfer and the close keeps the laws. -/
theorem DirLaw.of_kept {s t : State} (h : DirLaw s)
    (k : t.sdr = s.sdr ∧ t.cwr.writer = s.cwr.writer ∧ t.cwr.port = s.cwr.port ∧ t.ssv.close = s.ssv.close ∧
      t.rst.active = s.rst.active) : DirLaw t := by
  obtain ⟨kd, kw, kp, kc, ka⟩ := k
  exact h.of_same (slotsOf_congr (by rw [kd]) kw (by rw [kp]) (by rw [kd]) (by rw [kd]) ka (by rw [kc])) (by rw [kd])
    (by rw [kd])

theorem DirLaw.answer {s : State} (h : DirLaw s) (kind tag : Byte) (status : Status) (data : List Byte) :
    DirLaw (answer kind tag status data s) := h.of_kept ⟨rfl, rfl, rfl, rfl, rfl⟩

/-! ## Frames (R27 to R36, R90) -/

theorem admitRecord_dir {s : State} (h : DirLaw s) (slot : Nat) (r : FrameRecord) : DirLaw (admitRecord slot r s) := by
  have h1 : DirLaw (modEntry slot (fun e => { e with firstFrame := some r.frame }) s) :=
    h.modEntry slot fun _ => ⟨rfl, rfl, rfl⟩
  simp only [admitRecord]
  split
  · exact h1.of_kept ⟨rfl, rfl, rfl, rfl, rfl⟩
  · exact h.of_kept ⟨rfl, rfl, rfl, rfl, rfl⟩

theorem intake_dir {s : State} (h : DirLaw s) (r : FrameRecord) : DirLaw (intake r s) := by
  simp only [intake]
  repeat' split
  · exact h
  · exact h.modEntry _ fun _ => ⟨rfl, rfl, rfl⟩
  · exact admitRecord_dir h _ r
  · exact h

theorem takeSample_dir {s : State} (h : DirLaw s) (ha : Awake s) (n : Word) : DirLaw (takeSample n s) := by
  have h1 : DirLaw { s with csu := { s.csu with
      ring := pushRing s.csu.ring (recordOf n s), carried := Carried.empty, sample := none } } :=
    h.of_kept ⟨rfl, rfl, rfl, rfl, rfl⟩
  have h2 := intake_dir h1 (recordOf n s)
  simp only [takeSample, produce]
  exact settle_dir (DirLaw.of_kept h2 (by simp)) (by simpa [Awake] using ha)

theorem forceSample_dir {s : State} (h : DirLaw s) (ha : Awake s) : DirLaw (forceSample s) := by
  simp only [forceSample]
  split
  · exact h
  · exact takeSample_dir h ha _

theorem countFrame_dir {s : State} (h : DirLaw s) (ha : Awake s) : DirLaw (countFrame s) := by
  simp only [countFrame]
  have h1 : DirLaw { s with csu := { s.csu with frame := s.csu.frame + 1 } } := h.of_kept ⟨rfl, rfl, rfl, rfl, rfl⟩
  repeat' split
  · exact h1
  · exact takeSample_dir h1 ha _
  · exact h.of_kept ⟨rfl, rfl, rfl, rfl, rfl⟩

theorem fsyncStep_dir {s : State} (h : DirLaw s) (ha : Awake s) : DirLaw (fsyncStep s) :=
  countFrame_dir ((forceSample_dir h ha).of_kept (by simp)) (by simpa [Awake] using ha)

theorem cropStep_dir {s : State} (h : DirLaw s) (ha : Awake s) : DirLaw (cropStep s) := by
  simp only [cropStep]
  repeat' split
  · exact h
  · exact takeSample_dir h ha _
  · exact h

/-! ## The tick (R19) -/

theorem requestLocks_dir {s : State} (h : DirLaw s) : DirLaw (requestLocks s).1 := by
  simp only [requestLocks]
  split
  · next hw =>
    obtain ⟨hk, hq⟩ := lockRequest_kept s.now s.msu.tickImp.pre s.msu.tickImp.post s
    exact h.alike hk (hq h.queued) fun hm => by simp [hm, locksImpacts] at hw
  · exact h

theorem impact_dir {s : State} (h : DirLaw s) (ha : Awake s) : DirLaw (impact s) := by
  simp only [impact]
  refine settle_dir (DirLaw.of_kept (requestLocks_dir (s := startPark { s with msu := holdRearm s.msu s.now })
    (h.of_kept (by simp))) (by simp)) (by simpa [Awake] using ha)

theorem tickStep_dir {s : State} (h : DirLaw s) (ha : Awake s) : DirLaw (tickStep s) := by
  have hwork : DirLaw (tickWork s) := by
    simp only [tickWork]
    generalize hu : learnBias (carry _ _) = u
    have h1 : DirLaw u := h.of_kept (by simp [← hu])
    have ha1 : Awake u := by simpa [Awake, ← hu] using ha
    have h2 : DirLaw (if impactNow s.msu = true then impact u else u) := by
      split
      · exact impact_dir h1 ha1
      · exact h1
    generalize (if impactNow s.msu = true then impact u else u) = x at h2
    exact h2.of_kept (by (repeat' split) <;> simp)
  simp only [tickStep]
  refine DirLaw.of_kept (s := if s.msu.read = .idle then s else tickWork s) ?_ (by simp)
  split
  · exact h
  · exact hwork

/-! ## The guard and the rail -/

theorem tripGuard_dir {s : State} (h : DirLaw s) (ha : Awake s) (cause : Trip) : DirLaw (tripGuard cause s) := by
  simp only [tripGuard]
  refine settle_dir (DirLaw.of_kept (askStop_dir (h.of_kept (t := addParkAll .guard (setGuard .tripped (some cause) none s))
    (by simp)) .guard) (by simp)) (by simpa [Awake] using ha)

theorem checkIn_dir {s : State} (h : DirLaw s) (ha : Awake s) : DirLaw (checkIn s) := by
  simp only [checkIn]
  split
  · exact h
  · exact tripGuard_dir h ha _
  · exact h.of_kept (by simp)
  · exact h.of_kept (by simp)

theorem windowExpiry_dir {s : State} (h : DirLaw s) (ha : Awake s) : DirLaw (windowExpiry s) := by
  simp only [windowExpiry]
  split
  · exact tripGuard_dir h ha _
  · exact h

theorem rideExpiry_dir {s : State} (h : DirLaw s) (ha : Awake s) : DirLaw (rideExpiry s) := by
  simp only [rideExpiry]
  split
  · split
    · next hw => exact settle_dir (startClose_dir (h.of_kept (by simp)) (by simpa using hw)) (by simpa [Awake] using ha)
    · exact h.of_kept (by simp)
  · exact h

/-! ## The requests -/

theorem startMount_dir {s : State} {g : Geometry} (hg : g.slotCount ≤ 256) : DirLaw (startMount g s) := by
  refine ⟨QueuedLaw.of_nil (Nat.zero_le _) rfl fun _ he => absurd he List.not_mem_nil, ⟨SlotsCore.of_nil rfl ?_ ?_, ?_⟩,
    fun _ => rfl⟩
  · intro x hx
    have : some g = some x := hx
    cases this
    exact hg
  · intro x hx
    have : some Xfer.identify = some x := hx
    cases this
    exact ⟨rfl, rfl⟩
  · exact CloseInOrder.of_writer (by simp [slotsOf, startMount, Sys2Proof.Machine.begin, setPort, setWriter])

theorem mountReq_dir {s : State} (h : DirLaw s) (tag : Byte) (base len regionId : Word) (units motion : Half)
    (quota format : Byte) : DirLaw (mountReq tag base len regionId units motion quota format s) := by
  simp only [mountReq]
  repeat' split
  · exact h.answer _ _ _ _
  · exact h.answer _ _ _ _
  · exact (startMount_dir (by simp [geometryOf])).answer _ _ _ _

theorem slotLockReq_dir {s : State} (h : DirLaw s) (ha : Awake s) (code tag : Byte) (on : Bool) (slot : Half)
    (kind : Byte) : DirLaw (slotLockReq code tag on slot kind s) := by
  simp only [slotLockReq]
  split
  · exact h.answer _ _ _ _
  · split
    · exact h.answer _ _ _ _
    · next hup =>
      have hset (l : LockSet) : DirLaw (setLocks slot.toNat l s) := by
        obtain ⟨hk, hq⟩ := setLocks_kept slot.toNat l s
        exact h.alike hk (hq h.queued) fun hm => by simp [hm, directoryUp] at hup
      repeat' split
      · exact h.answer _ _ _ _
      · exact h.answer _ _ _ _
      · exact h.answer _ _ _ _
      · exact settle_dir ((hset _).answer _ _ _ _) (by simpa [Awake] using ha)

theorem beginRead_dir {s : State} (h : DirLaw s) (ha : Awake s) (tag : Byte) (i k n : Nat) :
    DirLaw (beginRead tag i k n s) := settle_dir (h.of_kept ⟨rfl, rfl, rfl, rfl, rfl⟩) ha

theorem setCursor_dir {s : State} (h : DirLaw s) (c : Option Cursor) : DirLaw (setCursor c s) :=
  h.of_kept ⟨rfl, rfl, rfl, rfl, rfl⟩

theorem readStart_dir {s : State} (h : DirLaw s) (ha : Awake s) (tag : Byte) (i n : Nat) (e : Entry) :
    DirLaw (readStart tag i n e s) := by
  simp only [readStart]
  repeat' split
  · exact h.answer _ _ _ _
  · exact (setCursor_dir h none).answer _ _ _ _
  · exact beginRead_dir (setCursor_dir h (some ⟨i, 0, false⟩)) ha _ _ _ _

theorem readContinue_dir {s : State} (h : DirLaw s) (ha : Awake s) (tag : Byte) (i n : Nat) (e : Entry) :
    DirLaw (readContinue tag i n e s) := by
  simp only [readContinue]
  repeat' split
  · exact h.answer _ _ _ _
  · exact h.answer _ _ _ _
  · exact (setCursor_dir h none).answer _ _ _ _
  · exact beginRead_dir h ha _ _ _ _

theorem motionReadReq_dir {s : State} (h : DirLaw s) (ha : Awake s) (tag : Byte) (slot : Half) (mode count : Byte) :
    DirLaw (motionReadReq tag slot mode count s) := by
  simp only [motionReadReq]
  repeat' split
  · exact h.answer _ _ _ _
  · exact h.answer _ _ _ _
  · exact h.answer _ _ _ _
  · exact h.answer _ _ _ _
  · exact readContinue_dir h ha _ _ _ _
  · exact readStart_dir h ha _ _ _ _

theorem runRequest_dir (i : Instr) {s : State} (h : DirLaw s) (ha : Awake s) : DirLaw (runRequest i s) := by
  cases i
  case checkin tag => exact (checkIn_dir h ha).of_kept (by simp [runRequest, checkinReq])
  case mount => exact mountReq_dir h _ _ _ _ _ _ _ _
  case unmount =>
    simp only [runRequest, unmountReq]
    split
    · exact settle_dir (h.of_kept (by simp)) ha
    · exact h.of_kept (by simp)
  case recStart => exact recStartReq_dir h ha _
  case recStop =>
    simp only [runRequest, recStopReq]
    split
    · exact settle_dir ((askStop_dir h .stop).of_kept (by simp)) (by simpa [Awake] using ha)
    · exact h.of_kept (by simp)
  case data => exact dataReq_dir h ha _ _
  case slotLockOn | slotLockOff => exact slotLockReq_dir h ha _ _ _ _ _
  case motionRead => exact motionReadReq_dir h ha _ _ _ _
  case supplySet tag ride budget =>
    have hset : DirLaw { s with ssv := { s.ssv with
        rideMs := clampNat 1 32 ride.toNat, budget := clampNat 8 255 budget.toNat } } :=
      h.of_kept ⟨rfl, rfl, rfl, rfl, rfl⟩
    exact hset.answer _ _ _ _
  all_goals exact h.of_kept (by simp [runRequest])

theorem takeFrame_dir (bytes : List Byte) {s : State} (h : DirLaw s) (ha : Awake s) : DirLaw (takeFrame bytes s) := by
  simp only [takeFrame]
  split
  · exact runRequest_dir _ h ha
  all_goals exact h.of_kept ⟨rfl, rfl, rfl, rfl, rfl⟩

/-! ## Resets (R165, R197 to R201) -/

/-- R197: a reset cuts off the transfer under way, and leaves the slots. -/
theorem beginReset_dir (c : ResetCause) {s : State} (h : DirLaw s) : DirLaw (beginReset c s) := by
  simp only [beginReset]
  split
  · next ha => exact h.of_same (slotsOf_congr rfl rfl rfl rfl rfl rfl rfl) rfl rfl
  · have hv := h.core.idle.closing none true
    refine ⟨h.queued, ⟨hv, fun ha => ?_⟩, h.mounting⟩
    have : true = false := ha
    cases this

/-- R103: a reset leaves no slots. -/
theorem afterReset_dir {s : State} (hd : s.sdr = Sdr.reset) (hw : s.cwr.writer = .unmounted) (hp : s.cwr.port = none) :
    DirLaw s := by
  refine ⟨hd ▸ QueuedLaw.of_nil (Nat.zero_le _) rfl fun _ he => absurd he List.not_mem_nil,
    ⟨SlotsCore.of_nil (by simp [slotsOf, hd, Sdr.reset, keysOf]) (by simp [slotsOf, hd, Sdr.reset]) ?_,
      CloseInOrder.of_writer (by simp [slotsOf, hw])⟩, fun _ => by rw [hd]; rfl⟩
  simp [slotsOf, hp]

theorem finishReset_dir {s : State} (h : DirLaw s) : DirLaw (finishReset s) := by
  have hpow : DirLaw (powerOnState s) := afterReset_dir rfl rfl rfl
  simp only [finishReset, rideAtStart]
  repeat' split
  · exact hpow.of_kept (by simp)
  · exact hpow
  · exact afterReset_dir rfl rfl rfl
  · exact h

theorem requestReset_dir {s : State} (h : DirLaw s) : DirLaw (requestReset s) := finishReset_dir (beginReset_dir .request h)

theorem readTransaction_dir (n : Nat) {s : State} (h : DirLaw s) : DirLaw (readTransaction n s) := by
  have hl : DirLaw { s with lnk := linkAfterRead n s.lnk } := h.of_kept ⟨rfl, rfl, rfl, rfl, rfl⟩
  simp only [readTransaction]
  split
  · exact (requestReset_dir hl).of_kept ⟨rfl, rfl, rfl, rfl, rfl⟩
  · exact hl

/-! ## The rows -/

theorem rowEffect_dir (i : Instr) {s : State} (ha : Awake s ∨ movesInReset i = true) (h : DirLaw s) :
    DirLaw (rowEffect i s) := by
  cases i
  case brownout =>
    simp only [rowEffect, brownout]
    split
    · exact h
    · exact (beginReset_dir .brownout h).of_kept ⟨rfl, rfl, rfl, rfl, rfl⟩
  case railBelowPowerOnLevel =>
    simp only [rowEffect, belowPowerOnLevel]
    split
    · exact (beginReset_dir .powerOn h).of_kept ⟨rfl, rfl, rfl, rfl, rfl⟩
    · exact h
  case powerOnResetEnd =>
    simp only [rowEffect, supplyBack]
    repeat' split
    · exact finishReset_dir (h.of_kept ⟨rfl, rfl, rfl, rfl, rfl⟩)
    · exact h
    · exact h.of_kept (by simp only [riseToWarn]; split <;> simp)
    · exact h
  case rstnLow =>
    simp only [rowEffect, lineFalls]
    split
    · exact h
    · exact (beginReset_dir .line h).of_kept ⟨rfl, rfl, rfl, rfl, rfl⟩
  case rstnHigh =>
    simp only [rowEffect, lineRises]
    split
    · exact finishReset_dir (h.of_kept ⟨rfl, rfl, rfl, rfl, rfl⟩)
    · exact h
  case resetWaitExpiry =>
    simp only [rowEffect, waitExpiry]
    repeat' split
    · exact h
    · exact requestReset_dir h
    · exact h
  case readTransaction => exact readTransaction_dir _ h
  case cdetChange | ocComparatorChange => exact h.of_kept (by simp [rowEffect])
  case railBelowWarn | railRecover | railBelowRecover =>
    simp only [rowEffect]
    (repeat' split) <;> exact h.of_kept (by simp)
  all_goals have ha : Awake s := ha.resolve_right (by simp [movesInReset])
  case writeTransaction =>
    simp only [rowEffect]
    repeat' split
    · exact h
    · exact readTransaction_dir _ h
    · exact takeFrame_dir _ h ha
  case tick => exact tickStep_dir h ha
  case sensorLost | sensorRestored | biasLearned | impactQualify =>
    simp only [rowEffect]
    exact stepThat_keeps h (tickStep_dir h ha)
  case batteryAbsent | batteryPresent | sourcePresent | sourceLost | iEffRaise | chargeDone =>
    exact stepThat_keeps h (h.of_kept (by simp))
  case fsyncEdge => exact fsyncStep_dir h ha
  case cropSample => exact cropStep_dir h ha
  case checkpoint =>
    simp only [rowEffect]
    exact stepThat_keeps h (unitCompletion_dir h ha)
  case unitWriteDone => exact unitCompletion_dir h ha
  case bringUpDone capacity =>
    simp only [rowEffect]
    split
    · next hp =>
      obtain ⟨hw, hk⟩ := h.portFits hp
      simp only [broughtUp]
      repeat' split
      · exact h
      · exact mountFailed_dir _ _
      · exact mountStep_dir h.freePort ha hw rfl (by rw [← length_view]; exact (congrArg List.length hk).symm)
    · exact h
  case formatHeaderDone =>
    simp only [rowEffect]
    split
    · next i hp =>
      obtain ⟨hw, hi, g, hg, hlt, -⟩ := h.portFits hp
      exact mountEntry_dir h ha hw (by rw [← length_view]; exact hi) hg hlt mountEntry_free fun _ => rfl
    · exact h
  case scanReadDone =>
    simp only [rowEffect]
    split
    · next i g hp hg =>
      split
      · obtain ⟨hw, hi, g', hg', hlt, hf⟩ := h.portFits hp
        have hgg : some g = some g' := hg.symm.trans hg'
        cases hgg
        exact mountEntry_dir h ha hw (by rw [← length_view]; exact hi) hg hlt (mountEntry_classify g _) (by simp [hf])
      · exact h
    · exact h
  case blockWriteDone =>
    simp only [rowEffect]
    split
    · exact blockDone_dir h ha _ _
    · exact h
  case headerUpdateDone =>
    simp only [rowEffect]
    split
    · exact settle_dir h.freePort ha
    · exact h
  case openingHeaderDone =>
    simp only [rowEffect]
    split
    · next hp => exact openingDone_dir h ha hp
    · exact h
  case closedHeaderDone =>
    simp only [rowEffect]
    split
    · next hp => exact closedDone_dir h ha hp
    · exact h
  case hostReadDone =>
    simp only [rowEffect]
    repeat' split
    · exact h
    · exact readDone_dir h ha _ _
    · exact h
    · exact h
  case cardAttemptFailed => exact attemptFailed_dir h ha
  case cardAttemptTimeout => exact attemptTimeout_dir h ha
  case motionReadTimeout =>
    simp only [rowEffect, motionTimeout]
    repeat' split
    · exact h.of_same (by simp) (by simp) (by simp)
    · exact h
    · exact h
  case cardRemoved => exact removed_dir h
  case rideThroughExpiry => exact rideExpiry_dir h ha
  case emergencyWriteDone => exact emDone_dir h ha
  case emergencyWriteFailed => exact emFailed_dir h ha
  case windowTimerExpiry => exact windowExpiry_dir h ha
  case sensorReadDone | rearmHoldExpiry | impactParkExpiry | frameGetTimeout | pwmPeriodStart | overcurrentFault |
      retryDelayExpiry | cleanRunExpiry | cardInserted | stableTimeReached | quietTimerExpiry | scanConversion =>
    exact h.of_kept (by simp [rowEffect])
  all_goals
    simp only [rowEffect]
    exact runRequest_dir _ h ha

/-- The third law of O58: every step keeps the directory's laws. -/
theorem step_directoryLaw {s t : State} (hs : DirectoryLaw s) (h : step s = .next t) : DirectoryLaw t := by
  rw [directoryLaw_iff] at hs ⊢
  exact step_keeps (fun _ _ h => h.of_kept ⟨rfl, rfl, rfl, rfl, rfl⟩) (fun _ h => h.of_kept ⟨rfl, rfl, rfl, rfl, rfl⟩)
    (fun i _ ha h => rowEffect_dir i ha h) hs h

/-- Settles O58: the settings, the sizes and the directory's laws are kept, each law by every row's effect. -/
theorem settingsAndSizesAreKept : Obligations.SettingsAndSizesAreKept :=
  ⟨fun _ _ hs h => step_settingsLaw hs h, fun _ _ hs h => step_sizeLaw hs h, fun _ _ hs h => step_directoryLaw hs h⟩

end Sys2Proof.Machine
end

section
/-! O22 refuted: the tick that qualifies an impact grants the port at the part time the tick ends with, and has moved
part time on by then. -/

namespace Sys2Proof.Machine

/-- Every transfer the arbiter grants begins at the part time of the state the arbiter finds. -/
theorem grantOf_began {g : Geometry} {u : State} {x : Transfer} (h : grantOf g u = some x) : x.began = u.now := by
  have header {op : Xfer} {bytes : Entry → List Byte} {i : Nat} {y : Transfer}
      (hy : headerTransfer op bytes g i u = some y) : y.began = u.now := by
    obtain ⟨e, -, rfl⟩ := Option.map_eq_some_iff.mp hy
    rfl
  have read {y : Transfer} (hy : readTransfer g u = some y) : y.began = u.now := by
    simp only [readTransfer] at hy
    split at hy
    · cases hy; rfl
    · cases hy
  have data {y : Transfer} (hy : dataTransfer g u = some y) : y.began = u.now := by
    simp only [dataTransfer] at hy
    split at hy
    all_goals
      obtain hm | ⟨-, hm⟩ := Option.or_eq_some_iff.mp hy
      all_goals
        obtain ⟨o, -, rfl⟩ := Option.map_eq_some_iff.mp hm
        rfl
  simp only [grantOf, Option.or_eq_some_iff] at h
  obtain hu | ⟨-, hc | ⟨-, ho | ⟨-, he | ⟨-, hd | ⟨-, hr⟩⟩⟩⟩⟩ := h
  · obtain ⟨i, -, hi⟩ := Option.bind_eq_some_iff.mp hu
    exact header hi
  · obtain ⟨i, -, hi⟩ := Option.bind_eq_some_iff.mp hc
    exact header hi
  · obtain ⟨i, -, hi⟩ := Option.bind_eq_some_iff.mp ho
    exact header hi
  · split at he
    · exact read he
    · cases he
  · exact data hd
  · exact read hr

/-- A sample above the threshold that stands after a reset. -/
def hardSample : Sample := ⟨⟨0, 0, 0⟩, 18000, 4000, 2000⟩

/-- A recording in slot 0, its opening header on card, the port free and the quota with room for one lock; the tick under
way has read the last sample that the impact count asks for. -/
def aboutToStrike : State :=
  { State.reset with
    msu := { State.reset.msu with read := .good hardSample, qCount := 7 }
    cwr := { State.reset.cwr with writer := .recording, present := true }
    sdr := { Sdr.reset with
      geo := some ⟨0, 260, 0, 1, 1, 1, false, 130, 2⟩
      entries := [{ openedEntry 1 1 0 freeEntry with headerWritten := true }, freeEntry]
      nextSeq := some 2
      nextRec := 2 } }

/-- No slot of it carries IMPACT. -/
theorem aboutToStrike_unlocked : LocksSequenced aboutToStrike.sdr.entries := by
  have hnone : ∀ e ∈ aboutToStrike.sdr.entries, e.locks.impact = false := by decide
  refine ⟨fun e he hl => by simp [hnone e he] at hl, fun j k hj => ?_⟩
  simp only [holdsImpact] at hj
  cases he : aboutToStrike.sdr.entries[j]? with
  | none => simp [he] at hj
  | some e => simp [he, hnone e (List.mem_of_getElem? he)] at hj

/-- The OPEN slot is the only numbered one: none comes before it in its recording. -/
theorem aboutToStrike_alone (j : Nat) :
    ¬ ((aboutToStrike.now - 0).toNat < aboutToStrike.msu.tickImp.pre * 4096 ∧
      ∃ y p, aboutToStrike.sdr.entries[j]? = some y ∧ y.sequence = some p ∧ p < 1 ∧ y.recId = some 1 ∧
        ∀ k z r, aboutToStrike.sdr.entries[k]? = some z → z.sequence = some r → r < 1 → r < p ∨ (r = p ∧ j ≤ k)) := by
  rintro ⟨-, y, p, hy, hp, hlt, -, -⟩
  have hone : ∀ e ∈ aboutToStrike.sdr.entries, e.sequence = some 1 ∨ e.sequence = none := by decide
  obtain h1 | h1 := hone y (List.mem_of_getElem? hy) <;> rw [hp] at h1
  · cases h1
    exact absurd hlt (by decide)
  · cases h1

/-- The tick grants the port to the header update of the slot it locks, at part time 0, and leaves part time at 1. -/
theorem tickStep_aboutToStrike :
    (tickStep aboutToStrike).cwr.port.map (fun x => (x.op, x.began)) = some (.headerUpdate 0, 0) ∧
      (tickStep aboutToStrike).now = 1 ∧ (tickStep aboutToStrike).sdr.geo = aboutToStrike.sdr.geo :=
  ⟨rfl, rfl, rfl⟩

/-- Refutes O22: its last clause has the arbiter find the state at the tick's new part time, where the grant made within
the tick's work has begun its transfer at the part time before, so that with the port free and the locked slot's header
due (`aboutToStrike`) the transfer granted and the one asked for differ in the time they began. -/
theorem not_impactQualifies : ¬ Obligations.ImpactQualifies := by
  unfold Obligations.ImpactQualifies
  rintro ⟨h, -⟩
  have portLaw : PortLaw aboutToStrike := ⟨by decide, fun tag ht => by cases ht⟩
  obtain ⟨t, -, ht, -, -, -, -, -, -, -, -, -, -, hlocks⟩ :=
    h aboutToStrike hardSample rfl portLaw rfl rfl (by decide) (by decide)
  have htick : t = tickStep aboutToStrike := (Host.Outcome.next.inj ht).symm
  obtain ⟨-, -, -, -, _, -, -, hgrant⟩ :=
    hlocks 0 _ 0 1 rfl rfl rfl rfl aboutToStrike_unlocked [0] (.inl ⟨rfl, aboutToStrike_alone⟩)
  subst htick
  obtain ⟨hop, hnow, hgeo⟩ := tickStep_aboutToStrike
  obtain ⟨x, hx, hbegan⟩ := Option.map_eq_some_iff.mp hop
  obtain ⟨hport, -, -⟩ := hgrant rfl _ hgeo
  have hlate : x.began = 1 := (grantOf_began (hport.symm.trans hx)).trans hnow
  have htimely : x.began = 0 := (Prod.mk.inj hbegan).2
  exact absurd (hlate.symm.trans htimely) (by decide)

end Sys2Proof.Machine
end

section
/-! What every operation leaves of the ACTIVE channels: outside a park, a halt and a fault none of them is left (R57 to
R68). -/

namespace Sys2Proof.Machine

set_option linter.unnecessarySeqFocus false
set_option linter.unusedTactic false
set_option linter.unreachableTactic false

/-- Every channel that is ACTIVE in `a` is ACTIVE in `b`. -/
def StaysActive (a b : PerChan Channel) : Prop := ∀ c, (chanGet a c).st = .active → (chanGet b c).st = .active

@[simp] theorem StaysActive.refl (a : PerChan Channel) : StaysActive a a := fun _ h => h

variable {a : PerChan Channel} {s : State}

/-- A channel replaced by one that is ACTIVE where it was. -/
theorem StaysActive.set {b : PerChan Channel} (h : StaysActive a b) (c : Chan) {ch : Channel}
    (hc : (chanGet b c).st = .active → ch.st = .active) : StaysActive a (chanSet b c ch) := by
  intro d hd
  rw [chanGet_chanSet]
  split
  · next hdc => exact hc (hdc ▸ h d hd)
  · exact h d hd

/-! ## Channels -/

@[simp] theorem removePark_active (r : ParkReason) (c : Chan) (h : StaysActive a s.adu) :
    StaysActive a (removePark r c s).adu := by
  simp only [removePark]
  split
  · exact h.set c fun _ => rfl
  · exact h.set c id

@[simp] theorem removeParkAll_active (r : ParkReason) (h : StaysActive a s.adu) :
    StaysActive a (removeParkAll r s).adu :=
  removePark_active r .rt (removePark_active r .sy (removePark_active r .sx h))

@[simp] theorem enableChannel_active (c : Chan) (h : StaysActive a s.adu) :
    StaysActive a (enableChannel c s).adu := by
  simp only [enableChannel]
  split
  case h_1 hc | h_2 hc | h_3 hc => exact h.set c fun ha => absurd (ha.symm.trans hc) (by decide)
  all_goals exact h.set c id

@[simp] theorem storeGroup_active (p q : Nat) (c : Chan) (h : StaysActive a s.adu) :
    StaysActive a (storeGroup p q c s).adu := h.set c id

/-- The operation on the named channels leaves what each channel's leaves. -/
theorem forMask_active {f : Chan → State → State} (hf : ∀ c u, StaysActive a u.adu → StaysActive a (f c u).adu)
    (m : PerChan Bool) (h : StaysActive a s.adu) : StaysActive a (forMask m f s).adu :=
  forMask_keeps (P := fun u => StaysActive a u.adu) hf m h

@[simp] theorem actEnableOnReq_active (tag mask : Byte) (h : StaysActive a s.adu) :
    StaysActive a (actEnableOnReq tag mask s).adu := by
  simp only [actEnableOnReq]
  repeat' split
  iterate 3 simpa using h
  simpa using forMask_active (fun c _ hu => enableChannel_active c hu) _ h

@[simp] theorem actGroupReq_active (tag mask prescaler : Byte) (period : Half) (h : StaysActive a s.adu) :
    StaysActive a (actGroupReq tag mask prescaler period s).adu := by
  simp only [actGroupReq]
  repeat' split
  iterate 2 simpa using h
  simpa using forMask_active (fun c _ hu => storeGroup_active _ _ c hu) _ h

@[simp] theorem actParkOffReq_active (tag mask : Byte) (h : StaysActive a s.adu) :
    StaysActive a (actParkOffReq tag mask s).adu := by
  simp only [actParkOffReq]
  split
  · simpa using h
  · simpa using forMask_active (fun c _ hu => removePark_active .host c hu) _ h

@[simp] theorem actSetReq_active (tag chan prescaler : Byte) (period limit : Half)
    (delay retry attempts retryDelay : Byte) (h : StaysActive a s.adu) :
    StaysActive a (actSetReq tag chan prescaler period limit delay retry attempts retryDelay s).adu := by
  simp only [actSetReq]
  repeat' split
  iterate 2 simpa using h
  exact h.set _ id

@[simp] theorem retryExpiry_active (c : Chan) (h : StaysActive a s.adu) : StaysActive a (retryExpiry c s).adu := by
  simp only [retryExpiry]
  split
  · next hc => exact h.set c fun ha => absurd (ha.symm.trans hc.1) (by decide)
  · exact h

@[simp] theorem cleanExpiry_active (c : Chan) (h : StaysActive a s.adu) : StaysActive a (cleanExpiry c s).adu := by
  simp only [cleanExpiry]
  repeat' split
  · exact h
  · exact h.set c id
  · exact h

/-! ## The supply and the settling of the port -/

@[simp] theorem removeSupply_active (h : StaysActive a s.adu) : StaysActive a (removeSupply s).adu := by
  simp [removeSupply, h]

@[simp] theorem toNormal_active (kind : SupplyKind) (h : StaysActive a s.adu) : StaysActive a (toNormal kind s).adu := by
  simp [toNormal, h]

@[simp] theorem checkStable_active (h : StaysActive a s.adu) : StaysActive a (checkStable s).adu := by
  simp only [checkStable]; split <;> simp [h]

@[simp] theorem writerFault_active (slot addr : Nat) (kind : WriteKind) (h : StaysActive a s.adu) :
    StaysActive a (writerFault slot addr kind s).adu := by
  simp [writerFault, h]

@[simp] theorem closeEnd_active (h : StaysActive a s.adu) : StaysActive a (closeEnd s).adu := by
  simp only [closeEnd]; split <;> simp [h]

@[simp] theorem closeSlots_active (c : EmergencyClose) (h : StaysActive a s.adu) :
    StaysActive a (closeSlots c s).adu := by
  simp only [closeSlots]; split <;> simp [h]

@[simp] theorem closeUpdates_active (c : EmergencyClose) (h : StaysActive a s.adu) :
    StaysActive a (closeUpdates c s).adu := by
  simp only [closeUpdates]; (repeat' split) <;> simp [h]

@[simp] theorem closeAdvance_active (h : StaysActive a s.adu) : StaysActive a (closeAdvance s).adu := by
  simp only [closeAdvance]; (repeat' split) <;> simp [h]

@[simp] theorem settle_active (h : StaysActive a s.adu) : StaysActive a (settle s).adu := by
  simp only [settle]; (repeat' split) <;> simp [h]

/-! ## The card -/

@[simp] theorem unmountReq_active (tag : Byte) (h : StaysActive a s.adu) : StaysActive a (unmountReq tag s).adu := by
  simp only [unmountReq]; split <;> simp [h]

@[simp] theorem recStopReq_active (tag : Byte) (h : StaysActive a s.adu) : StaysActive a (recStopReq tag s).adu := by
  simp only [recStopReq]; split <;> simp [h]

@[simp] theorem recStartReq_active (tag : Byte) (h : StaysActive a s.adu) : StaysActive a (recStartReq tag s).adu := by
  simp only [recStartReq, recStartWith]; (repeat' split) <;> simp [h]

@[simp] theorem dataReq_active (tag : Byte) (bytes : List Byte) (h : StaysActive a s.adu) :
    StaysActive a (dataReq tag bytes s).adu := by
  simp only [dataReq]; (repeat' split) <;> simp [h]

@[simp] theorem slotLockReq_active (code tag : Byte) (on : Bool) (slot : Half) (kind : Byte) (h : StaysActive a s.adu) :
    StaysActive a (slotLockReq code tag on slot kind s).adu := by
  simp only [slotLockReq]; (repeat' split) <;> simp [h]

@[simp] theorem motionReadReq_active (tag : Byte) (slot : Half) (mode count : Byte) (h : StaysActive a s.adu) :
    StaysActive a (motionReadReq tag slot mode count s).adu := by
  simp only [motionReadReq, readContinue, readStart, beginRead]; (repeat' split) <;> simp [h]

@[simp] theorem mountStep_active (i : Nat) (h : StaysActive a s.adu) : StaysActive a (mountStep i s).adu := by
  simp only [mountStep, completeFormat, completeScan, completeMount]; (repeat' split) <;> simp [h]

@[simp] theorem mountEntry_active (i : Nat) (e : Entry) (h : StaysActive a s.adu) :
    StaysActive a (mountEntry i e s).adu := by
  simp [mountEntry, h]

@[simp] theorem broughtUp_active (capacity : Nat) (h : StaysActive a s.adu) :
    StaysActive a (broughtUp capacity s).adu := by
  simp only [broughtUp]; (repeat' split) <;> simp [h]

@[simp] theorem unitDone_active (i n : Nat) (h : StaysActive a s.adu) : StaysActive a (unitDone i n s).adu := by
  simp [unitDone, h]

@[simp] theorem unitCompletion_active (h : StaysActive a s.adu) : StaysActive a (unitCompletion s).adu := by
  simp only [unitCompletion]; split <;> simp [h]

@[simp] theorem blockDone_active (i n : Nat) (h : StaysActive a s.adu) : StaysActive a (blockDone i n s).adu := by
  simp [blockDone, h]

@[simp] theorem openingDone_active (i : Nat) (h : StaysActive a s.adu) : StaysActive a (openingDone i s).adu := by
  simp only [openingDone]; split <;> simp [h]

@[simp] theorem closedDone_active (i : Nat) (reason : CloseReason) (h : StaysActive a s.adu) :
    StaysActive a (closedDone i reason s).adu := by
  simp only [closedDone]; split <;> simp [h]

@[simp] theorem emDone_active (h : StaysActive a s.adu) : StaysActive a (emDone s).adu := by
  simp only [emDone, emClosedDone]; (repeat' split) <;> simp [h]

@[simp] theorem transferFailed_active (t : Transfer) (h : StaysActive a s.adu) :
    StaysActive a (transferFailed t s).adu := by
  simp only [transferFailed, emUpdateFailed, emWriteFailed]; (repeat' split) <;> simp [h]

@[simp] theorem attemptFailed_active (h : StaysActive a s.adu) : StaysActive a (attemptFailed s).adu := by
  simp only [attemptFailed]; (repeat' split) <;> simp [h]

@[simp] theorem attemptTimeout_active (h : StaysActive a s.adu) : StaysActive a (attemptTimeout s).adu := by
  simp only [attemptTimeout]; (repeat' split) <;> simp [h]

@[simp] theorem emFailed_active (h : StaysActive a s.adu) : StaysActive a (emFailed s).adu := by
  simp only [emFailed]; (repeat' split) <;> simp [h]

@[simp] theorem readDone_active (wanted : Bool) (blocks : List Byte) (h : StaysActive a s.adu) :
    StaysActive a (readDone wanted blocks s).adu := by
  simp only [readDone]; (repeat' split) <;> simp [h]

@[simp] theorem removed_active (h : StaysActive a s.adu) : StaysActive a (removed s).adu := by
  simp only [removed]; (repeat' split) <;> simp [h]

/-! ## Frames, the rail and the guard -/

@[simp] theorem takeSample_active (n : Word) (h : StaysActive a s.adu) : StaysActive a (takeSample n s).adu := by
  simp [takeSample, produce, h]

@[simp] theorem forceSample_active (h : StaysActive a s.adu) : StaysActive a (forceSample s).adu := by
  simp only [forceSample]; split <;> simp [h]

@[simp] theorem countFrame_active (h : StaysActive a s.adu) : StaysActive a (countFrame s).adu := by
  simp only [countFrame]; (repeat' split) <;> simp [h]

@[simp] theorem cropStep_active (h : StaysActive a s.adu) : StaysActive a (cropStep s).adu := by
  simp only [cropStep]; (repeat' split) <;> simp [h]

@[simp] theorem riseToRecover_active (h : StaysActive a s.adu) : StaysActive a (riseToRecover s).adu := by
  simp only [riseToRecover]; (repeat' split) <;> simp [h]

@[simp] theorem rideExpiry_active (h : StaysActive a s.adu) : StaysActive a (rideExpiry s).adu := by
  simp only [rideExpiry]; (repeat' split) <;> simp [h]

@[simp] theorem restoreGuard_active (kind : Byte) (h : StaysActive a s.adu) : StaysActive a (restoreGuard kind s).adu := by
  simp only [restoreGuard]; split <;> simp [h]

@[simp] theorem guardSetReq_active (tag : Byte) (quiet window : Half) (h : StaysActive a s.adu) :
    StaysActive a (guardSetReq tag quiet window s).adu := by
  simp only [guardSetReq]; split <;> simp [h]

@[simp] theorem parkExpiry_active (h : StaysActive a s.adu) : StaysActive a (parkExpiry s).adu := by
  simp only [parkExpiry]; split <;> simp [h]

end Sys2Proof.Machine
end

section
/-! First law (R22): where a step that is not 0 may stand. -/

namespace Sys2Proof.Machine

/-! ## What keeps the law -/

/-- A state in which every step is 0 obeys the law. -/
theorem stepLaw_of_zero {s : State} (h : s.csu.step = ⟨0, 0, 0⟩) : StepLaw s := by
  intro c hc
  exact absurd (by rw [h]; cases c <;> rfl) hc

/-- One channel's law reads its step and state, the stabilization state and the context in force. -/
theorem StepLawOn.of_kept {c : Chan} {s t : State} (h : StepLawOn c s)
    (hv : chanGet t.csu.step c = chanGet s.csu.step c) (hs : s.msu.stab = .running → t.msu.stab = .running)
    (ha : (chanGet s.adu c).st = .active → (chanGet t.adu c).st = .active) (hf : activeFields t = activeFields s) :
    StepLawOn c t := by
  intro hc
  obtain ⟨hrun, hact, f, hf', hmode, hgain, hle⟩ := h (hv ▸ hc)
  exact ⟨hs hrun, ha hact, f, hf ▸ hf', hmode, hgain, hv ▸ hle⟩

/-- A state with the steps, the stabilization state and the contexts of one that obeys the law, in which no ACTIVE
channel has been left, obeys it. -/
theorem StepLaw.of_kept {s t : State} (h : StepLaw s)
    (k : t.csu.step = s.csu.step ∧ t.msu.stab = s.msu.stab ∧ t.ctx = s.ctx ∧ StaysActive s.adu t.adu) : StepLaw t := by
  obtain ⟨hv, hs, hc, ha⟩ := k
  exact fun c => (h c).of_kept (by rw [hv]) (fun hr => hs.trans hr) (ha c) (by rw [activeFields, hc]; rfl)

theorem StepLaw.carry {s : State} (h : StepLaw s) (k : Carried) : StepLaw (carry k s) := h.of_kept (by simp)

theorem StepLaw.answer {s : State} (h : StepLaw s) (kind tag : Byte) (status : Status) (data : List Byte) :
    StepLaw (answer kind tag status data s) := h.of_kept (by simp)

theorem StepLaw.raise {s : State} (h : StepLaw s) (d : Detail) : StepLaw (raise d s) := h.of_kept (by simp)

/-- Outside RUNNING every step is 0, so the state may then become RUNNING. -/
theorem StepLaw.of_stab {s t : State} (h : StepLaw s)
    (k : t.csu.step = s.csu.step ∧ (s.msu.stab = .running → t.msu.stab = .running) ∧ t.ctx = s.ctx ∧ t.adu = s.adu) :
    StepLaw t := by
  obtain ⟨hv, hs, hc, ha⟩ := k
  exact fun c => (h c).of_kept (by rw [hv]) hs (by rw [ha]; exact id) (by rw [activeFields, hc]; rfl)

/-- Outside RUNNING the law says that the step is 0, whatever else changes. -/
theorem StepLaw.of_standing {s t : State} (h : StepLaw s) (hs : s.msu.stab ≠ .running)
    (hv : t.csu.step = s.csu.step) : StepLaw t := fun c hc => absurd (h c (hv ▸ hc)).1 hs

/-! ## Channels that stop driving (R57) -/

/-- R57: a channel that leaves ACTIVE loses its step. -/
theorem moveChannel_stepLaw (c : Chan) (ch : Channel) {s : State} (h : StepLaw s) : StepLaw (moveChannel c ch s) := by
  obtain ⟨st, ab, heq, hadu, hst, -⟩ := moveChannel_spec c ch s
  have hstep : (moveChannel c ch s).csu.step = st := by rw [heq]
  intro d
  by_cases hleft : d = c ∧ (chanGet s.adu c).st = .active ∧ ch.st ≠ .active
  · intro hne
    exact absurd (by rw [hstep, hst, if_pos hleft]) hne
  · refine (h d).of_kept (by rw [hstep, hst, if_neg hleft]) (by simp) (fun ha => ?_) (by simp [activeFields])
    rw [hadu]
    split
    · next hdc =>
      subst hdc
      have hch : ch.st = .active := Classical.not_not.mp fun hn => hleft ⟨rfl, ha, hn⟩
      simp [hch]
    · exact ha

theorem addPark_stepLaw (r : ParkReason) (c : Chan) {s : State} (h : StepLaw s) : StepLaw (addPark r c s) := by
  simp only [addPark]
  split
  · exact moveChannel_stepLaw _ _ h
  · exact h.of_kept ⟨rfl, rfl, rfl, (StaysActive.refl _).set c id⟩

theorem addParkAll_stepLaw (r : ParkReason) {s : State} (h : StepLaw s) : StepLaw (addParkAll r s) :=
  addPark_stepLaw r .rt (addPark_stepLaw r .sy (addPark_stepLaw r .sx h))

theorem thermalShutdown_stepLaw (temp : Int) {s : State} (h : StepLaw s) : StepLaw (thermalShutdown temp s) := by
  simp only [thermalShutdown]
  split
  · exact (forMask_keeps (fun c _ hu => moveChannel_stepLaw c _ hu) _ h).raise _
  · exact h

theorem overcurrentStep_stepLaw (c : Chan) (cycles : Nat) {s : State} (h : StepLaw s) :
    StepLaw (overcurrentStep c cycles s) := by
  simp only [overcurrentStep, qualifyFault]
  repeat' split
  · exact (moveChannel_stepLaw c _ h).raise _
  · exact ((moveChannel_stepLaw c _ h).raise _).raise _
  · exact h.of_kept ⟨rfl, rfl, rfl, (StaysActive.refl _).set c id⟩
  · exact h

/-- R68: a conversion can shut the channels down, and touches them in no other way. -/
theorem scanStep_stepLaw (r : Reading) {s : State} (h : StepLaw s) : StepLaw (scanStep r s) := by
  have hdie (before : DieZone) {u : State} (hu : StepLaw u) : StepLaw (dieChanged before u) := by
    simp only [dieChanged]
    repeat' split
    · exact hu
    · exact thermalShutdown_stepLaw _ (hu.of_kept (by simp))
    · exact hu.of_kept (by simp)
  have hconv : StepLaw (convert r s) := by
    simp only [convert, convertTDie]
    split
    case h_8 => exact (hdie (dieZone s.scn.die) (h.of_kept (t := { s with
        scn := dieReading (readingIn (-400) 1500 r) s.scn }) (by simp))).of_kept (by simp)
    all_goals exact h.of_kept (by simp)
  exact hconv.of_kept (by simp [scanStep])

theorem addSupply_stepLaw {s : State} (h : StepLaw s) : StepLaw (addSupply s) :=
  (addParkAll_stepLaw .supply h).of_kept (by simp [addSupply])

theorem startRide_stepLaw {s : State} (h : StepLaw s) : StepLaw (startRide s) := by
  simp only [startRide, supplyEvent]
  exact (addSupply_stepLaw (h.of_kept (by simp))).raise _

theorem fallBelowWarn_stepLaw {s : State} (h : StepLaw s) : StepLaw (fallBelowWarn s) := by
  simp only [fallBelowWarn]
  split
  · exact startRide_stepLaw (h.of_kept (by simp))
  · exact h.of_kept (by simp)

theorem tripGuard_stepLaw (cause : Trip) {s : State} (h : StepLaw s) : StepLaw (tripGuard cause s) := by
  simp only [tripGuard]
  exact (addParkAll_stepLaw .guard (h.of_kept (t := setGuard .tripped (some cause) none s) (by simp))).of_kept (by simp)

theorem checkIn_stepLaw {s : State} (h : StepLaw s) : StepLaw (checkIn s) := by
  simp only [checkIn]
  split
  · exact h
  · exact tripGuard_stepLaw _ h
  · exact h.of_kept (by simp)
  · exact h.of_kept (by simp)

theorem windowExpiry_stepLaw {s : State} (h : StepLaw s) : StepLaw (windowExpiry s) := by
  simp only [windowExpiry]
  split
  · exact tripGuard_stepLaw _ h
  · exact h

/-! ## Steps formed anew (R21, R25) -/

theorem natAbs_clampAbs_le (x : Nat) (z : Int) : (clampAbs x z).natAbs ≤ x := by
  simp only [clampAbs]
  repeat' split
  all_goals omega

/-- R22: what is required of a step that is not forced to 0. -/
theorem forcedZero_eq_false {f : CtxFields} {c : Chan} {st : ChanState} {stab : Stab} :
    forcedZero f c st stab = false ↔ f.mode ≠ 1#8 ∧ axisOf f.gain c ≠ 0#16 ∧ st = .active ∧ stab = .running := by
  simp [forcedZero, and_assoc]

/-- R22: a channel with the step 0 obeys the law. -/
theorem stepLawOn_of_zero {c : Chan} {s : State} (h : chanGet s.csu.step c = 0) : StepLawOn c s := fun hc => absurd h hc

theorem setStep_stepLawOn {f : CtxFields} {c : Chan} {v ab : Int} {s : State} (hf : activeFields s = some f)
    (hz : forcedZero f c (chanGet s.adu c).st s.msu.stab = false) (hv : v.natAbs ≤ (axisOf f.travel c).toNat) :
    StepLawOn c (setStep c v ab s) := by
  obtain ⟨hmode, hgain, hact, hrun⟩ := forcedZero_eq_false.mp hz
  exact fun _ => ⟨by simpa using hrun, by simpa using hact, f, by simpa [activeFields] using hf, hmode, hgain,
    by simpa using hv⟩

/-- A step set on one channel leaves the law of the others. -/
theorem setStep_stepLawOn_ne {c d : Chan} {v ab : Int} {s : State} (h : StepLawOn d s) (hd : d ≠ c) :
    StepLawOn d (setStep c v ab s) :=
  h.of_kept (by simp [hd]) (by simp) (by simp [hd]) (by simp [activeFields])

theorem stepValue_le (f : CtxFields) (c : Chan) (h r : Int) :
    (stepValue f c h r).natAbs ≤ (axisOf f.travel c).toNat := by
  rw [stepValue]
  exact natAbs_clampAbs_le _ _

/-- R21, R22: a tick forms a channel's step within the law. -/
theorem splitChan_stepLawOn (r : PerAxis Int) (c : Chan) (s : State) : StepLawOn c (splitChan r c s) := by
  simp only [splitChan]
  split
  · exact stepLawOn_of_zero (by simp [zeroStep])
  · next f hf =>
    cases hz : forcedZero f c (chanGet s.adu c).st s.msu.stab with
    | true => exact stepLawOn_of_zero (by simp)
    | false =>
        simp only [Bool.false_eq_true, if_false]
        exact setStep_stepLawOn hf hz (stepValue_le f c _ _)

theorem splitChan_stepLawOn_ne (r : PerAxis Int) {c d : Chan} {s : State} (h : StepLawOn d s) (hd : d ≠ c) :
    StepLawOn d (splitChan r c s) := by
  simp only [splitChan]
  split <;> exact setStep_stepLawOn_ne h hd

/-- R21, R22: whatever stood before, the steps a tick forms obey the law. -/
theorem splitTick_stepLaw (r : PerAxis Int) (s : State) : StepLaw (splitTick r s) := by
  have hx := splitChan_stepLawOn r .sx s
  have hy := splitChan_stepLawOn r .sy (splitChan r .sx s)
  intro c
  cases c
  · exact splitChan_stepLawOn_ne r (splitChan_stepLawOn_ne r hx (by decide)) (by decide)
  · exact splitChan_stepLawOn_ne r hy (by decide)
  · exact splitChan_stepLawOn r .rt _

/-- R25: a commit brings a channel's step within the law of the new context. -/
theorem recommitChan_stepLawOn {f : CtxFields} {s : State} (hf : activeFields s = some f) (c : Chan) :
    StepLawOn c (recommitChan f c s) := by
  simp only [recommitChan]
  split
  · exact stepLawOn_of_zero (by simp [zeroStep])
  · next hz =>
    obtain ⟨hmode, hgain, hact, hrun⟩ := forcedZero_eq_false.mp (Bool.eq_false_iff.mpr hz)
    exact fun _ => ⟨hrun, hact, f, hf, hmode, hgain, by simpa using natAbs_clampAbs_le _ _⟩

theorem recommitChan_stepLawOn_ne (f : CtxFields) {c d : Chan} {s : State} (h : StepLawOn d s) (hd : d ≠ c) :
    StepLawOn d (recommitChan f c s) := by
  simp only [recommitChan]
  split
  · exact setStep_stepLawOn_ne h hd
  · exact h.of_kept (by simp [hd]) id id rfl

theorem recommitSteps_stepLaw {f : CtxFields} {s : State} (hf : activeFields s = some f) :
    StepLaw (recommitSteps f s) := by
  have hf1 : activeFields (recommitChan f .sx s) = some f := by simpa [activeFields] using hf
  have hf2 : activeFields (recommitChan f .sy (recommitChan f .sx s)) = some f := by simpa [activeFields] using hf
  intro c
  cases c
  · exact recommitChan_stepLawOn_ne f (recommitChan_stepLawOn_ne f (recommitChan_stepLawOn hf .sx) (by decide)) (by decide)
  · exact recommitChan_stepLawOn_ne f (recommitChan_stepLawOn hf1 .sy) (by decide)
  · exact recommitChan_stepLawOn hf2 .rt

/-! ## Switches of context and the stabilization state -/

theorem runIfHealthy_stepLaw {s : State} (h : StepLaw s) : StepLaw (runIfHealthy s) :=
  h.of_stab (by simp only [runIfHealthy]; split <;> simp)

/-- R25, R48: after a commit the steps stand within the new context's travel. -/
theorem commit_stepLaw (i : CtxIx) (ret : Bool) (s : State) : StepLaw (commit i ret s) := by
  obtain ⟨ha, hf⟩ := commitPoint_active i ret s.msu.path s.ctx
  simp only [commit]
  exact runIfHealthy_stepLaw (((recommitSteps_stepLaw (by simp [activeFields, ha, hf])).carry _).raise _)

theorem attemptSwitch_stepLaw (i : CtxIx) (ret : Bool) {s : State} (h : StepLaw s) : StepLaw (attemptSwitch i ret s) := by
  simp only [attemptSwitch]
  split
  · exact fun c => (h c).of_kept (by simp) (by simp) (by simp) (by simp [activeFields])
  · exact commit_stepLaw i ret s

theorem commitPending_stepLaw {s : State} (h : StepLaw s) : StepLaw (commitPending s) := by
  simp only [commitPending]
  split
  · exact h
  · exact attemptSwitch_stepLaw _ _ h

theorem selectCtx_stepLaw (kind tag : Byte) (i : CtxIx) (ret : Bool) {s : State} (h : StepLaw s) :
    StepLaw (selectCtx kind tag i ret s) := by
  simp only [selectCtx]
  repeat' split
  · exact h.of_kept (by simp)
  · exact h.of_kept (by simp)
  · exact fun c => (h c).of_kept (by simp) (by simp) (by simp) (by simp [activeFields])
  · exact (attemptSwitch_stepLaw i ret h).of_kept (by simp)

theorem ctxSelectReq_stepLaw (tag index : Byte) {s : State} (h : StepLaw s) : StepLaw (ctxSelectReq tag index s) := by
  simp only [ctxSelectReq]
  split
  · exact h.of_kept (by simp)
  · exact selectCtx_stepLaw _ _ _ _ h

theorem ctxReturnReq_stepLaw (tag : Byte) {s : State} (h : StepLaw s) : StepLaw (ctxReturnReq tag s) := by
  simp only [ctxReturnReq]
  repeat' split
  iterate 3 exact h.of_kept (by simp)
  exact selectCtx_stepLaw _ _ _ _ h

end Sys2Proof.Machine
end

section
/-! First law (R22): every step of the part keeps it. -/

namespace Sys2Proof.Machine

/-! ## The stabilization state, frames and resets -/

/-- R22: with every step 0, a switch that ends leaves the law. -/
theorem commitPending_zeroSteps_stepLaw (s : State) : StepLaw (commitPending (zeroSteps s)) :=
  commitPending_stepLaw (stepLaw_of_zero rfl)

theorem enterOff_stepLaw {s : State} (h : StepLaw s) (hs : s.msu.stab ≠ .running) : StepLaw (enterOff s) :=
  h.of_standing hs (by simp)

theorem runOff_stepLaw {s : State} (h : StepLaw s) : StepLaw (runOff s) := by
  simp only [runOff]
  split
  · exact h
  · next hs => exact enterOff_stepLaw h (by simp [hs])
  · exact commitPending_zeroSteps_stepLaw _

theorem runOn_stepLaw {s : State} (h : StepLaw s) : StepLaw (runOn s) :=
  h.of_stab (by simp only [runOn]; split <;> simp [*])

theorem stabSetReq_stepLaw (tag run learn still : Byte) {s : State} (h : StepLaw s) :
    StepLaw (stabSetReq tag run learn still s) := by
  simp only [stabSetReq]
  split
  · next go on _ _ =>
    set u : State := { s with msu := setLearning on (clampNat 1 255 still.toNat) s.msu } with hu
    have hl : StepLaw u := h.of_kept (by simp [hu, setLearning_eq])
    have hv : StepLaw (if go = true then runOn u else runOff u) := by
      split
      · exact runOn_stepLaw hl
      · exact runOff_stepLaw hl
    exact hv.of_kept (by simp)
  · exact h.of_kept (by simp)

theorem ctxWriteReq_stepLaw (tag index : Byte) (fields : CtxFields) {s : State} (h : StepLaw s) :
    StepLaw (ctxWriteReq tag index fields s) := by
  simp only [ctxWriteReq]
  split
  · exact h.of_kept (by simp)
  · next i _ =>
    split
    · exact h.of_kept (by simp)
    · next hb =>
      have ha : s.ctx.active ≠ some i := fun ha => hb (by simp [ctxBusy, ha])
      refine fun c => (h c).of_kept rfl id id ?_
      simp only [activeFields, answer_frame, ctxSet_active]
      cases hs : s.ctx.active with
      | none => rfl
      | some j =>
          have hj : j ≠ i := fun e => ha (e ▸ hs)
          simp [ctxGet_ctxSet, hj]

theorem fsyncStep_stepLaw {s : State} (h : StepLaw s) : StepLaw (fsyncStep s) := by
  have hf : StepLaw (forceSample s) := h.of_kept (by simp)
  exact (commitPending_stepLaw hf).of_kept (t := countFrame _) (by simp)

theorem beginReset_stepLaw (c : ResetCause) {s : State} (h : StepLaw s) : StepLaw (beginReset c s) := by
  simp only [beginReset, cutOff]
  split
  · exact h.of_kept (by simp)
  · exact fun c => (h c).of_kept rfl id (by cases c <;> exact id) (by simp [activeFields])

/-- The part right after any reset stands with every step 0. -/
theorem finishReset_stepLaw {s : State} (h : StepLaw s) : StepLaw (finishReset s) := by
  simp only [finishReset, rideAtStart]
  repeat' split
  · exact startRide_stepLaw (stepLaw_of_zero rfl)
  · exact stepLaw_of_zero rfl
  · exact stepLaw_of_zero rfl
  · exact h

theorem requestReset_stepLaw {s : State} (h : StepLaw s) : StepLaw (requestReset s) :=
  finishReset_stepLaw (beginReset_stepLaw _ h)

/-! ## The tick -/

theorem leaveRunning_stepLaw {s : State} (h : StepLaw s) : StepLaw (leaveRunning s) := by
  simp only [leaveRunning]
  split
  · exact commitPending_zeroSteps_stepLaw _
  · exact h

theorem sensorLost_stepLaw {s : State} (h : StepLaw s) : StepLaw (sensorLost s) :=
  leaveRunning_stepLaw (h.of_kept (by simp))

theorem sensorRestored_stepLaw {s : State} (h : StepLaw s) : StepLaw (sensorRestored s) := by
  simp only [sensorRestored]
  split
  · exact runIfHealthy_stepLaw (h.raise _)
  · exact h.raise _

/-- R21: a tick forms every step anew; what follows in it can only make them 0. -/
theorem tickWork_stepLaw (s : State) : StepLaw (tickWork s) := by
  simp only [tickWork]
  generalize (if impactNow s.msu = true then impact _ else _) = u
  have hs := splitTick_stepLaw (ratesOf s.msu) u
  generalize splitTick _ _ = v at hs
  have hl : StepLaw (if lostNow s.msu = true then sensorLost v else v) := by
    split
    · exact sensorLost_stepLaw hs
    · exact hs
  split
  · exact sensorRestored_stepLaw hl
  · exact hl

theorem tickStep_stepLaw {s : State} (h : StepLaw s) : StepLaw (tickStep s) := by
  have hw : StepLaw (if s.msu.read = .idle then s else tickWork s) := by
    split
    · exact h
    · exact tickWork_stepLaw s
  exact hw.of_kept (t := passTick _) (by simp)

/-! ## Every row -/

theorem runRequest_stepLaw (i : Instr) {s : State} (h : StepLaw s) : StepLaw (runRequest i s) := by
  cases i
  case stabSet => exact stabSetReq_stepLaw _ _ _ _ h
  case ctxWrite => exact ctxWriteReq_stepLaw _ _ _ h
  case ctxSelect => exact ctxSelectReq_stepLaw _ _ h
  case ctxReturn => exact ctxReturnReq_stepLaw _ h
  case checkin => exact (checkIn_stepLaw h).of_kept (t := checkinReq _ s) (by simp [checkinReq])
  case actEnableOff =>
    simp only [runRequest, actEnableOffReq]
    split
    · exact h.of_kept (by simp)
    · exact (forMask_keeps (fun c _ hu => moveChannel_stepLaw c _ hu) _ h).answer _ _ _ _
  case actParkOn =>
    simp only [runRequest, actParkOnReq]
    split
    · exact h.of_kept (by simp)
    · exact (forMask_keeps (fun c _ hu => addPark_stepLaw .host c hu) _ h).answer _ _ _ _
  case biasSet => exact h.of_kept (t := biasSetReq _ _ _ _ s) (by simp [biasSetReq])
  case impactSet => exact h.of_kept (t := impactSetReq _ _ _ _ _ _ _ s) (by simp [impactSetReq])
  all_goals exact h.of_kept (by simp [runRequest])

theorem takeFrame_stepLaw (bytes : List Byte) {s : State} (h : StepLaw s) : StepLaw (takeFrame bytes s) := by
  simp only [takeFrame, errorReply]
  split
  · exact runRequest_stepLaw _ h
  all_goals exact h.of_kept (by simp)

theorem readTransaction_stepLaw (n : Nat) {s : State} (h : StepLaw s) : StepLaw (readTransaction n s) := by
  have hl : StepLaw { s with lnk := linkAfterRead n s.lnk } := h.of_kept (by simp)
  simp only [readTransaction]
  split
  · exact (requestReset_stepLaw hl).of_kept (by simp)
  · exact hl

theorem rowEffect_stepLaw (i : Instr) {s : State} (h : StepLaw s) : StepLaw (rowEffect i s) := by
  have ht := tickStep_stepLaw h
  cases i
  case tick => exact ht
  case sensorLost | sensorRestored | biasLearned | impactQualify => exact stepThat_keeps h ht
  case fsyncEdge => exact fsyncStep_stepLaw h
  case readTransaction => exact readTransaction_stepLaw _ h
  case writeTransaction =>
    simp only [rowEffect]
    repeat' split
    · exact h
    · exact readTransaction_stepLaw _ h
    · exact takeFrame_stepLaw _ h
  case pwmPeriodStart | ocComparatorChange => exact h.of_kept ⟨rfl, rfl, rfl, (StaysActive.refl _).set _ id⟩
  case overcurrentFault => exact overcurrentStep_stepLaw _ _ h
  case scanConversion => exact scanStep_stepLaw _ h
  case batteryAbsent | batteryPresent | sourcePresent | sourceLost | iEffRaise | chargeDone =>
    exact stepThat_keeps h (scanStep_stepLaw _ h)
  case checkpoint => exact stepThat_keeps h (h.of_kept (by simp))
  case railBelowWarn =>
    simp only [rowEffect]
    split
    · exact h.of_kept (by simp)
    · exact fallBelowWarn_stepLaw h
  case windowTimerExpiry => exact windowExpiry_stepLaw h
  case brownout =>
    simp only [rowEffect, brownout]
    split
    · exact h
    · exact (beginReset_stepLaw .brownout h).of_kept (by simp)
  case railBelowPowerOnLevel =>
    simp only [rowEffect, belowPowerOnLevel]
    split
    · exact (beginReset_stepLaw .powerOn h).of_kept (by simp)
    · exact h
  case powerOnResetEnd =>
    simp only [rowEffect, supplyBack]
    repeat' split
    · exact finishReset_stepLaw (h.of_kept (by simp))
    · exact h
    · exact h.of_kept (by simp only [riseToWarn]; split <;> simp)
    · exact h
  case rstnLow =>
    simp only [rowEffect, lineFalls]
    split
    · exact h
    · exact (beginReset_stepLaw .line h).of_kept (by simp)
  case rstnHigh =>
    simp only [rowEffect, lineRises]
    split
    · exact finishReset_stepLaw (h.of_kept (by simp))
    · exact h
  case resetWaitExpiry =>
    simp only [rowEffect, waitExpiry]
    repeat' split
    · exact h
    · exact requestReset_stepLaw h
    · exact h
  case bringUpDone | formatHeaderDone | scanReadDone | blockWriteDone | headerUpdateDone | openingHeaderDone |
      closedHeaderDone | hostReadDone | railRecover | railBelowRecover =>
    simp only [rowEffect]
    (repeat' split) <;> exact h.of_kept (by simp)
  case sensorReadDone | rearmHoldExpiry | impactParkExpiry | cropSample | frameGetTimeout | retryDelayExpiry |
      cleanRunExpiry | cardAttemptFailed | cardAttemptTimeout | unitWriteDone | motionReadTimeout | cdetChange |
      cardInserted | cardRemoved | rideThroughExpiry | emergencyWriteDone | emergencyWriteFailed | stableTimeReached |
      quietTimerExpiry =>
    exact h.of_kept (by simp [rowEffect])
  all_goals exact runRequest_stepLaw _ h

/-- Settles O24: a tick and a commit form every step within the law; a channel that leaves ACTIVE, and a part that leaves
RUNNING, lose their steps with it; nothing else touches a step, and no other row takes a channel out of ACTIVE. -/
theorem stepLawIsKept : Obligations.StepLawIsKept := fun _ _ =>
  step_keeps (fun _ _ h => h.of_kept (by simp)) (fun _ h => h.of_kept (by simp [refuse]))
    (fun i _ _ h => rowEffect_stepLaw i h)

end Sys2Proof.Machine
end

section
/-! The split of a tick's correction (R21 to R24): each channel's step, absorbed angle and next duty step. -/

namespace Sys2Proof.Machine

/-- R21, R22: the step the tick forms for a channel in the context `f`, from the rates `r`. -/
def splitValue (f : CtxFields) (r : PerAxis Int) (c : Chan) (s : State) : Int :=
  if forcedZero f c (chanGet s.adu c).st s.msu.stab then 0 else stepValue f c (axisOf s.csu.offset c) (axisOf r c)

/-- R23, R24: channel `c` of `t` has taken the step `v`: it stands with its absorbed angle, and waits on the channel that
`s` has. -/
def TakesStep (f : CtxFields) (c : Chan) (v : Int) (s t : State) : Prop :=
  chanGet t.csu.step c = v ∧ chanGet t.csu.absorbed c = absorbedAngle (axisOf f.gain c).toNat v ∧
    chanGet t.adu c = handStep v (chanGet s.adu c)

section
variable {f : CtxFields} {s : State} (hf : activeFields s = some f) (r : PerAxis Int)
include hf

/-- With a context in force the split of a channel sets its step. -/
theorem splitChan_eq (c : Chan) :
    splitChan r c s =
      setStep c (splitValue f r c s) (absorbedAngle (axisOf f.gain c).toNat (splitValue f r c s)) s := by
  simp only [splitChan, hf]
  rfl

theorem splitChan_takes (c : Chan) : TakesStep f c (splitValue f r c s) s (splitChan r c s) := by
  rw [splitChan_eq hf]
  exact ⟨by simp, by simp, by simp⟩

/-- The split of one channel leaves another's record, step and absorbed angle. -/
theorem splitChan_other {c d : Chan} (hd : d ≠ c) :
    chanGet (splitChan r c s).csu.step d = chanGet s.csu.step d ∧
      chanGet (splitChan r c s).csu.absorbed d = chanGet s.csu.absorbed d ∧
      chanGet (splitChan r c s).adu d = chanGet s.adu d := by
  rw [splitChan_eq hf]
  exact ⟨by simp [hd], by simp [hd], by simp [hd]⟩

/-- The split of one channel leaves the step another's will form. -/
theorem splitValue_other {c d : Chan} (hd : d ≠ c) : splitValue f r d (splitChan r c s) = splitValue f r d s := by
  obtain ⟨-, -, hadu⟩ := splitChan_other hf r hd
  simp only [splitValue, hadu, splitChan_frame]

/-- What a channel has taken stands when another one is split. -/
theorem TakesStep.splitOther {c d : Chan} {v : Int} {u : State} (h : TakesStep f d v u s) (hd : d ≠ c) :
    TakesStep f d v u (splitChan r c s) := by
  obtain ⟨hstep, habs, hadu⟩ := splitChan_other hf r hd
  simpa only [TakesStep, hstep, habs, hadu] using h

/-- A channel takes its step as it stands before another one is split. -/
theorem TakesStep.before {c d : Chan} {u : State} (h : TakesStep f d (splitValue f r d (splitChan r c s)) (splitChan r c s) u)
    (hd : d ≠ c) : TakesStep f d (splitValue f r d s) s u := by
  obtain ⟨-, -, hadu⟩ := splitChan_other hf r hd
  rwa [splitValue_other hf r hd, TakesStep, hadu] at h

/-- R21 to R24: every channel takes the step formed for it. -/
theorem splitTick_takes (c : Chan) : TakesStep f c (splitValue f r c s) s (splitTick r s) := by
  have hf1 : activeFields (splitChan r .sx s) = some f := by simpa [activeFields] using hf
  have hf2 : activeFields (splitChan r .sy (splitChan r .sx s)) = some f := by simpa [activeFields] using hf
  cases c
  · exact ((splitChan_takes hf r .sx).splitOther hf1 r (by decide)).splitOther hf2 r (by decide)
  · exact ((splitChan_takes hf1 r .sy).before hf r (by decide)).splitOther hf2 r (by decide)
  · exact ((splitChan_takes hf2 r .rt).before hf1 r (by decide)).before hf r (by decide)

end

/-- R6, R9: the rate of an axis. -/
theorem axisOf_ratesOf (m : Msu) (c : Chan) :
    axisOf (ratesOf m) c = (axisOf (rawSample m).gyro c).toInt - axisOf m.tickBias c := by
  cases c <;> rfl

/-- R14: the offset of an axis. -/
theorem axisOf_offsetOf (m : Msu) (c : Chan) : axisOf (offsetOf m) c = axisOf m.angle c - axisOf m.path c := by
  cases c <;> rfl

/-- R22: what forces a step to 0 in RUNNING. -/
theorem forcedZero_running (f : CtxFields) (c : Chan) (st : ChanState) :
    forcedZero f c st .running = true ↔ f.mode = 1#8 ∨ (axisOf f.gain c).toNat = 0 ∨ st ≠ .active := by
  have hg : axisOf f.gain c = 0#16 ↔ (axisOf f.gain c).toNat = 0 := by simp [BitVec.toNat_eq]
  simp [forcedZero, ← hg, or_assoc]

/-- R21: a tick without a sensor fault that neither begins one nor qualifies an impact ends with the split. -/
theorem tickStep_split {s : State} (hread : s.msu.read ≠ .idle) (hfault : s.msu.fault = false)
    (hsample : (∃ x, s.msu.read = .good x) ∨ s.msu.missing < 15) (himpact : impactNow s.msu = false) :
    tickStep s = passTick (splitTick (ratesOf s.msu) (learnBias (tickArith s))) := by
  have hl : lostNow s.msu = false := by
    rw [← Bool.not_eq_true, lostNow_iff]
    rintro ⟨hn, -, hm⟩
    exact hsample.elim hn (by omega)
  have hr : restoredNow s.msu = false := by simp [restoredNow, hfault]
  rw [tickStep_working hread, tickWork_plain hl hr, tickSteps, himpact]
  rfl

/-- Settles O19: the tick ends with the split, which finds the offset and the channels as the arithmetic left them. -/
theorem tickSplitsCorrection : Obligations.TickSplitsCorrection := by
  intro s f ha hread hrun hfault hf hsample himpact
  set u := learnBias (tickArith s) with hu
  have hfu : activeFields u = some f := by simpa [hu, activeFields] using hf
  have htick := tickStep_split hread hfault hsample himpact
  refine ⟨_, (whenUp_awake ha _).trans (congrArg _ htick), by simpa using hrun, by simp, fun c => ?_⟩
  intro raw rate h gain v
  have hv : splitValue f (ratesOf s.msu) c u = v := by
    have hoff : axisOf u.csu.offset c = h := by simp [hu, h, axisOf_offsetOf]
    have hrate : axisOf (ratesOf s.msu) c = rate := by rw [axisOf_ratesOf, rawSample_eq]
    have hadu : u.adu = s.adu := by simp [hu]
    have hstab : u.msu.stab = .running := by simpa [hu] using hrun
    simp only [splitValue, hoff, hrate, hadu, hstab, forcedZero_running]
    rfl
  obtain ⟨hstep, habs, hadu⟩ := splitTick_takes hfu (ratesOf s.msu) c
  rw [hv] at hstep habs hadu
  refine ⟨hstep, habs, ?_⟩
  rw [handStep_eq, show u.adu = s.adu by simp [hu]] at hadu
  exact hadu

end Sys2Proof.Machine
end

section
/-! FRAME_GET (R37, R38): the record in the ring, the hold, and the end of the hold. -/

namespace Sys2Proof.Machine

/-- The ring holds no record of frame `n`. -/
theorem ringRecord_none {n : Word} {s : State} : ringRecord n s = none ↔ ∀ r ∈ s.csu.ring, r.frame ≠ n := by
  simp [ringRecord, List.find?_eq_none]

/-- The record found is one of the ring's, of frame `n`. -/
theorem ringRecord_some {n : Word} {s : State} {r : FrameRecord} (h : ringRecord n s = some r) :
    r ∈ s.csu.ring ∧ r.frame = n :=
  ⟨List.mem_of_find?_eq_some h, by simpa using List.find?_some h⟩

/-- R37: a frame with a record in the ring. -/
theorem frameGetReq_recorded {tag : Byte} {n : Word} {s : State} {r : FrameRecord} (hs : s.msu.stab ≠ .off)
    (hr : ringRecord n s = some r) : frameGetReq tag n s = answer 0x17#8 tag .ok (recordBytes r) s := by
  simp only [frameGetReq, if_neg hs, hr]
  rfl

/-- R37: the cases of a frame without one, by how far it lies ahead. -/
theorem frameGetReq_absent {tag : Byte} {n : Word} {s : State} (hs : s.msu.stab ≠ .off) (hr : ringRecord n s = none) :
    let d := (n - s.csu.frame).toInt
    ((d = 0 ∧ s.csu.sample ≠ none) ∨ d = 1 → frameGetReq tag n s = hold (.frameGet tag n s.now) s) ∧
      (2 ≤ d → frameGetReq tag n s = answer 0x17#8 tag .range [] s) ∧
      (d < 0 ∨ (d = 0 ∧ s.csu.sample = none) → frameGetReq tag n s = answer 0x17#8 tag .gone [] s) := by
  intro d
  have hcases : frameGetReq tag n s =
      if d = 0 ∧ s.csu.sample ≠ none then hold (.frameGet tag n s.now) s
      else if d = 1 then hold (.frameGet tag n s.now) s
      else if 2 ≤ d then answer 0x17#8 tag .range [] s
      else answer 0x17#8 tag .gone [] s := by
    simp only [frameGetReq, if_neg hs, hr, Option.isSome_iff_ne_none]
    rfl
  rw [hcases]
  refine ⟨fun h => ?_, fun h => ?_, fun h => ?_⟩
  · obtain h | h := h
    · exact if_pos h
    · rw [if_neg (by omega), if_pos h]
  · rw [if_neg (by omega), if_neg (by omega), if_pos h]
  · have hheld : ¬ (d = 0 ∧ s.csu.sample ≠ none) := by
      rintro ⟨h0, hn⟩
      exact h.elim (by omega) fun hz => hn hz.2
    rw [if_neg hheld, if_neg (by omega), if_neg (by omega)]

/-- R38: 100 ms are 410 ticks. -/
theorem frameTimeout_held {tag : Byte} {n taken : Word} {s : State} (h : s.lnk.req = some (.frameGet tag n taken)) :
    frameTimeout s = if 410 ≤ (s.now - taken).toNat then
      { s with lnk := { s.lnk with req := none, reply := some ⟨0x97#8, tag, .notReady, []⟩ } } else s := by
  simp only [frameTimeout, endFrameGet, h]
  rfl

/-- Settles O27: the request by whether the ring has the record, and the held one by the time it has waited. -/
theorem frameGetCases : Obligations.FrameGetCases := by
  refine ⟨fun tag n s ht => ?_, fun s tag n taken ha hheld => ?_⟩
  · intro d absent held
    have hx : exec (.frameGet tag n) s = .next (frameGetReq tag n s) := takeReq_takes ht _
    refine ⟨fun ho => by rw [hx, frameGetReq, if_pos ho]; rfl, fun hs => ⟨fun hp => ?_, ?_⟩⟩
    · obtain ⟨r, hr⟩ := Option.ne_none_iff_exists'.mp (mt ringRecord_none.mp hp)
      obtain ⟨hmem, hframe⟩ := ringRecord_some hr
      exact ⟨r, hmem, hframe, by rw [hx, frameGetReq_recorded hs hr]⟩
    · rw [hx]
      have hcases (h : absent) := frameGetReq_absent (tag := tag) hs (ringRecord_none.mpr h)
      exact ⟨fun h hd => congrArg _ ((hcases h).1 hd), fun h hd => congrArg _ ((hcases h).2.1 hd),
        fun h hd => congrArg _ ((hcases h).2.2 hd)⟩
  · have hx : exec .frameGetTimeout s = .next (frameTimeout s) := whenUp_awake ha _
    rw [hx, frameTimeout_held hheld]
    exact ⟨fun h => by rw [if_pos h], fun h => by rw [if_neg (by omega)]⟩

end Sys2Proof.Machine
end

section
/-! A frame record as it is made (R28 to R34), handed to the clip buffer (R90, R91) and to a held FRAME_GET (R38). -/

namespace Sys2Proof.Machine

/-! ## The flags (R33, R34, Figure 12.8) -/

theorem testBit_bitsCode : ∀ (bs : List Bool) (i : Nat), (bitsCode bs).testBit i = bs.getD i false
  | [], i => by simp [bitsCode]
  | b :: rest, 0 => by cases b <;> simp [bitsCode, Nat.testBit_zero]
  | b :: rest, i + 1 => by
      have hhalf : bitsCode (b :: rest) / 2 = bitsCode rest := by cases b <;> simp only [bitsCode] <;> grind
      rw [Nat.testBit_succ, hhalf, testBit_bitsCode rest i]
      simp

theorem bitsCode_lt : ∀ bs : List Bool, bitsCode bs < 2 ^ bs.length
  | [] => by simp [bitsCode]
  | b :: rest => by
      have := bitsCode_lt rest
      simp only [bitsCode, List.length_cons, Nat.pow_succ]
      split <;> omega

/-- Each flag of a record stands at its bit. -/
theorem recordFlags_getLsbD (c : Carried) (crop : PerAxis Bool) (off : PerChan Bool) (standby : Bool) {i : Nat}
    (h : i < 16) : (recordFlags c crop off standby).getLsbD i =
      [c.pathClamp.yaw, c.pathClamp.pitch, c.pathClamp.roll, crop.yaw, crop.pitch, crop.roll, c.gyroSat, c.sensorHold,
        off.sx, off.sy, off.rt, c.impact, c.ctxSwitch, standby].getD i false := by
  simp only [recordFlags, BitVec.getLsbD_ofNat, h, decide_true, Bool.true_and, testBit_bitsCode]

/-- Bits 14 and 15 of the flags are 0. -/
theorem recordFlags_lt (c : Carried) (crop : PerAxis Bool) (off : PerChan Bool) (standby : Bool) :
    (recordFlags c crop off standby).toNat < 16384 := by
  have fourteen : ∀ bs : List Bool, bs.length = 14 → (BitVec.ofNat 16 (bitsCode bs)).toNat < 16384 := by
    intro bs hlen
    have hlt := bitsCode_lt bs
    rw [hlen] at hlt
    rw [BitVec.toNat_ofNat]
    omega
  exact fourteen _ rfl

/-! ## The clip buffer's part (R90, R91) -/

theorem admittedOf_setAdmitted (i j n : Nat) : ∀ l : List Admitted,
    admittedOf j (setAdmitted i n l) = if j = i then n else admittedOf j l
  | [] => by simp [setAdmitted, admittedOf, eq_comm]
  | a :: rest => by
      have ih := admittedOf_setAdmitted i j n rest
      simp only [setAdmitted]
      by_cases hi : a.slot = i
      · by_cases hj : j = i
        · simp [hi, hj, admittedOf]
        · simp [hi, hj, admittedOf, Ne.symm hj]
      · by_cases hj : a.slot = j
        · simp [hj, admittedOf, show j ≠ i from fun h => hi (hj.trans h)]
        · simp [hi, hj, admittedOf, ih]

/-- `modEntry` is the rewriting of its entry. -/
theorem modEntry_eq (i : Nat) (f : Entry → Entry) (s : State) :
    modEntry i f s = { s with sdr := { s.sdr with entries := rewritten i f s.sdr.entries } } := by
  rw [← modEntry_rewritten]
  simp only [modEntry]
  split <;> rfl

/-- R36: outside RECORDING and ROLLING no record is handed. -/
theorem intake_idle {r : FrameRecord} {s : State} (hr : s.cwr.writer ≠ .recording) (hl : s.cwr.writer ≠ .rolling) :
    intake r s = s := by
  simp [intake, hr, hl]

/-- R90: a record for which there is room joins the list; the slot's first one gives its first frame. -/
theorem intake_admits {r : FrameRecord} {s : State} {i : Nat} (hw : s.cwr.writer = .recording ∨ s.cwr.writer = .rolling)
    (ho : openSlot s = some i) (ha : s.cbf.pend.length < 128 ∧ admittedOf i s.cbf.admitted < motionCapacity s) :
    intake r s = { s with
      sdr := { s.sdr with
        entries := if admittedOf i s.cbf.admitted = 0
          then rewritten i (fun e => { e with firstFrame := some r.frame }) s.sdr.entries
          else s.sdr.entries }
      cbf := { s.cbf with
        pend := s.cbf.pend ++ [⟨i, r⟩]
        admitted := setAdmitted i (admittedOf i s.cbf.admitted + 1) s.cbf.admitted } } := by
  have hroom : ¬ (128 ≤ s.cbf.pend.length ∨ motionCapacity s ≤ admittedOf i s.cbf.admitted) := by omega
  simp only [intake, if_pos hw, ho, if_neg hroom, admitRecord]
  split
  · rw [modEntry_eq]
  · rfl

/-- R91: a record for which there is no room is counted dropped. -/
theorem intake_drops {r : FrameRecord} {s : State} {i : Nat} (hw : s.cwr.writer = .recording ∨ s.cwr.writer = .rolling)
    (ho : openSlot s = some i) (ha : ¬ (s.cbf.pend.length < 128 ∧ admittedOf i s.cbf.admitted < motionCapacity s)) :
    intake r s = { s with
      sdr := { s.sdr with
        entries := rewritten i (fun e => { e with motionDropped := min 4294967295 (e.motionDropped + 1) })
          s.sdr.entries } } := by
  have hfull : 128 ≤ s.cbf.pend.length ∨ motionCapacity s ≤ admittedOf i s.cbf.admitted := by omega
  simp only [intake, if_pos hw, ho, if_pos hfull, dropRecord]
  exact modEntry_eq _ _ _

/-- R90, R91: of the clip buffer and the directory a record changes the list, the admitted counts and the entries. -/
theorem intake_card (r : FrameRecord) (s : State) :
    (intake r s).cbf.assigned = s.cbf.assigned ∧
      (intake r s).sdr = { s.sdr with entries := (intake r s).sdr.entries } := by
  by_cases hw : s.cwr.writer = .recording ∨ s.cwr.writer = .rolling
  · cases ho : openSlot s with
    | none => simp [intake, hw, ho]
    | some i =>
        by_cases ha : s.cbf.pend.length < 128 ∧ admittedOf i s.cbf.admitted < motionCapacity s
        · rw [intake_admits hw ho ha]
          exact ⟨rfl, rfl⟩
        · rw [intake_drops hw ho ha]
          exact ⟨rfl, rfl⟩
  · rw [not_or] at hw
    rw [intake_idle hw.1 hw.2]
    exact ⟨rfl, rfl⟩

/-! ## The held FRAME_GET (R38) -/

theorem serveFrame_held {r : FrameRecord} {s : State} {tag : Byte} {taken : Word}
    (h : s.lnk.req = some (.frameGet tag r.frame taken)) :
    serveFrame r s = { s with lnk := { s.lnk with req := none, reply := some ⟨0x97#8, tag, .ok, recordBytes r⟩ } } := by
  simp only [serveFrame, h, if_true]
  rfl

theorem serveFrame_other {r : FrameRecord} {s : State}
    (h : ∀ tag taken, s.lnk.req ≠ some (.frameGet tag r.frame taken)) : serveFrame r s = s := by
  simp only [serveFrame]
  split
  · next tag n taken hr =>
    split
    · next hn => exact absurd (hn ▸ hr) (h tag taken)
    · rfl
  · rfl

/-- Serving a record touches the link alone, and of the link's fields it reads no other block. -/
theorem serveFrame_lnk (r : FrameRecord) {s t : State} (h : t.lnk = s.lnk) :
    (serveFrame r t).lnk = (serveFrame r s).lnk := by
  by_cases hr : ∃ tag taken, s.lnk.req = some (.frameGet tag r.frame taken)
  · obtain ⟨tag, taken, hr⟩ := hr
    rw [serveFrame_held hr, serveFrame_held (h ▸ hr), h]
  · have hn : ∀ tag taken, s.lnk.req ≠ some (.frameGet tag r.frame taken) := fun tag taken he => hr ⟨tag, taken, he⟩
    rw [serveFrame_other hn, serveFrame_other (h ▸ hn), h]

/-- An UNMOUNT held once a record has been served was held before. -/
theorem serveFrame_unmount {r : FrameRecord} {s : State} {tag : Byte}
    (h : (serveFrame r s).lnk.req = some (.unmount tag)) : s.lnk.req = some (.unmount tag) := by
  by_cases hr : ∃ tag taken, s.lnk.req = some (.frameGet tag r.frame taken)
  · obtain ⟨tag, taken, hr⟩ := hr
    rw [serveFrame_held hr] at h
    cases h
  · rwa [serveFrame_other fun tag taken he => hr ⟨tag, taken, he⟩] at h

/-! ## The record made, under `PortLaw` -/

/-- The law of the port reads the writer, the port, the queue and a held UNMOUNT. -/
theorem PortLaw.congr {s t : State} (h : PortLaw s) (hw : t.cwr.writer = s.cwr.writer) (hp : t.cwr.port = s.cwr.port)
    (hq : t.sdr.queue = s.sdr.queue)
    (hr : ∀ tag, t.lnk.req = some (.unmount tag) → s.lnk.req = some (.unmount tag)) : PortLaw t := by
  have hh : headerUnderWay t = headerUnderWay s := by simp only [headerUnderWay, hp]
  obtain ⟨hclose, hunmount⟩ := h
  refine ⟨fun he => hp ▸ hclose (hw ▸ he), fun tag ht => ?_⟩
  obtain ⟨k1, k2, k3⟩ := hunmount tag (hr tag ht)
  rw [hw, hp, hq, hh]
  exact ⟨k1, k2, k3⟩

/-- Settling the port keeps its law. -/
theorem settle_portLaw {s : State} (h : PortLaw s) : PortLaw (settle s) := by
  by_cases hp : s.cwr.port = none
  · obtain ⟨⟨-, -, -, hcwr⟩, -, -, -, hlnk⟩ := settle_keeps h
    have hw : (settle s).cwr.writer = s.cwr.writer := by rw [hcwr]
    refine ⟨fun he => absurd hp (h.1 (hw ▸ he)), fun tag ht => ?_⟩
    exact absurd hp (h.2 tag (hlnk ▸ ht)).2.1
  · rw [settle_port h hp]
    exact h.congr rfl rfl rfl fun _ => id

/-- R32, R33, R35: the record has joined the ring, and the carried conditions and the scheduled sample have gone. -/
def withRecord (r : FrameRecord) (s : State) : State :=
  { s with csu := { s.csu with ring := pushRing s.csu.ring r, carried := Carried.empty, sample := none } }

/-- R36, R38: the record has been handed to the clip buffer and to a FRAME_GET held for it; the port is not settled. -/
def handRecord (r : FrameRecord) (s : State) : State := serveFrame r (intake r (withRecord r s))

theorem takeSample_eq (n : Word) (s : State) : takeSample n s = settle (handRecord (recordOf n s) s) := rfl

theorem handRecord_frame (r : FrameRecord) (s : State) :
    (handRecord r s).now = s.now ∧ (handRecord r s).msu = s.msu ∧ (handRecord r s).csu = (withRecord r s).csu ∧
      (handRecord r s).ctx = s.ctx ∧ (handRecord r s).adu = s.adu ∧ (handRecord r s).scn = s.scn ∧
      (handRecord r s).cbf = (intake r (withRecord r s)).cbf ∧ (handRecord r s).sdr = (intake r (withRecord r s)).sdr ∧
      (handRecord r s).cwr = s.cwr ∧ (handRecord r s).ips = s.ips ∧ (handRecord r s).chg = s.chg ∧
      (handRecord r s).ssv = s.ssv ∧ (handRecord r s).lnk.events = s.lnk.events ∧ (handRecord r s).rst = s.rst ∧
      (handRecord r s).pending = s.pending := by
  simp [handRecord, withRecord]

theorem handRecord_lnk (r : FrameRecord) (s : State) : (handRecord r s).lnk = (serveFrame r s).lnk :=
  serveFrame_lnk r (by simp [withRecord])

theorem handRecord_portLaw (r : FrameRecord) {s : State} (h : PortLaw s) : PortLaw (handRecord r s) := by
  have hq : (intake r (withRecord r s)).sdr.queue = s.sdr.queue := by simp [withRecord]
  obtain ⟨-, -, -, -, -, -, -, hsdr, hcwr, -⟩ := handRecord_frame r s
  refine h.congr (by rw [hcwr]) (by rw [hcwr]) (by rw [hsdr, hq]) fun tag ht => ?_
  rw [handRecord_lnk] at ht
  exact serveFrame_unmount ht

/-- R32, R33, R35: of the correction split unit a sample changes the ring, the carried conditions and the schedule. -/
theorem takeSample_csu (n : Word) (s : State) : (takeSample n s).csu = (withRecord (recordOf n s) s).csu := by
  obtain ⟨-, -, kcsu, -⟩ := handRecord_frame (recordOf n s) s
  rw [← kcsu, takeSample_eq]
  simp

/-- R28, R125: under `PortLaw` all that taking a sample does beside handing the record is to grant a free port. -/
theorem takeSample_taken (n : Word) {s : State} (h : PortLaw s) :
    let t := takeSample n s
    let r := recordOf n s
    t.csu = (withRecord r s).csu ∧ t.adu = s.adu ∧ t.chg = s.chg ∧ t.ssv = s.ssv ∧ t.lnk = (serveFrame r s).lnk ∧
      KeepsCardButPort (handRecord r s) t ∧ PortLaw t := by
  intro t r
  have hu := handRecord_portLaw r h
  obtain ⟨hcard, hadu, hchg, hssv, hlnk⟩ := settle_keeps hu
  obtain ⟨-, -, -, -, kadu, -, -, -, -, -, kchg, kssv, -⟩ := handRecord_frame r s
  exact ⟨takeSample_csu n s, hadu.trans kadu, hchg.trans kchg, hssv.trans kssv, hlnk.trans (handRecord_lnk r s), hcard,
    settle_portLaw hu⟩

end Sys2Proof.Machine
end

section
/-! O26: the crop sample (R28 to R36, R38, R90, R91). -/

namespace Sys2Proof.Machine

/-! ## The record's crop and flags -/

/-- R28: outside RUNNING the crop is 0. -/
theorem cropOf_standing {s : State} (h : s.msu.stab ≠ .running) : cropOf s = ⟨0, 0, 0, allAxes false⟩ := by
  simp [cropOf, h]

/-- R28, R29, R34: in RUNNING the residues are converted, clamped to the margins, and each clamp is marked. -/
theorem cropOf_running {s : State} {f : CtxFields} (h : s.msu.stab = .running) (hf : activeFields s = some f) :
    let x := roundDiv ((s.csu.offset.yaw - s.csu.absorbed.sx) * f.pxX.toNat) 16777216
    let y := roundDiv ((s.csu.offset.pitch - s.csu.absorbed.sy) * f.pxY.toNat) 16777216
    let z := roundDiv (s.csu.offset.roll - s.csu.absorbed.rt) 256
    let cx := clampAbs f.marginX.toNat x
    let cy := clampAbs f.marginY.toNat y
    let cz := clampAbs f.rollMargin.toNat z
    cropOf s = ⟨cx, cy, cz, ⟨decide (cx ≠ x), decide (cy ≠ y), decide (cz ≠ z)⟩⟩ := by
  simp [cropOf, h, hf, cropPx, bne, beq_eq_decide]

/-- R33, R34: each flag of the record of a sample stands at its bit. -/
theorem recordOf_flag (n : Word) (s : State) {i : Nat} (h : i < 16) :
    (recordOf n s).flags.getLsbD i =
      [s.csu.carried.pathClamp.yaw, s.csu.carried.pathClamp.pitch, s.csu.carried.pathClamp.roll,
        (cropOf s).clamped.yaw, (cropOf s).clamped.pitch, (cropOf s).clamped.roll, s.csu.carried.gyroSat,
        s.csu.carried.sensorHold, decide (s.adu.sx.st ≠ .active), decide (s.adu.sy.st ≠ .active),
        decide (s.adu.rt.st ≠ .active), s.csu.carried.impact, s.csu.carried.ctxSwitch,
        decide (s.msu.stab = .standby)].getD i false := by
  rw [recordOf, recordFlags_getLsbD _ _ _ _ h]
  simp only [chanMap, bne, beq_eq_decide, decide_not]

/-- R28, R29, R34: the crop of a record in RUNNING, and its flags. -/
theorem recordOf_running {n : Word} {s : State} {f : CtxFields} (h : s.msu.stab = .running)
    (hf : activeFields s = some f) :
    let r := recordOf n s
    let x := roundDiv ((s.csu.offset.yaw - s.csu.absorbed.sx) * f.pxX.toNat) 16777216
    let y := roundDiv ((s.csu.offset.pitch - s.csu.absorbed.sy) * f.pxY.toNat) 16777216
    let z := roundDiv (s.csu.offset.roll - s.csu.absorbed.rt) 256
    r.cropX = clampAbs f.marginX.toNat x ∧ r.cropY = clampAbs f.marginY.toNat y ∧
      r.roll = clampAbs f.rollMargin.toNat z ∧
      r.flags.getLsbD 3 = decide (r.cropX ≠ x) ∧ r.flags.getLsbD 4 = decide (r.cropY ≠ y) ∧
      r.flags.getLsbD 5 = decide (r.roll ≠ z) := by
  have hcrop := cropOf_running h hf
  intro r x y z
  have hx : r.cropX = clampAbs f.marginX.toNat x := congrArg Crop.x hcrop
  have hy : r.cropY = clampAbs f.marginY.toNat y := congrArg Crop.y hcrop
  have hz : r.roll = clampAbs f.rollMargin.toNat z := congrArg Crop.roll hcrop
  rw [hx, hy, hz]
  refine ⟨rfl, rfl, rfl, ?_, ?_, ?_⟩ <;> rw [recordOf_flag n s (by decide), hcrop] <;> rfl

/-! ## The clip buffer and the entries after the record has been handed -/

/-- R90: the record joins the list; the slot's first admitted one is its first frame. -/
theorem handRecord_admits {r : FrameRecord} {s : State} {i : Nat}
    (hw : s.cwr.writer = .recording ∨ s.cwr.writer = .rolling) (ho : openSlot s = some i)
    (ha : s.cbf.pend.length < 128 ∧ admittedOf i s.cbf.admitted < motionCapacity s) :
    (handRecord r s).cbf.pend = s.cbf.pend ++ [⟨i, r⟩] ∧
      (∀ j, admittedOf j (handRecord r s).cbf.admitted =
        if j = i then admittedOf i s.cbf.admitted + 1 else admittedOf j s.cbf.admitted) ∧
      ∀ j, entryAt (handRecord r s) j = (entryAt s j).map fun e =>
        if j = i ∧ admittedOf i s.cbf.admitted = 0 then { e with firstFrame := some r.frame } else e := by
  have hin := intake_admits (r := r) (s := withRecord r s) hw ho ha
  obtain ⟨-, -, -, -, -, -, hcbf, hsdr, -⟩ := handRecord_frame r s
  rw [hin] at hcbf hsdr
  refine ⟨by rw [hcbf]; rfl, fun j => ?_, fun j => ?_⟩
  · rw [hcbf]
    exact admittedOf_setAdmitted i j _ _
  · rw [entryAt, hsdr]
    by_cases h0 : admittedOf i s.cbf.admitted = 0
    · simp [h0, entryAt, withRecord]
    · simp [h0, entryAt, withRecord]

/-- R91: the record is counted dropped. -/
theorem handRecord_drops {r : FrameRecord} {s : State} {i : Nat}
    (hw : s.cwr.writer = .recording ∨ s.cwr.writer = .rolling) (ho : openSlot s = some i)
    (ha : ¬ (s.cbf.pend.length < 128 ∧ admittedOf i s.cbf.admitted < motionCapacity s)) :
    (handRecord r s).cbf = s.cbf ∧
      ∀ j, entryAt (handRecord r s) j = (entryAt s j).map fun e =>
        if j = i then { e with motionDropped := min 4294967295 (e.motionDropped + 1) } else e := by
  have hin := intake_drops (r := r) (s := withRecord r s) hw ho ha
  obtain ⟨-, -, -, -, -, -, hcbf, hsdr, -⟩ := handRecord_frame r s
  rw [hin] at hcbf hsdr
  exact ⟨hcbf, fun j => by rw [entryAt, hsdr]; exact getElem?_rewritten _ _ _ _⟩

/-- R36: outside RECORDING and ROLLING the clip buffer and the directory stand. -/
theorem handRecord_idle {r : FrameRecord} {s : State} (hr : s.cwr.writer ≠ .recording) (hl : s.cwr.writer ≠ .rolling) :
    (handRecord r s).cbf = s.cbf ∧ (handRecord r s).sdr = s.sdr := by
  have hin := intake_idle (r := r) (s := withRecord r s) hr hl
  obtain ⟨-, -, -, -, -, -, hcbf, hsdr, -⟩ := handRecord_frame r s
  rw [hin] at hcbf hsdr
  exact ⟨hcbf, hsdr⟩

/-- Handing a record changes only the entries of the directory, and not the writer. -/
theorem handRecord_card (r : FrameRecord) (s : State) :
    (handRecord r s).cbf.segs = s.cbf.segs ∧ (handRecord r s).cbf.assigned = s.cbf.assigned ∧
      (handRecord r s).sdr = { s.sdr with entries := (handRecord r s).sdr.entries } ∧ (handRecord r s).cwr = s.cwr := by
  obtain ⟨hassigned, hdir⟩ := intake_card r (withRecord r s)
  obtain ⟨-, -, -, -, -, -, hcbf, hsdr, hcwr, -⟩ := handRecord_frame r s
  rw [hcbf, hsdr, hdir]
  exact ⟨by simp [withRecord], hassigned, rfl, hcwr⟩

/-- The entries after what granting the port changes, but for their Queued fields. -/
theorem KeepsCardButPort.entryAt_unqueued {s t : State} (h : KeepsCardButPort s t) (j : Nat) :
    (entryAt t j).map unqueued = (entryAt s j).map unqueued :=
  entryAt_congr h.2.2.1 unqueued (fun _ => rfl) j

/-- … and so after a record has been handed. -/
theorem KeepsCardButPort.entryAt_handed {s u t : State} (h : KeepsCardButPort u t) {g : Entry → Entry} {j : Nat}
    (hu : entryAt u j = (entryAt s j).map g) :
    (entryAt t j).map unqueued = (entryAt s j).map fun e => unqueued (g e) := by
  rw [h.entryAt_unqueued, hu, Option.map_map]
  rfl

/-! ## The port (R125) -/

/-- R125: a transfer under way stands when a sample is taken. -/
theorem takeSample_port {n : Word} {s : State} (h : PortLaw s) (hp : s.cwr.port ≠ none) :
    (takeSample n s).cwr.port = s.cwr.port ∧ (takeSample n s).cwr.run = s.cwr.run ∧
      (takeSample n s).sdr.queue = s.sdr.queue := by
  obtain ⟨-, -, hdir, hcwr⟩ := handRecord_card (recordOf n s) s
  rw [takeSample_eq, settle_port (handRecord_portLaw _ h) (by rwa [hcwr])]
  have hq : (handRecord (recordOf n s) s).sdr.queue = s.sdr.queue := by rw [hdir]
  refine ⟨?_, ?_, by simpa using hq⟩ <;> simp [refreshOffers, hcwr]

/-- R125: a free port is granted when a sample is taken. -/
theorem takeSample_grants {n : Word} {s : State} (h : PortLaw s) (hp : s.cwr.port = none)
    (ha : arbitrating s.cwr.writer = true) : ArbiterGrants (beforeGrant s (takeSample n s)) (takeSample n s) := by
  obtain ⟨-, -, hdir, hcwr⟩ := handRecord_card (recordOf n s) s
  have hq : s.sdr.queue = (handRecord (recordOf n s) s).sdr.queue := by rw [hdir]
  exact settle_grants (handRecord_portLaw _ h) (by rwa [hcwr]) (by rwa [hcwr]) hq (by rw [hcwr]) (by rw [hcwr])
    (by rw [hcwr]) (by rw [hcwr]) rfl rfl rfl rfl rfl

/-! ## The obligation -/

/-- Settles O26: taking a sample is handing its record and settling the port, which under `PortLaw` only grants it. -/
theorem cropSampleMakesRecord : Obligations.CropSampleMakesRecord := by
  intro s p ha hport hp
  have hexec : exec .cropSample s = .next (cropStep s) := whenUp_awake ha _
  have hstep : cropStep s = if reached s.now p.due then takeSample p.frame s else s := by simp only [cropStep, hp]
  rw [hexec, hstep]
  refine ⟨fun hlate => ?_, fun hdue => ?_⟩
  · have hr : reached s.now p.due = false := decide_eq_false (by rw [since]; omega)
    rw [hr]
    rfl
  have hr : reached s.now p.due = true := decide_eq_true hdue
  rw [if_pos hr]
  obtain ⟨hcsu, hadu, hchg, hssv, hlnk, hcard, -⟩ := takeSample_taken p.frame hport
  obtain ⟨hsegs, hassigned, hdir, hwriter⟩ := handRecord_card (recordOf p.frame s) s
  have flag (i : Nat) (h : i < 16) := recordOf_flag p.frame s h
  obtain ⟨kcbf, ksdr, kentries, kcwr⟩ := id hcard
  refine ⟨takeSample p.frame s, recordOf p.frame s, rfl, ⟨by simp, by simp, by simp⟩, ⟨by simp, by simp, hchg, hssv⟩,
    by simp, by simp, hadu, rfl, rfl, rfl, ?ring, ?standing, fun f => recordOf_running, flag 0 (by decide),
    flag 1 (by decide), flag 2 (by decide), flag 6 (by decide), flag 7 (by decide), flag 8 (by decide), flag 9 (by decide),
    flag 10 (by decide), flag 11 (by decide), flag 12 (by decide), flag 13 (by decide), recordFlags_lt _ _ _ _,
    by rw [kcbf, hsegs], by rw [kcbf, hassigned], ?intake, ?idle, ?dir, ?writer, takeSample_port hport,
    takeSample_grants hport, ?held, ?other⟩
  case ring =>
    rw [hcsu]
    simp [withRecord, pushRing]
  case standing =>
    intro hstab
    simp [recordOf, cropOf_standing hstab]
  case intake =>
    intro i hw ho
    refine ⟨fun hadmits => ?_, fun hdrops => ?_⟩
    · obtain ⟨hpend, hadmitted, hentries⟩ := handRecord_admits (r := recordOf p.frame s) hw ho hadmits
      rw [kcbf]
      exact ⟨hpend, hadmitted, fun j => hcard.entryAt_handed (hentries j)⟩
    · obtain ⟨hcbf, hentries⟩ := handRecord_drops (r := recordOf p.frame s) hw ho hdrops
      rw [kcbf]
      exact ⟨hcbf, fun j => hcard.entryAt_handed (hentries j)⟩
  case idle =>
    intro hrec hrol
    obtain ⟨hcbf, hsdr⟩ := handRecord_idle (r := recordOf p.frame s) hrec hrol
    exact ⟨kcbf.trans hcbf, by rw [kentries, hsdr]⟩
  case dir => rw [ksdr, hdir]
  case writer => rw [kcwr, hwriter]
  case held =>
    intro tag taken hreq
    exact hlnk.trans (by rw [serveFrame_held hreq])
  case other =>
    intro hreq
    exact hlnk.trans (by rw [serveFrame_other hreq])

end Sys2Proof.Machine
end

section
/-! A commit of a switch in any state of the stabilization (R25, R46 to R48): the contexts, the path, the event, and each
channel's step, absorbed angle and next duty step. -/

namespace Sys2Proof.Machine

/-! ## The held steps (R25) -/

/-- What a commit finds and leaves of one channel. -/
structure ChanPart where
  step : Int
  absorbed : Int
  ch : Channel

def chanPart (c : Chan) (s : State) : ChanPart :=
  ⟨chanGet s.csu.step c, chanGet s.csu.absorbed c, chanGet s.adu c⟩

/-- R22, R25: a step the new context `f` does not allow is 0 and handed; any other is clamped to the new travel. -/
def recommitPart (f : CtxFields) (c : Chan) (stab : Stab) (p : ChanPart) : ChanPart :=
  if forcedZero f c p.ch.st stab then ⟨0, 0, handStep 0 p.ch⟩
  else
    let v := clampAbs (axisOf f.travel c).toNat p.step
    ⟨v, absorbedAngle (axisOf f.gain c).toNat v, p.ch⟩

theorem recommitChan_part (f : CtxFields) (c : Chan) (s : State) :
    chanPart c (recommitChan f c s) = recommitPart f c s.msu.stab (chanPart c s) := by
  by_cases h : forcedZero f c (chanGet s.adu c).st s.msu.stab
  · simp [recommitChan, recommitPart, chanPart, zeroStep, h]
  · simp [recommitChan, recommitPart, chanPart, h]

theorem recommitChan_part_ne (f : CtxFields) {c d : Chan} (s : State) (hd : d ≠ c) :
    chanPart d (recommitChan f c s) = chanPart d s := by
  by_cases h : forcedZero f c (chanGet s.adu c).st s.msu.stab
  · simp [recommitChan, chanPart, zeroStep, h, hd]
  · simp [recommitChan, chanPart, h, hd]

/-- R25: every channel's step is held to the new context, each from what it was before the commit. -/
theorem recommitSteps_part (f : CtxFields) (c : Chan) (s : State) :
    chanPart c (recommitSteps f s) = recommitPart f c s.msu.stab (chanPart c s) := by
  simp only [recommitSteps]
  cases c with
  | sx => rw [recommitChan_part_ne _ _ (by decide), recommitChan_part_ne _ _ (by decide), recommitChan_part]
  | sy =>
    rw [recommitChan_part_ne _ _ (by decide), recommitChan_part, recommitChan_part_ne _ _ (by decide)]
    simp
  | rt =>
    rw [recommitChan_part, recommitChan_part_ne _ _ (by decide), recommitChan_part_ne _ _ (by decide)]
    simp

/-- R22: a step that may not stand in RUNNING. -/
theorem recommitPart_forced {f : CtxFields} {c : Chan} {p : ChanPart}
    (h : f.mode = 1#8 ∨ (axisOf f.gain c).toNat = 0 ∨ p.ch.st ≠ .active) :
    recommitPart f c .running p = ⟨0, 0, handStep 0 p.ch⟩ :=
  if_pos ((forcedZero_running f c _).mpr h)

/-- R24, R25: a step that may stand in RUNNING. -/
theorem recommitPart_held {f : CtxFields} {c : Chan} {p : ChanPart}
    (h : ¬ (f.mode = 1#8 ∨ (axisOf f.gain c).toNat = 0 ∨ p.ch.st ≠ .active)) :
    let v := clampAbs (axisOf f.travel c).toNat p.step
    recommitPart f c .running p = ⟨v, clampAbs 1073741824 (roundDiv (v * 16777216) (axisOf f.gain c).toNat), p.ch⟩ := by
  have hz : ¬ forcedZero f c p.ch.st .running = true := fun hz => h ((forcedZero_running f c _).mp hz)
  have hgain : (axisOf f.gain c).toNat ≠ 0 := fun hg => h (.inr (.inl hg))
  simp only [recommitPart, if_neg hz, absorbedAngle, if_neg hgain]

/-! ## All that a commit in RUNNING does (R46 to R48) -/

/-- R46, R47: the contexts and the path of a commit, before its steps. -/
def switchedTo (i : CtxIx) (ret : Bool) (s : State) : State :=
  { s with
    ctx := commitPoint i ret s.msu.path s.ctx
    msu := { s.msu with path := pathTaken (ctxGet s.ctx i) s.msu.angle } }

/-- R33, R47: what a commit carries to the next record. -/
def switchCarries (i : CtxIx) (s : State) : Carried :=
  { Carried.empty with pathClamp := pathHeld (ctxGet s.ctx i) s.msu.angle, ctxSwitch := true }

theorem runIfHealthy_running {s : State} (h : s.msu.stab = .running) : runIfHealthy s = s := by
  simp [runIfHealthy, h]

theorem commit_running (i : CtxIx) (ret : Bool) {s : State} (h : s.msu.stab = .running) :
    commit i ret s =
      raise (.switched i s.ctx.active ret s.csu.frame s.now)
        (carry (switchCarries i s) (recommitSteps (ctxGet s.ctx i).fields (switchedTo i ret s))) := by
  simp only [commit, clampPaths_loadedPath, recommitSteps_frame, clampsOf_loadedPath]
  rw [runIfHealthy_running (by simpa using h)]
  simp [switchCarries, switchedTo]

/-! ## How a switch ends in RUNNING (R45 to R48) -/

/-- R45: a switch to a context with a field out of its range ends in its event. -/
theorem attemptSwitch_fault {i : CtxIx} {ret : Bool} {s : State} {k : FieldCheck}
    (hb : firstBad (ctxGet s.ctx i).fields = some k) :
    attemptSwitch i ret s =
      raise (.ctxFault i k.code k.value) { s with ctx := { s.ctx with pendingSwitch := none } } := by
  simp only [attemptSwitch, hb]

theorem attemptSwitch_good {i : CtxIx} {ret : Bool} {s : State} (hb : firstBad (ctxGet s.ctx i).fields = none) :
    attemptSwitch i ret s = commit i ret s := by
  simp only [attemptSwitch, hb]

/-- R25, R33: what a good switch in RUNNING carries to the next record, and makes of each channel. -/
theorem attemptSwitch_commits (i : CtxIx) (ret : Bool) {s : State} (h : s.msu.stab = .running)
    (hb : firstBad (ctxGet s.ctx i).fields = none) :
    (attemptSwitch i ret s).csu.carried = carriedUnion s.csu.carried (switchCarries i s) ∧
      ∀ c, chanPart c (attemptSwitch i ret s) = recommitPart (ctxGet s.ctx i).fields c .running (chanPart c s) := by
  rw [attemptSwitch_good hb, commit_running i ret h]
  refine ⟨?_, fun c => ?_⟩
  · simp [carry, switchedTo, h]
  · have hpart := recommitSteps_part (ctxGet s.ctx i).fields c (switchedTo i ret s)
    rw [← h]
    refine Eq.trans ?_ hpart
    simp [chanPart, carry, switchedTo, h]

/-- R45 to R48, in RUNNING: the switch ends, and of the motion unit only the path changes. -/
theorem attemptSwitch_running (w : Switch) {s : State} (h : s.msu.stab = .running) :
    SwitchEnds w s (attemptSwitch w.index w.ret s) ∧ (attemptSwitch w.index w.ret s).ctx.pendingSwitch = none ∧
      (attemptSwitch w.index w.ret s).msu = { s.msu with path := (attemptSwitch w.index w.ret s).msu.path } := by
  cases hb : firstBad (ctxGet s.ctx w.index).fields with
  | some k => simp [attemptSwitch_fault hb, SwitchEnds, hb, raise, eventsWith]
  | none =>
      obtain ⟨hact, hpend, hget⟩ := commitPoint_table w.index w.ret s.msu.path s.ctx
      rw [attemptSwitch_good hb, commit_running w.index w.ret h]
      simp [SwitchEnds, hb, raise, eventsWith, switchedTo, carry, h, hact, hpend, hget]

/-- R45, R46: no switch is pending once one has been attempted. -/
theorem attemptSwitch_pending (w : Switch) (s : State) :
    (attemptSwitch w.index w.ret s).ctx.pendingSwitch = none := by
  by_cases h : s.msu.stab = .running
  · exact (attemptSwitch_running w h).2.1
  · exact (attemptSwitch_standing w s h).2

end Sys2Proof.Machine
end

section
/-! O25: the rising edge on FSYNC (R27, R30, R44 to R50). -/

namespace Sys2Proof.Machine

/-! ## The sample still pending (R30) -/

/-- R33: the carried conditions once a pending sample has been taken. -/
def keptCarried (s : State) : Carried := if s.csu.sample = none then s.csu.carried else Carried.empty

/-- R35: the ring once a pending sample has been taken. -/
def forcedRing (s : State) : List FrameRecord :=
  match s.csu.sample with
  | none => s.csu.ring
  | some p => pushRing s.csu.ring (recordOf p.frame s)

theorem forceSample_none {s : State} (h : s.csu.sample = none) : forceSample s = s := by simp only [forceSample, h]

theorem forceSample_some {s : State} {p : PendingSample} (h : s.csu.sample = some p) :
    forceSample s = takeSample p.frame s := by
  simp only [forceSample, h]

theorem forceSample_csu (s : State) :
    (forceSample s).csu = { s.csu with ring := forcedRing s, carried := keptCarried s, sample := none } := by
  cases h : s.csu.sample with
  | none =>
      simp only [forceSample_none h, forcedRing, keptCarried, h, if_true]
      rw [← h]
  | some p =>
      rw [forceSample_some h, takeSample_csu]
      simp [withRecord, forcedRing, keptCarried, h]

/-- R50: under `PortLaw` the pending sample touches no channel and no event. -/
theorem forceSample_keeps {s : State} (h : PortLaw s) :
    (forceSample s).adu = s.adu ∧ (forceSample s).lnk.events = s.lnk.events ∧ PortLaw (forceSample s) := by
  cases hs : s.csu.sample with
  | none => simp [forceSample_none hs, h]
  | some p =>
      obtain ⟨-, hadu, -, -, hlnk, -, hlaw⟩ := takeSample_taken p.frame h
      rw [forceSample_some hs]
      exact ⟨hadu, by rw [hlnk]; simp, hlaw⟩

/-! ## The pending switch (R44) -/

theorem commitPending_none {s : State} (h : s.ctx.pendingSwitch = none) : commitPending s = s := by
  simp only [commitPending, h]

theorem commitPending_some {s : State} {w : Switch} (h : s.ctx.pendingSwitch = some w) :
    commitPending s = attemptSwitch w.index w.ret s := by
  simp only [commitPending, h]

theorem commitPending_pending (s : State) : (commitPending s).ctx.pendingSwitch = none := by
  cases h : s.ctx.pendingSwitch with
  | none => rw [commitPending_none h, h]
  | some w => rw [commitPending_some h, attemptSwitch_pending]

theorem commitPending_portLaw {s : State} (h : PortLaw s) : PortLaw (commitPending s) :=
  h.congr (by simp) (by simp) (by simp) (fun tag => by simp)

/-! ## The frame is counted (R27) -/

/-- What a record of a sample taken in `s` reads. -/
theorem recordOf_congr {s t : State} (n : Word) (hnow : t.now = s.now) (hmsu : t.msu = s.msu) (hctx : t.ctx = s.ctx)
    (hadu : t.adu = s.adu) (hoff : t.csu.offset = s.csu.offset) (habs : t.csu.absorbed = s.csu.absorbed)
    (hcar : t.csu.carried = s.csu.carried) : recordOf n t = recordOf n s := by
  have hf : activeFields t = activeFields s := by rw [activeFields, activeFields, hctx]
  simp only [recordOf, cropOf, hnow, hmsu, hf, hadu, hoff, habs, hcar]

/-- The count of the frame alone. -/
def nextFrame (s : State) : State := { s with csu := { s.csu with frame := s.csu.frame + 1 } }

theorem countFrame_off {s : State} (h : s.msu.stab = .off) : countFrame s = nextFrame s := if_pos h

/-- R27: the sample of the new frame is scheduled at the readout offset. -/
theorem countFrame_schedules {s : State} {f : CtxFields} (h : s.msu.stab ≠ .off) (hf : activeFields s = some f)
    (hr : f.readout ≠ 0#8) :
    countFrame s = { s with csu := { s.csu with
      frame := s.csu.frame + 1
      sample := some ⟨s.csu.frame + 1, later s.now f.readout.toNat⟩ } } := by
  have hoff : readoutOffset (nextFrame s) = f.readout.toNat := by
    have : activeFields (nextFrame s) = some f := hf
    simp only [readoutOffset, this]
  have hne : readoutOffset (nextFrame s) ≠ 0 := by rw [hoff]; simpa [BitVec.toNat_eq] using hr
  have heq : countFrame s = { nextFrame s with csu := { (nextFrame s).csu with
      sample := some ⟨(nextFrame s).csu.frame, later s.now (readoutOffset (nextFrame s))⟩ } } :=
    (if_neg h).trans (if_neg hne)
  rw [heq, hoff]
  rfl

/-- R27: with an offset of 0 or without a context the sample is taken at once. -/
theorem countFrame_samples {s : State} (h : s.msu.stab ≠ .off)
    (hf : ∀ f, activeFields s = some f → f.readout = 0#8) :
    countFrame s = takeSample (s.csu.frame + 1) (nextFrame s) := by
  have hoff : readoutOffset (nextFrame s) = 0 := by
    simp only [readoutOffset]
    split
    · rfl
    · next f hs => rw [hf f hs]; rfl
  exact (if_neg h).trans (if_pos hoff)

/-- R27, R32, R33, R35: frame `n` has been counted in `t` where `ring` and `carried` stood: its sample is scheduled, or its
record has joined the ring and taken the conditions. -/
def Counted (n now : Word) (ring : List FrameRecord) (carried : Carried) (t : State) : Prop :=
  (∀ f, activeFields t = some f → f.readout ≠ 0#8 →
    t.csu.sample = some ⟨n, later now f.readout.toNat⟩ ∧ t.csu.ring = ring ∧ t.csu.carried = carried) ∧
  ((∀ f, activeFields t = some f → f.readout = 0#8) →
    t.csu.sample = none ∧ t.csu.carried = Carried.empty ∧
      t.csu.ring = pushRing ring (recordOf n { t with csu := { t.csu with carried := carried } }))

theorem countFrame_frameCount (s : State) : (countFrame s).csu.frame = s.csu.frame + 1 := by
  simp only [countFrame]
  (repeat' split) <;> simp

/-- Under `PortLaw` the count touches no channel, no absorbed angle and no event. -/
theorem countFrame_keeps {s : State} (h : PortLaw s) :
    (countFrame s).adu = s.adu ∧ (countFrame s).csu.absorbed = s.csu.absorbed ∧
      (countFrame s).lnk.events = s.lnk.events := by
  simp only [countFrame]
  (repeat' split)
  · exact ⟨rfl, rfl, rfl⟩
  · obtain ⟨hcsu, hadu, -, -, hlnk, -⟩ := takeSample_taken (s.csu.frame + 1) (s := nextFrame s) h
    have habs := congrArg Csu.absorbed hcsu
    exact ⟨hadu, habs, (congrArg Lnk.events hlnk).trans (by simp [nextFrame])⟩
  · exact ⟨rfl, rfl, rfl⟩

theorem countFrame_counted {s : State} (h : PortLaw s) (hs : s.msu.stab ≠ .off) :
    Counted (s.csu.frame + 1) s.now s.csu.ring s.csu.carried (countFrame s) := by
  have hact : activeFields (countFrame s) = activeFields s := by simp [activeFields]
  refine ⟨fun f hf hr => ?_, fun hf => ?_⟩
  · rw [countFrame_schedules hs (hact ▸ hf) hr]
    exact ⟨rfl, rfl, rfl⟩
  · obtain ⟨hadu, habs, -⟩ := countFrame_keeps h
    have hrec : recordOf (s.csu.frame + 1)
        { countFrame s with csu := { (countFrame s).csu with carried := s.csu.carried } } =
          recordOf (s.csu.frame + 1) (nextFrame s) :=
      recordOf_congr _ (by simp [nextFrame]) (by simp [nextFrame]) (by simp [nextFrame]) hadu (by simp [nextFrame]) habs rfl
    rw [hrec, countFrame_samples hs (hact ▸ hf), takeSample_csu]
    exact ⟨rfl, rfl, rfl⟩

/-! ## The edge (R50) -/

theorem fsyncStep_plain {s : State} (hs : s.csu.sample = none) (hp : s.ctx.pendingSwitch = none) :
    fsyncStep s = countFrame s := by
  rw [fsyncStep, forceSample_none hs, commitPending_none hp]

/-- Without a pending switch the edge is the pending sample and the count. -/
theorem fsyncStep_unswitched {s : State} (hp : s.ctx.pendingSwitch = none) :
    fsyncStep s = countFrame (forceSample s) := by
  rw [fsyncStep, commitPending_none (by simpa using hp)]

theorem fsyncStep_frameCount (s : State) : (fsyncStep s).csu.frame = s.csu.frame + 1 := by
  rw [fsyncStep, countFrame_frameCount]
  simp

/-- The end of a switch as it shows in any state with the same contexts, path and events. -/
theorem SwitchEnds.shown {w : Switch} {s t t' : State} (h : SwitchEnds w s t) (hc : t'.ctx = t.ctx)
    (hp : t'.msu.path = t.msu.path) (he : t'.lnk.events = t.lnk.events) : SwitchEnds w s t' := by
  simpa only [SwitchEnds, hc, hp, he] using h

/-- R27, R50: an edge that takes a pending sample and counts the frame, in its fields. -/
theorem fsyncStep_counted {s : State} (h : PortLaw s) (hs : (commitPending (forceSample s)).msu.stab ≠ .off) :
    Counted (s.csu.frame + 1) s.now (forcedRing s) (commitPending (forceSample s)).csu.carried (fsyncStep s) := by
  obtain ⟨-, -, hlaw⟩ := forceSample_keeps h
  have hcount := countFrame_counted (commitPending_portLaw hlaw) hs
  have hring : (forceSample s).csu.ring = forcedRing s := congrArg Csu.ring (forceSample_csu s)
  rw [fsyncStep]
  simpa [hring] using hcount

/-- R45 to R48, R50: under `PortLaw` what an edge in RUNNING shows of a pending switch is what the attempt shows. -/
theorem fsyncStep_switched {s : State} {w : Switch} (hp : s.ctx.pendingSwitch = some w) (hrun : s.msu.stab = .running)
    (h : PortLaw s) :
    let v := attemptSwitch w.index w.ret (forceSample s)
    SwitchEnds w s (fsyncStep s) ∧ (fsyncStep s).msu = { s.msu with path := (fsyncStep s).msu.path } ∧
      (fsyncStep s).adu = v.adu ∧ (fsyncStep s).csu.step = v.csu.step ∧ (fsyncStep s).csu.absorbed = v.csu.absorbed ∧
      Counted (s.csu.frame + 1) s.now (forcedRing s) v.csu.carried (fsyncStep s) := by
  intro v
  have hcommit : commitPending (forceSample s) = v := commitPending_some (by simpa using hp)
  have hstep : fsyncStep s = countFrame v := by rw [fsyncStep, hcommit]
  obtain ⟨-, hevents, hlaw⟩ := forceSample_keeps h
  obtain ⟨kadu, kabs, kevents⟩ := countFrame_keeps (hcommit ▸ commitPending_portLaw hlaw)
  obtain ⟨hends, -, hmsu⟩ := attemptSwitch_running w (s := forceSample s) (by simpa using hrun)
  have hstab : (commitPending (forceSample s)).msu.stab ≠ .off := by
    rw [hcommit, hmsu]
    simp [hrun]
  have hcounted := fsyncStep_counted h hstab
  rw [hcommit] at hcounted
  have hends' : SwitchEnds w s v := hends.congr (by simp) (by simp) (by simp) hevents.symm (by simp) (by simp) (by simp)
  have htmsu : (fsyncStep s).msu = v.msu := by simp [hstep]
  refine ⟨hends'.shown (by simp [hstep]) (by rw [htmsu]) (by rw [hstep, kevents]), ?_, by rw [hstep, kadu], by simp [hstep],
    by rw [hstep, kabs], hcounted⟩
  rw [htmsu, hmsu]
  simp

/-- R25: what the edge makes of each channel when a good switch commits in RUNNING. -/
theorem fsyncStep_part {s : State} {w : Switch} (hp : s.ctx.pendingSwitch = some w) (hrun : s.msu.stab = .running)
    (h : PortLaw s) (hb : firstBad (ctxGet s.ctx w.index).fields = none) (c : Chan) :
    chanPart c (fsyncStep s) = recommitPart (ctxGet s.ctx w.index).fields c .running (chanPart c s) := by
  obtain ⟨-, -, kadu, kstep, kabs, -⟩ := fsyncStep_switched hp hrun h
  obtain ⟨hadu, -, -⟩ := forceSample_keeps h
  obtain ⟨-, hpart⟩ := attemptSwitch_commits w.index w.ret (s := forceSample s) (by simpa using hrun) (by simpa using hb)
  have hforced : chanPart c (forceSample s) = chanPart c s := by
    simp only [chanPart, hadu, forceSample_csu]
  rw [← hforced]
  simpa [chanPart, kadu, kstep, kabs] using hpart c

/-- R33, R47: the conditions a good switch in RUNNING carries, beside those kept. -/
theorem carriedUnion_switchCarries (k : Carried) (i : CtxIx) (s : State) :
    let held := pathHeld (ctxGet s.ctx i) s.msu.angle
    carriedUnion k (switchCarries i s) = { k with
      pathClamp := ⟨k.pathClamp.yaw || held.yaw, k.pathClamp.pitch || held.pitch, k.pathClamp.roll || held.roll⟩
      ctxSwitch := true } := by
  simp [carriedUnion, switchCarries, Carried.empty, axisMap2]

/-- Settles O25: the edge is the pending sample, the pending switch and the count, in that order, each by its own law. -/
theorem fsyncEdgeCountsFrame : Obligations.FsyncEdgeCountsFrame := by
  intro s ha n last16 kept ring counted
  have hring : forcedRing s = ring := rfl
  refine ⟨fsyncStep s, whenUp_awake ha _, fsyncStep_frameCount s, by simp, by simp, by simp, by simp, by simp, by simp,
    ?pending, ?unswitched, ?off, ?scheduled, ?atOnce, ?sampled, ?counted, ?switched⟩
  case pending => simpa [fsyncStep] using commitPending_pending (forceSample s)
  case unswitched =>
    intro hp
    simp [fsyncStep_unswitched hp]
  case off =>
    intro hs hp hoff
    rw [fsyncStep_plain hs hp, countFrame_off hoff]
    rfl
  case scheduled =>
    intro hs hp hon f hf hr
    rw [fsyncStep_plain hs hp, countFrame_schedules hon hf hr]
  case atOnce =>
    intro hs hp hon hf
    rw [fsyncStep_plain hs hp, countFrame_samples hon hf, takeSample_csu]
    exact ⟨recordOf n (nextFrame s), rfl, rfl, rfl, rfl, rfl⟩
  case sampled =>
    intro p hs hp hon f hf hr
    have hf' : activeFields (forceSample s) = some f := by simpa [activeFields] using hf
    rw [fsyncStep_unswitched hp, countFrame_schedules (by simpa using hon) hf' hr, forceSample_some hs, takeSample_csu]
    exact ⟨by simp [n, withRecord], recordOf p.frame s, rfl, rfl, rfl⟩
  case counted =>
    intro hp hon h
    have hnone : (forceSample s).ctx.pendingSwitch = none := by simpa using hp
    have hcounted := fsyncStep_counted h (by rw [commitPending_none hnone]; simpa using hon)
    rw [commitPending_none hnone, forceSample_csu, hring] at hcounted
    exact hcounted
  case switched =>
    intro w hp hrun h x held
    obtain ⟨hends, hmsu, kadu, kstep, kabs, hcounted⟩ := fsyncStep_switched hp hrun h
    rw [hring] at hcounted
    refine ⟨hends, hmsu, by simp, fun hbad => ?_, fun hgood => ⟨?_, fun c => ?_⟩⟩
    · obtain ⟨k, hk⟩ := Option.ne_none_iff_exists'.mp hbad
      obtain ⟨hadu, -, -⟩ := forceSample_keeps h
      have hfault := attemptSwitch_fault (ret := w.ret) (s := forceSample s) (i := w.index) (k := k) (by simpa using hk)
      rw [hfault] at kadu kstep kabs hcounted
      simp only [raise_frame, forceSample_csu] at kadu kstep kabs hcounted
      exact ⟨kadu.trans hadu, kstep, kabs, hcounted⟩
    · obtain ⟨hcar, -⟩ := attemptSwitch_commits w.index w.ret (s := forceSample s) (by simpa using hrun)
        (by simpa using hgood)
      rw [hcar, carriedUnion_switchCarries, forceSample_csu] at hcounted
      simp only [forceSample_frame] at hcounted
      exact hcounted
    · have hpart := fsyncStep_part hp hrun h hgood c
      intro ch gain bars v
      refine ⟨fun hbars => ?_, fun hbars => ?_⟩
      · rw [recommitPart_forced hbars] at hpart
        exact ⟨congrArg ChanPart.step hpart, congrArg ChanPart.absorbed hpart, congrArg ChanPart.ch hpart⟩
      · rw [recommitPart_held hbars] at hpart
        exact ⟨congrArg ChanPart.step hpart, congrArg ChanPart.absorbed hpart, congrArg ChanPart.ch hpart⟩

end Sys2Proof.Machine
end

section
/-! O28: CTX_WRITE and CTX_READ (R40, R41). -/

namespace Sys2Proof.Machine

/-! ## The index of a request -/

theorem ctxOf_none {b : Byte} (h : 4 ≤ b.toNat) : ctxOf b = none := by
  have h0 : b ≠ 0 := by rintro rfl; simp at h
  have h1 : b ≠ 1 := by rintro rfl; simp at h
  have h2 : b ≠ 2 := by rintro rfl; simp at h
  have h3 : b ≠ 3 := by rintro rfl; simp at h
  rw [ctxOf, if_neg h0, if_neg h1, if_neg h2, if_neg h3]

theorem eq_ofNat_ctxCode {b : Byte} {i : CtxIx} (h : b.toNat = ctxCode i) : b = BitVec.ofNat 8 (ctxCode i) := by
  rw [← h, BitVec.ofNat_toNat, BitVec.setWidth_eq]

theorem ctxOf_code {b : Byte} {i : CtxIx} (h : b.toNat = ctxCode i) : ctxOf b = some i := by
  rw [eq_ofNat_ctxCode h]
  cases i <;> rfl

/-! ## The pending switch's context -/

/-- A switch to the context waits (R39). -/
def Pends (i : CtxIx) (c : Ctx) : Prop := ∃ w, c.pendingSwitch = some w ∧ w.index = i

theorem pending_index_iff (i : CtxIx) (c : Ctx) : (c.pendingSwitch.map fun w => w.index) = some i ↔ Pends i c :=
  Option.map_eq_some_iff

/-- R40: what makes a CTX_WRITE BUSY. -/
theorem ctxBusy_iff (i : CtxIx) (c : Ctx) : ctxBusy i c = true ↔ c.active = some i ∨ Pends i c := by
  rw [ctxBusy, Bool.or_eq_true, beq_iff_eq, beq_iff_eq, pending_index_iff]

/-- Figure 12.3: the role's code, an active context's before a pending one's. -/
theorem ctxRole_iff (i : CtxIx) (c : Ctx) :
    (ctxRole i c = 1 ↔ c.active = some i) ∧ (ctxRole i c = 2 ↔ c.active ≠ some i ∧ Pends i c) ∧ ctxRole i c ≤ 2 := by
  by_cases ha : c.active = some i
  · simp [ctxRole, ha]
  · by_cases hp : Pends i c
    · rw [ctxRole, if_neg ha, if_pos ((pending_index_iff i c).mpr hp)]
      simp [ha, hp]
    · rw [ctxRole, if_neg ha, if_neg (mt (pending_index_iff i c).mp hp)]
      simp [ha, hp]

/-! ## The requests -/

theorem ctxWriteReq_range {tag index : Byte} {fields : CtxFields} {s : State} (h : 4 ≤ index.toNat) :
    ctxWriteReq tag index fields s = answer 0x13#8 tag .range [] s := by
  simp only [ctxWriteReq, ctxOf_none h]
  rfl

theorem ctxReadReq_range {tag index : Byte} {s : State} (h : 4 ≤ index.toNat) :
    ctxReadReq tag index s = answer 0x14#8 tag .range [] s := by
  simp only [ctxReadReq, ctxOf_none h]
  rfl

theorem ctxWriteReq_busy {tag index : Byte} {fields : CtxFields} {i : CtxIx} {s : State}
    (hi : index.toNat = ctxCode i) (h : s.ctx.active = some i ∨ Pends i s.ctx) :
    ctxWriteReq tag index fields s = answer 0x13#8 tag .busy [] s := by
  simp only [ctxWriteReq, ctxOf_code hi]
  exact if_pos ((ctxBusy_iff i s.ctx).mpr h)

/-- R40: the table once the static fields of a context are stored. -/
def writtenTable (i : CtxIx) (fields : CtxFields) (c : Ctx) : Ctx :=
  ctxSet c i { ctxGet c i with fields := fields, saved := none }

theorem ctxWriteReq_stores {tag index : Byte} {fields : CtxFields} {i : CtxIx} {s : State}
    (hi : index.toNat = ctxCode i) (h : ¬ (s.ctx.active = some i ∨ Pends i s.ctx)) :
    ctxWriteReq tag index fields s = answer 0x13#8 tag .ok [] { s with ctx := writtenTable i fields s.ctx } := by
  simp only [ctxWriteReq, ctxOf_code hi]
  exact if_neg (mt (ctxBusy_iff i s.ctx).mp h)

@[simp] theorem ctxSet_pendingSwitch (c : Ctx) (i : CtxIx) (x : Context) :
    (ctxSet c i x).pendingSwitch = c.pendingSwitch := by
  cases i <;> rfl

theorem ctxReadReq_reads {tag index : Byte} {i : CtxIx} {s : State} (hi : index.toNat = ctxCode i) :
    ctxReadReq tag index s = answer 0x14#8 tag .ok
      (u8 (ctxCode i) ++ u8 (ctxRole i s.ctx) ++ ctxFieldsBytes (ctxGet s.ctx i).fields ++
        savedBytes (ctxGet s.ctx i).saved ++ u8 (optCtxCode (ctxGet s.ctx i).link)) s := by
  simp only [ctxReadReq, ctxOf_code hi]
  rfl

/-- Settles O28: the index out of range, the busy context, the context written, and the context read. -/
theorem contextsAreWrittenAndRead : Obligations.ContextsAreWrittenAndRead := by
  intro tag index fields s ht
  have hwrite : exec (.ctxWrite tag index fields) s = .next (ctxWriteReq tag index fields s) := takeReq_takes ht _
  have hread : exec (.ctxRead tag index) s = .next (ctxReadReq tag index s) := takeReq_takes ht _
  rw [hwrite, hread]
  refine ⟨fun h => ⟨by rw [ctxWriteReq_range h], by rw [ctxReadReq_range h]⟩, fun i hi => ⟨fun h => ?busy,
    fun ha hp => ⟨writtenTable i fields s.ctx, ?stored, ?active, ?pending, fun j => ctxGet_ctxSet _ _ _ _⟩,
    ctxRole i s.ctx, ctxRole_iff i s.ctx, ?read⟩⟩
  case busy => rw [ctxWriteReq_busy hi h]
  case stored => rw [ctxWriteReq_stores hi (not_or.mpr ⟨ha, hp⟩)]
  case active => exact ctxSet_active _ _ _
  case pending => exact ctxSet_pendingSwitch _ _ _
  case read =>
    rw [ctxReadReq_reads hi, eq_ofNat_ctxCode hi]
    cases (ctxGet s.ctx i).saved <;> cases (ctxGet s.ctx i).link <;> rfl

end Sys2Proof.Machine
end

section
/-! O29: CTX_SELECT and CTX_RETURN (R42 to R48), and the ranges a switch asks for (R45). -/

namespace Sys2Proof.Machine

/-! ## The ranges (R45) -/

theorem fieldBad_eq_false_iff (c : FieldCheck) : fieldBad c = false ↔ c.lo ≤ c.value ∧ c.value ≤ c.hi := by
  rw [fieldBad, Bool.or_eq_false_iff, decide_eq_false_iff_not, decide_eq_false_iff_not, not_lt, not_lt]

theorem firstBad_eq_none_iff (f : CtxFields) :
    firstBad f = none ↔ ∀ c ∈ fieldChecks f, c.lo ≤ c.value ∧ c.value ≤ c.hi := by
  simp only [firstBad, List.find?_eq_none, Bool.not_eq_true, fieldBad_eq_false_iff]

theorem forall_chan_iff {p : Chan → Prop} : (∀ c, p c) ↔ p .sx ∧ p .sy ∧ p .rt := by
  refine ⟨fun h => ⟨h .sx, h .sy, h .rt⟩, fun ⟨hx, hy, hr⟩ c => ?_⟩
  cases c with
  | sx => exact hx
  | sy => exact hy
  | rt => exact hr

/-- Figure 3.1: the gains, the pixel scales and the readout offset are as wide as their ranges, and the rest is bounded. -/
theorem firstBad_eq_none_ranges (f : CtxFields) :
    firstBad f = none ↔
      (1 ≤ f.mode.toNat ∧ f.mode.toNat ≤ 2) ∧
        (∀ c, 3 ≤ (axisOf f.shift c).toNat ∧ (axisOf f.shift c).toNat ≤ 14 ∧ 1 ≤ (axisOf f.limit c).toNat ∧
          (axisOf f.limit c).toNat ≤ 1310720 ∧ (axisOf f.travel c).toNat ≤ 1024) ∧
        f.lookahead.toNat ≤ 15 ∧ f.marginX.toNat ≤ 1024 ∧ f.marginY.toNat ≤ 1024 ∧ f.rollMargin.toNat ≤ 1280 := by
  have half (w : Half) : w.toNat ≤ 65535 := by have := w.isLt; omega
  have byte (b : Byte) : b.toNat ≤ 255 := by have := b.isLt; omega
  simp only [firstBad_eq_none_iff, fieldChecks, List.forall_mem_cons, List.not_mem_nil, false_imp_iff, implies_true,
    forall_chan_iff, axisOf, half, byte, Nat.zero_le, true_and, and_true]
  constructor
  · omega
  · omega

/-! ## A switch made at once -/

/-- R190: an event changes the event set alone. -/
theorem raiseIn_eq (l : Lnk) (d : Detail) : raiseIn l d = { l with events := (raiseIn l d).events } := by
  simp only [raiseIn]
  split <;> rfl

/-- R45: with no switch pending, one to a context with a field out of its range is its event alone. -/
theorem attemptSwitch_fault_unpended {i : CtxIx} {ret : Bool} {s : State} {k : FieldCheck}
    (hp : s.ctx.pendingSwitch = none) (hb : firstBad (ctxGet s.ctx i).fields = some k) :
    attemptSwitch i ret s = raise (.ctxFault i k.code k.value) s := by
  have hctx : ({ s.ctx with pendingSwitch := none } : Ctx) = s.ctx := by rw [← hp]
  rw [attemptSwitch_fault hb, hctx]

/-- Only the reply slot is the request's own: a switch that has been made stays made when it is answered. -/
theorem SwitchMade.answered {w : Switch} {s t : State} (h : SwitchMade w s t) (kind tag : Byte) (status : Status)
    (data : List Byte) : SwitchMade w s (answer kind tag status data t) := by
  obtain ⟨hclock, hpower, hcard, hends, hlnk, hrest⟩ := h
  refine ⟨hclock, hpower, hcard, hends.shown rfl rfl rfl, ?_, hrest⟩
  rw [answer_lnk, hlnk]

/-- R22, R23, R33, R46 to R48: outside RUNNING a good switch commits, and its steps are 0. -/
theorem attemptSwitch_made {w : Switch} {s : State} (h : s.msu.stab ≠ .running)
    (hb : firstBad (ctxGet s.ctx w.index).fields = none) : SwitchMade w s (attemptSwitch w.index w.ret s) := by
  have hends := (attemptSwitch_standing w s h).1
  rw [attemptSwitch_good hb, commit_standing w.index w.ret s h] at hends ⊢
  refine ⟨⟨rfl, rfl, rfl⟩, ⟨rfl, rfl, rfl, rfl⟩, ⟨rfl, rfl, rfl⟩, hends, ?_, rfl, ?_, fun c => ?_⟩
  · exact (raiseIn_eq _ _).trans (by rw [(raiseIn_frame _ _).2.1])
  · simp only [← carriedUnion_switchCarries]
    rfl
  · cases c <;> exact handStep_eq 0 _

/-! ## The requests (R42, R43) -/

theorem selectCtx_same {kind tag : Byte} {i : CtxIx} {ret : Bool} {s : State} (h : s.ctx.active = some i) :
    selectCtx kind tag i ret s = answer kind tag .same [] s := if_pos h

theorem selectCtx_busy {kind tag : Byte} {i : CtxIx} {ret : Bool} {s : State} (ha : s.ctx.active ≠ some i)
    (hp : s.ctx.pendingSwitch ≠ none) : selectCtx kind tag i ret s = answer kind tag .busy [] s := by
  rw [selectCtx, if_neg ha, if_pos (Option.isSome_iff_ne_none.mpr hp)]

/-- R42: with none pending a switch to another context waits in RUNNING, and is attempted elsewhere. -/
theorem selectCtx_other {kind tag : Byte} {i : CtxIx} {ret : Bool} {s : State} (ha : s.ctx.active ≠ some i)
    (hp : s.ctx.pendingSwitch = none) :
    selectCtx kind tag i ret s =
      if s.msu.stab = .running then
        answer kind tag .accepted [] { s with ctx := { s.ctx with pendingSwitch := some ⟨i, ret⟩ } }
      else answer kind tag .ok (switchBytes (ctxGet s.ctx i).fields) (attemptSwitch i ret s) := by
  rw [selectCtx, if_neg ha, if_neg (by simp [hp])]

theorem selectCtx_accepted {kind tag : Byte} {i : CtxIx} {ret : Bool} {s : State} (ha : s.ctx.active ≠ some i)
    (hp : s.ctx.pendingSwitch = none) (h : s.msu.stab = .running) :
    selectCtx kind tag i ret s =
      answer kind tag .accepted [] { s with ctx := { s.ctx with pendingSwitch := some ⟨i, ret⟩ } } := by
  rw [selectCtx_other ha hp, if_pos h]

/-- R45: a switch at once to a context with a field out of its range. -/
theorem selectCtx_faults {kind tag : Byte} {i : CtxIx} {ret : Bool} {s : State} {c : FieldCheck}
    (ha : s.ctx.active ≠ some i) (hp : s.ctx.pendingSwitch = none) (h : s.msu.stab ≠ .running)
    (hb : firstBad (ctxGet s.ctx i).fields = some c) :
    selectCtx kind tag i ret s =
      answer kind tag .ok ([2#8] ++ u8 c.code ++ u32 c.value) (raise (.ctxFault i c.code c.value) s) := by
  rw [selectCtx_other ha hp, if_neg h, attemptSwitch_fault_unpended hp hb]
  simp only [switchBytes, hb]
  rfl

/-- R46 to R48: a switch at once to a good context. -/
theorem selectCtx_commits {kind tag : Byte} {i : CtxIx} {ret : Bool} {s : State} (ha : s.ctx.active ≠ some i)
    (hp : s.ctx.pendingSwitch = none) (h : s.msu.stab ≠ .running) (hb : firstBad (ctxGet s.ctx i).fields = none) :
    (selectCtx kind tag i ret s).lnk.reply = some ⟨kind + 0x80#8, tag, .ok, [1, 0, 0, 0, 0, 0]⟩ ∧
      SwitchMade ⟨i, ret⟩ s (selectCtx kind tag i ret s) := by
  rw [selectCtx_other ha hp, if_neg h]
  refine ⟨?_, (attemptSwitch_made (w := ⟨i, ret⟩) h hb).answered _ _ _ _⟩
  simp only [answer_reply, switchBytes, hb]
  rfl

theorem ctxReturnReq_noLink {tag : Byte} {s : State}
    (h : ∀ o, s.ctx.active = some o → (ctxGet s.ctx o).link = none) :
    ctxReturnReq tag s = answer 0x16#8 tag .noLink [] s := by
  simp only [ctxReturnReq]
  cases ha : s.ctx.active with
  | none => rfl
  | some o => simp only [h o ha]; rfl

/-- R43: with a link CTX_RETURN tests for a pending switch before it selects the context linked to. -/
theorem ctxReturnReq_linked {tag : Byte} {o i : CtxIx} {s : State} (ha : s.ctx.active = some o)
    (hl : (ctxGet s.ctx o).link = some i) :
    ctxReturnReq tag s =
      if s.ctx.pendingSwitch.isSome then answer 0x16#8 tag .busy [] s else selectCtx 0x16#8 tag i true s := by
  simp only [ctxReturnReq, ha, hl]
  rfl

/-- R42: CTX_SELECT, by the index, the active context, the pending switch and the state of the stabilization. -/
theorem ctxSelect_cases (tag index : Byte) (s : State) (ht : Takes s) :
    (4 ≤ index.toNat → exec (.ctxSelect tag index) s = .next (answer 0x15#8 tag .range [] s)) ∧
      ∀ i : CtxIx, index.toNat = ctxCode i → exec (.ctxSelect tag index) s = .next (selectCtx 0x15#8 tag i false s) := by
  have hx : exec (.ctxSelect tag index) s = .next (ctxSelectReq tag index s) := takeReq_takes ht _
  rw [hx]
  refine ⟨fun h => ?_, fun i hi => ?_⟩
  · simp only [ctxSelectReq, ctxOf_none h]
    rfl
  · simp only [ctxSelectReq, ctxOf_code hi]
    rfl

/-- Settles O29: each request is the selection of a context, whose cases are the lemmas about `selectCtx`. -/
theorem contextSwitches : Obligations.ContextSwitches := by
  refine ⟨fun tag index s ht => ?select, fun tag s ht => ?back, firstBad_eq_none_ranges⟩
  case select =>
    obtain ⟨hrange, hselect⟩ := ctxSelect_cases tag index s ht
    refine ⟨hrange, fun i hi => ?_⟩
    rw [hselect i hi]
    exact ⟨fun ha => by rw [selectCtx_same ha], fun ha hp => by rw [selectCtx_busy ha hp],
      fun ha hp h => by rw [selectCtx_accepted ha hp h], fun ha hp h =>
        ⟨fun c hb => by rw [selectCtx_faults ha hp h hb], fun hb => ⟨_, rfl, selectCtx_commits ha hp h hb⟩⟩⟩
  case back =>
    have hx : exec (.ctxReturn tag) s = .next (ctxReturnReq tag s) := takeReq_takes ht _
    rw [hx]
    refine ⟨fun h => by rw [ctxReturnReq_noLink h], fun o i ha hl => ?_⟩
    have hother (hio : i ≠ o) : s.ctx.active ≠ some i := fun e => hio (Option.some.inj (e.symm.trans ha))
    rw [ctxReturnReq_linked ha hl]
    refine ⟨fun hp => by rw [if_pos (Option.isSome_iff_ne_none.mpr hp)], ?same, ?accepted, ?atOnce⟩
    case same =>
      rintro hp rfl
      rw [if_neg (by simp [hp]), selectCtx_same ha]
    case accepted =>
      intro hp hio h
      rw [if_neg (by simp [hp]), selectCtx_accepted (hother hio) hp h]
    case atOnce =>
      intro hp hio h
      rw [if_neg (by simp [hp])]
      exact ⟨fun c hb => by rw [selectCtx_faults (hother hio) hp h hb],
        fun hb => ⟨_, rfl, selectCtx_commits (hother hio) hp h hb⟩⟩

end Sys2Proof.Machine
end

section
/-! Tenth law (R60, R150, R161): where the SUPPLY reason stands, and that nothing with a reason drives or charges. -/

namespace Sys2Proof.Machine

/-! ## The law in its parts -/

/-- R60, one channel: SUPPLY is in its set or not, and with a reason in the set it is not ACTIVE. -/
def ChannelHeldIn (supply : Bool) (ch : Channel) : Prop :=
  ch.park.supply = supply ∧ (ch.st = .active → parkEmpty ch.park = true)

/-- R150, R161: SUPPLY is among the charger's reasons or not; a phase that charges has no reason, and any other phase no
command. -/
def ChargerHeldIn (supply : Bool) (g : Chg) : Prop :=
  g.pause.supply = supply ∧ (charging g.phase = true → pauseEmpty g.pause = true) ∧
    (charging g.phase = false → g.iCmd = 0)

/-- The tenth law over what it reads: the channels, the charger and the supply state. -/
structure Supplied (a : PerChan Channel) (g : Chg) (v : Supply) : Prop where
  channels : ∀ c, ChannelHeldIn (v != .normal) (chanGet a c)
  charger : ChargerHeldIn (v != .normal) g

theorem supplyLaw_iff (s : State) : SupplyLaw s ↔ Supplied s.adu s.chg s.ssv.st := by
  have hb (b : Bool) : (b = true ↔ s.ssv.st ≠ .normal) ↔ b = (s.ssv.st != .normal) := by
    rw [← bne_iff_ne, ← Bool.eq_iff_iff]
  simp only [SupplyLaw, ChannelHeld, hb]
  exact ⟨fun ⟨hc, hg⟩ => ⟨hc, hg⟩, fun h => ⟨h.channels, h.charger⟩⟩

/-! ## Channels -/

theorem parkedBy_held {on : Bool} {ch : Channel} (r : ParkReason) (h : ChannelHeldIn on ch) :
    ChannelHeldIn (on || r == .supply) (parkedBy r ch) := by
  obtain ⟨rfl, -⟩ := h
  by_cases ha : ch.st = .active
  · cases r <;> simp [ChannelHeldIn, parkedBy, parkPut, ha]
  · cases r <;> simp [ChannelHeldIn, parkedBy, parkPut, ha]

theorem unparkedBy_held {on : Bool} {ch : Channel} (r : ParkReason) (now : Word) (h : ChannelHeldIn on ch) :
    ChannelHeldIn (on && r != .supply) (unparkedBy r now ch) := by
  obtain ⟨rfl, ha⟩ := h
  have hs : (parkPut ch.park r false).supply = (ch.park.supply && r != .supply) := by cases r <;> simp [parkPut]
  have he (hp : parkEmpty ch.park = true) : parkEmpty (parkPut ch.park r false) = true := by
    cases r <;> simp_all [parkEmpty, parkPut]
  simp only [unparkedBy]
  split
  · next hc => exact ⟨hs, fun _ => hc.2.2⟩
  · exact ⟨hs, fun hact => he (ha hact)⟩

variable {a : PerChan Channel} {g : Chg} {v : Supply} {s : State}

/-- A channel replaced by one with the same SUPPLY reason, ACTIVE with no reason alone. -/
theorem Supplied.set (h : Supplied a g v) (c : Chan) {ch : Channel} (hs : ch.park.supply = (chanGet a c).park.supply)
    (ha : ch.st = .active → parkEmpty ch.park = true) : Supplied (chanSet a c ch) g v := by
  refine ⟨fun d => ?_, h.charger⟩
  rw [chanGet_chanSet]
  split
  · exact ⟨hs.trans (h.channels c).1, ha⟩
  · exact h.channels d

/-- A channel replaced by one in the same state with the same reasons. -/
theorem Supplied.alike (h : Supplied a g v) (c : Chan) {ch : Channel} (hst : ch.st = (chanGet a c).st)
    (hp : ch.park = (chanGet a c).park) : Supplied (chanSet a c ch) g v :=
  h.set c (by rw [hp]) (by rw [hst, hp]; exact (h.channels c).2)

@[simp] theorem handStep_supplied (c : Chan) (step : Int) (h : Supplied a g v) :
    Supplied (chanSet a c (handStep step (chanGet a c))) g v :=
  h.alike c (by simp) (by simp)

@[simp] theorem zeroStep_supplied (c : Chan) (h : Supplied s.adu g v) : Supplied (zeroStep c s).adu g v := by
  simp [zeroStep, h]

@[simp] theorem zeroSteps_supplied (h : Supplied s.adu g v) : Supplied (zeroSteps s).adu g v :=
  zeroStep_supplied .rt (zeroStep_supplied .sy (zeroStep_supplied .sx h))

@[simp] theorem splitChan_supplied (r : PerAxis Int) (c : Chan) (h : Supplied s.adu g v) :
    Supplied (splitChan r c s).adu g v := by
  simp only [splitChan]; split <;> simp [h]

@[simp] theorem splitTick_supplied (r : PerAxis Int) (h : Supplied s.adu g v) : Supplied (splitTick r s).adu g v :=
  splitChan_supplied r .rt (splitChan_supplied r .sy (splitChan_supplied r .sx h))

@[simp] theorem recommitChan_supplied (f : CtxFields) (c : Chan) (h : Supplied s.adu g v) :
    Supplied (recommitChan f c s).adu g v := by
  simp only [recommitChan]; split <;> simp [h]

@[simp] theorem recommitSteps_supplied (f : CtxFields) (h : Supplied s.adu g v) :
    Supplied (recommitSteps f s).adu g v :=
  recommitChan_supplied f .rt (recommitChan_supplied f .sy (recommitChan_supplied f .sx h))

/-- R57: a channel moved to a state that drives nothing keeps its reasons. -/
theorem moveChannel_supplied (c : Chan) {ch : Channel} (hs : ch.park.supply = (chanGet s.adu c).park.supply)
    (ha : ch.st = .active → parkEmpty ch.park = true) (h : Supplied s.adu g v) :
    Supplied (moveChannel c ch s).adu g v := by
  have hput : Supplied (putChan c ch s).adu g v := h.set c hs ha
  simp only [moveChannel]
  split
  · exact zeroStep_supplied c hput
  · exact hput

theorem haltChannel_supplied (c : Chan) {st : ChanState} (hst : st ≠ .active) (h : Supplied s.adu g v) :
    Supplied (moveChannel c (haltChannel st (chanGet s.adu c)) s).adu g v :=
  moveChannel_supplied c rfl (fun ha => absurd ha hst) h

/-- R61: a reason but SUPPLY that joins a channel's set. -/
theorem addPark_supplied {r : ParkReason} (hr : r ≠ .supply) (c : Chan) (h : Supplied s.adu g v) :
    Supplied (addPark r c s).adu g v := by
  obtain ⟨_, _, -, hadu, -⟩ := addPark_spec r c s
  refine ⟨fun d => ?_, h.charger⟩
  rw [hadu]
  split
  · simpa [beq_eq_false_iff_ne.mpr hr] using parkedBy_held r (h.channels d)
  · exact h.channels d

theorem addParkAll_supplied {r : ParkReason} (hr : r ≠ .supply) (h : Supplied s.adu g v) :
    Supplied (addParkAll r s).adu g v :=
  addPark_supplied hr .rt (addPark_supplied hr .sy (addPark_supplied hr .sx h))

/-- R62: a reason but SUPPLY that leaves a channel's set. -/
theorem removePark_supplied {r : ParkReason} (hr : r ≠ .supply) (c : Chan) (h : Supplied s.adu g v) :
    Supplied (removePark r c s).adu g v := by
  obtain ⟨-, hadu⟩ := removePark_spec r c s
  refine ⟨fun d => ?_, h.charger⟩
  rw [hadu]
  split
  · simpa [bne_iff_ne.mpr hr] using unparkedBy_held r s.now (h.channels d)
  · exact h.channels d

theorem removeParkAll_supplied {r : ParkReason} (hr : r ≠ .supply) (h : Supplied s.adu g v) :
    Supplied (removeParkAll r s).adu g v :=
  removePark_supplied hr .rt (removePark_supplied hr .sy (removePark_supplied hr .sx h))

/-- R58, R66: a channel that is switched on is ACTIVE only without a reason. -/
theorem resumeChannel_active {now : Word} {ch : Channel} (h : (resumeChannel now ch).st = .active) :
    parkEmpty (resumeChannel now ch).park = true := by
  simp only [resumeChannel] at h ⊢
  split at h
  · next he => rw [if_pos he]; exact he
  · simp at h

@[simp] theorem resumeChannel_park (now : Word) (ch : Channel) : (resumeChannel now ch).park = ch.park := by
  simp only [resumeChannel]; split <;> rfl

theorem enableChannel_supplied (c : Chan) (h : Supplied s.adu g v) : Supplied (enableChannel c s).adu g v := by
  simp only [enableChannel]
  split
  case h_1 | h_2 | h_3 => exact h.set c (by simp) resumeChannel_active
  all_goals exact h.alike c rfl rfl

theorem thermalShutdown_supplied (temp : Int) (h : Supplied s.adu g v) :
    Supplied (thermalShutdown temp s).adu g v := by
  simp only [thermalShutdown]
  split
  · simp only [raise_frame]
    exact forMask_keeps (P := fun u => Supplied u.adu g v) (fun c _ hu => haltChannel_supplied c (by decide) hu) _ h
  · exact h

theorem overcurrentStep_supplied (c : Chan) (cycles : Nat) (h : Supplied s.adu g v) :
    Supplied (overcurrentStep c cycles s).adu g v := by
  simp only [overcurrentStep, qualifyFault]
  repeat' split
  iterate 2
    simp only [raise_frame]
    exact moveChannel_supplied c rfl (fun ha => absurd ha (by simp [haltChannel])) h
  · exact h.alike c rfl rfl
  · exact h

theorem retryExpiry_supplied (c : Chan) (h : Supplied s.adu g v) : Supplied (retryExpiry c s).adu g v := by
  simp only [retryExpiry]
  split
  · exact h.set c (by simp) resumeChannel_active
  · exact h

theorem cleanExpiry_supplied (c : Chan) (h : Supplied s.adu g v) : Supplied (cleanExpiry c s).adu g v := by
  simp only [cleanExpiry]
  repeat' split
  · exact h
  · exact h.alike c rfl rfl
  · exact h

/-! ## The charger -/

/-- R150: the charger with the reasons `p`; one that is added where it charges pauses it. -/
theorem setPause_held {on : Bool} (p : PauseSet) (h : ChargerHeldIn on s.chg) :
    ChargerHeldIn p.supply (setPause p s).chg := by
  obtain ⟨-, hempty, hidle⟩ := h
  by_cases hc : (pauseAdds s.chg.pause p && pausable s.chg.phase) = true
  · simp only [setPause, if_pos hc, chargeEvent_frame]
    exact ⟨rfl, fun hch => absurd hch (by simp [charging]), fun _ => rfl⟩
  · simp only [setPause, if_neg hc]
    refine ⟨rfl, fun hch => ?_, hidle⟩
    have hadds : pauseAdds s.chg.pause p = false := by simpa [pausable, hch] using hc
    have hnone := hempty hch
    simp only [pauseEmpty, pauseAdds] at hnone hadds ⊢
    simp_all

theorem setPause_supplied {p : PauseSet} (hp : p.supply = s.chg.pause.supply) (h : Supplied a s.chg v) :
    Supplied a (setPause p s).chg v := by
  refine ⟨h.channels, ?_⟩
  rw [← h.charger.1, ← hp]
  exact setPause_held p h.charger

theorem lowerCommand_supplied (h : Supplied a s.chg v) : Supplied a (lowerCommand s).chg v := by
  obtain ⟨hc, hs, hempty, hidle⟩ := h
  simp only [lowerCommand]
  split
  · next hch => exact ⟨hc, hs, hempty, fun hn => absurd (hn.symm.trans hch) (by decide)⟩
  · exact ⟨hc, hs, hempty, hidle⟩

@[simp] theorem chargerZones_supplied (h : Supplied a s.chg v) : Supplied a (chargerZones s).chg v :=
  lowerCommand_supplied (setPause_supplied rfl h)

/-- R149 to R151: a notice puts the charger in a phase that charges only where no reason stands. -/
theorem noticePhase_pause (s : State) :
    (noticePhase s).pause = s.chg.pause ∧ (charging (noticePhase s).phase = true → pauseEmpty s.chg.pause = true) := by
  have hp : (cyclePhase s).pause = s.chg.pause := by
    simp only [cyclePhase, newCycle, moveCycle, setCycle]
    (repeat' split) <;> rfl
  simp only [noticePhase]
  repeat' split
  case isFalse.isFalse.isFalse.isFalse.isFalse he => exact ⟨hp, fun _ => by simpa using he⟩
  all_goals exact ⟨rfl, fun hc => absurd hc Bool.false_ne_true⟩

theorem chargerNotice_supplied (h : Supplied a s.chg v) : Supplied a (chargerNotice s).chg v := by
  obtain ⟨hp, hc⟩ := noticePhase_pause (useTarget s)
  simp only [chargerNotice, chargeEvent_frame]
  refine ⟨h.channels, hp ▸ h.charger.1, fun hch => ?_, fun hn => ?_⟩
  · exact hp ▸ hc hch
  · simp only [chargerBudget] at hn ⊢
    rw [hn]
    rfl

theorem chargeDisable_supplied (h : Supplied a s.chg v) : Supplied a (chargeDisable s).chg v := by
  obtain ⟨hc, hs, hempty, hidle⟩ := h
  simp only [chargeDisable]
  split
  · simp only [chargeEvent_frame]
    exact ⟨hc, hs, fun hch => absurd hch Bool.false_ne_true, fun _ => rfl⟩
  · exact ⟨hc, hs, hempty, hidle⟩

theorem applyCharge_supplied (enable : Bool) (target fast termination fastTimer : Half) (h : Supplied a s.chg v) :
    Supplied a (applyCharge enable target fast termination fastTimer s).chg v := by
  have hl := lowerCommand_supplied (a := a) (v := v) (s := { s with
    chg := clampCharge target fast termination fastTimer enable s.chg }) ⟨h.channels, h.charger⟩
  simp only [applyCharge]
  split
  · exact hl
  · exact chargeDisable_supplied hl

/-! ## The supply state (R165 to R168) -/

/-- R60, R150: outside NORMAL the law does not say in which state. -/
theorem Supplied.outside (h : Supplied a g v) {w : Supply} (hv : v ≠ .normal) (hw : w ≠ .normal) : Supplied a g w := by
  have he : (v != .normal) = (w != .normal) := by rw [bne_iff_ne.mpr hv, bne_iff_ne.mpr hw]
  exact ⟨he ▸ h.channels, he ▸ h.charger⟩

/-- R166: SUPPLY joins every set when the state leaves NORMAL. -/
theorem startRide_supplied (h : Supplied s.adu s.chg v) :
    Supplied (startRide s).adu (startRide s).chg (startRide s).ssv.st := by
  have hst : (startRide s).ssv.st = .rideThrough := by simp [startRide, supplyEvent, addSupply]
  rw [hst]
  simp only [startRide, supplyEvent, addSupply, pauseSupply, raise_frame, setPause_frame]
  set u : State := { s with ssv := _ } with hu
  obtain ⟨_, _, -, hadu, -⟩ := addParkAll_spec .supply u
  refine ⟨fun c => ?_, ?_⟩
  · have hc := parkedBy_held .supply (h.channels c)
    rw [beq_self_eq_true, Bool.or_true] at hc
    exact hadu c ▸ hc
  · exact setPause_held _ (on := v != .normal) (by simpa using h.charger)

/-- R167, R168: SUPPLY leaves every set when the state becomes NORMAL. -/
theorem toNormal_supplied (kind : SupplyKind) (h : Supplied s.adu s.chg v) :
    Supplied (toNormal kind s).adu (toNormal kind s).chg (toNormal kind s).ssv.st := by
  obtain ⟨ht, hadu⟩ := toNormal_spec kind s
  have hst : (toNormal kind s).ssv.st = .normal := by rw [ht]
  have hchg : (toNormal kind s).chg = { s.chg with pause := { s.chg.pause with supply := false } } := by rw [ht]
  rw [hst, hchg]
  refine ⟨fun c => ?_, rfl, fun hc => ?_, h.charger.2.2⟩
  · have hu := unparkedBy_held .supply s.now (h.channels c)
    rw [bne_self_eq_false, Bool.and_false] at hu
    exact hadu c ▸ hu
  · have hnone := h.charger.2.1 hc
    simp only [pauseEmpty, Bool.not_eq_true', Bool.or_eq_false_iff] at hnone ⊢
    exact ⟨hnone.1, trivial⟩

@[simp] theorem checkStable_supplied (h : Supplied s.adu s.chg s.ssv.st) :
    Supplied (checkStable s).adu (checkStable s).chg (checkStable s).ssv.st := by
  simp only [checkStable]
  split
  · exact toNormal_supplied _ h
  · exact h

/-! ## The settling of the port -/

@[simp] theorem writerFault_supplied (slot addr : Nat) (kind : WriteKind) (h : Supplied s.adu s.chg s.ssv.st) :
    Supplied (writerFault slot addr kind s).adu (writerFault slot addr kind s).chg
      (writerFault slot addr kind s).ssv.st := by
  simp [writerFault, h]

@[simp] theorem closeEnd_supplied (h : Supplied s.adu s.chg s.ssv.st) :
    Supplied (closeEnd s).adu (closeEnd s).chg (closeEnd s).ssv.st := by
  simp only [closeEnd]; (repeat' split) <;> simp [h]

@[simp] theorem closeSlots_supplied (c : EmergencyClose) (h : Supplied s.adu s.chg s.ssv.st) :
    Supplied (closeSlots c s).adu (closeSlots c s).chg (closeSlots c s).ssv.st := by
  simp only [closeSlots]; (repeat' split) <;> simp [h]

@[simp] theorem closeUpdates_supplied (c : EmergencyClose) (h : Supplied s.adu s.chg s.ssv.st) :
    Supplied (closeUpdates c s).adu (closeUpdates c s).chg (closeUpdates c s).ssv.st := by
  simp only [closeUpdates]; (repeat' split) <;> simp [h]

@[simp] theorem closeAdvance_supplied (h : Supplied s.adu s.chg s.ssv.st) :
    Supplied (closeAdvance s).adu (closeAdvance s).chg (closeAdvance s).ssv.st := by
  simp only [closeAdvance]; (repeat' split) <;> simp [h]

@[simp] theorem settle_supplied (h : Supplied s.adu s.chg s.ssv.st) :
    Supplied (settle s).adu (settle s).chg (settle s).ssv.st := by
  simp only [settle]; (repeat' split) <;> simp [h]

/-! ## The card, frames and the guard -/

@[simp] theorem unmountReq_supplied (tag : Byte) (h : Supplied s.adu s.chg s.ssv.st) :
    Supplied (unmountReq tag s).adu (unmountReq tag s).chg (unmountReq tag s).ssv.st := by
  simp only [unmountReq]; (repeat' split) <;> simp [h]

@[simp] theorem recStopReq_supplied (tag : Byte) (h : Supplied s.adu s.chg s.ssv.st) :
    Supplied (recStopReq tag s).adu (recStopReq tag s).chg (recStopReq tag s).ssv.st := by
  simp only [recStopReq]; (repeat' split) <;> simp [h]

@[simp] theorem recStartReq_supplied (tag : Byte) (h : Supplied s.adu s.chg s.ssv.st) :
    Supplied (recStartReq tag s).adu (recStartReq tag s).chg (recStartReq tag s).ssv.st := by
  simp only [recStartReq, recStartWith]; (repeat' split) <;> simp [h]

@[simp] theorem dataReq_supplied (tag : Byte) (bytes : List Byte) (h : Supplied s.adu s.chg s.ssv.st) :
    Supplied (dataReq tag bytes s).adu (dataReq tag bytes s).chg (dataReq tag bytes s).ssv.st := by
  simp only [dataReq]; (repeat' split) <;> simp [h]

@[simp] theorem slotLockReq_supplied (code tag : Byte) (on : Bool) (slot : Half) (kind : Byte)
    (h : Supplied s.adu s.chg s.ssv.st) :
    Supplied (slotLockReq code tag on slot kind s).adu (slotLockReq code tag on slot kind s).chg
      (slotLockReq code tag on slot kind s).ssv.st := by
  simp only [slotLockReq]; (repeat' split) <;> simp [h]

@[simp] theorem motionReadReq_supplied (tag : Byte) (slot : Half) (mode count : Byte)
    (h : Supplied s.adu s.chg s.ssv.st) :
    Supplied (motionReadReq tag slot mode count s).adu (motionReadReq tag slot mode count s).chg
      (motionReadReq tag slot mode count s).ssv.st := by
  simp only [motionReadReq, readContinue, readStart, beginRead]; (repeat' split) <;> simp [h]

@[simp] theorem mountStep_supplied (i : Nat) (h : Supplied s.adu s.chg s.ssv.st) :
    Supplied (mountStep i s).adu (mountStep i s).chg (mountStep i s).ssv.st := by
  simp only [mountStep, completeFormat, completeScan, completeMount]; (repeat' split) <;> simp [h]

@[simp] theorem mountEntry_supplied (i : Nat) (e : Entry) (h : Supplied s.adu s.chg s.ssv.st) :
    Supplied (mountEntry i e s).adu (mountEntry i e s).chg (mountEntry i e s).ssv.st := by
  simp [mountEntry, h]

@[simp] theorem broughtUp_supplied (capacity : Nat) (h : Supplied s.adu s.chg s.ssv.st) :
    Supplied (broughtUp capacity s).adu (broughtUp capacity s).chg (broughtUp capacity s).ssv.st := by
  simp only [broughtUp]; (repeat' split) <;> simp [h]

@[simp] theorem unitDone_supplied (i n : Nat) (h : Supplied s.adu s.chg s.ssv.st) :
    Supplied (unitDone i n s).adu (unitDone i n s).chg (unitDone i n s).ssv.st := by
  simp [unitDone, h]

@[simp] theorem unitCompletion_supplied (h : Supplied s.adu s.chg s.ssv.st) :
    Supplied (unitCompletion s).adu (unitCompletion s).chg (unitCompletion s).ssv.st := by
  simp only [unitCompletion]; (repeat' split) <;> simp [h]

@[simp] theorem blockDone_supplied (i n : Nat) (h : Supplied s.adu s.chg s.ssv.st) :
    Supplied (blockDone i n s).adu (blockDone i n s).chg (blockDone i n s).ssv.st := by
  simp [blockDone, h]

@[simp] theorem openingDone_supplied (i : Nat) (h : Supplied s.adu s.chg s.ssv.st) :
    Supplied (openingDone i s).adu (openingDone i s).chg (openingDone i s).ssv.st := by
  simp only [openingDone]; (repeat' split) <;> simp [h]

@[simp] theorem closedDone_supplied (i : Nat) (reason : CloseReason) (h : Supplied s.adu s.chg s.ssv.st) :
    Supplied (closedDone i reason s).adu (closedDone i reason s).chg (closedDone i reason s).ssv.st := by
  simp only [closedDone]; (repeat' split) <;> simp [h]

@[simp] theorem emDone_supplied (h : Supplied s.adu s.chg s.ssv.st) :
    Supplied (emDone s).adu (emDone s).chg (emDone s).ssv.st := by
  simp only [emDone, emClosedDone]; (repeat' split) <;> simp [h]

@[simp] theorem transferFailed_supplied (t : Transfer) (h : Supplied s.adu s.chg s.ssv.st) :
    Supplied (transferFailed t s).adu (transferFailed t s).chg (transferFailed t s).ssv.st := by
  simp only [transferFailed, emUpdateFailed, emWriteFailed]; (repeat' split) <;> simp [h]

@[simp] theorem attemptFailed_supplied (h : Supplied s.adu s.chg s.ssv.st) :
    Supplied (attemptFailed s).adu (attemptFailed s).chg (attemptFailed s).ssv.st := by
  simp only [attemptFailed]; (repeat' split) <;> simp [h]

@[simp] theorem attemptTimeout_supplied (h : Supplied s.adu s.chg s.ssv.st) :
    Supplied (attemptTimeout s).adu (attemptTimeout s).chg (attemptTimeout s).ssv.st := by
  simp only [attemptTimeout]; (repeat' split) <;> simp [h]

@[simp] theorem emFailed_supplied (h : Supplied s.adu s.chg s.ssv.st) :
    Supplied (emFailed s).adu (emFailed s).chg (emFailed s).ssv.st := by
  simp only [emFailed]; (repeat' split) <;> simp [h]

@[simp] theorem readDone_supplied (wanted : Bool) (blocks : List Byte) (h : Supplied s.adu s.chg s.ssv.st) :
    Supplied (readDone wanted blocks s).adu (readDone wanted blocks s).chg (readDone wanted blocks s).ssv.st := by
  simp only [readDone]; (repeat' split) <;> simp [h]

@[simp] theorem removed_supplied (h : Supplied s.adu s.chg s.ssv.st) :
    Supplied (removed s).adu (removed s).chg (removed s).ssv.st := by
  simp only [removed]; (repeat' split) <;> simp [h]

@[simp] theorem takeSample_supplied (n : Word) (h : Supplied s.adu s.chg s.ssv.st) :
    Supplied (takeSample n s).adu (takeSample n s).chg (takeSample n s).ssv.st := by
  simp [takeSample, produce, h]

@[simp] theorem forceSample_supplied (h : Supplied s.adu s.chg s.ssv.st) :
    Supplied (forceSample s).adu (forceSample s).chg (forceSample s).ssv.st := by
  simp only [forceSample]; (repeat' split) <;> simp [h]

@[simp] theorem countFrame_supplied (h : Supplied s.adu s.chg s.ssv.st) :
    Supplied (countFrame s).adu (countFrame s).chg (countFrame s).ssv.st := by
  simp only [countFrame]; (repeat' split) <;> simp [h]

@[simp] theorem cropStep_supplied (h : Supplied s.adu s.chg s.ssv.st) :
    Supplied (cropStep s).adu (cropStep s).chg (cropStep s).ssv.st := by
  simp only [cropStep]; (repeat' split) <;> simp [h]

end Sys2Proof.Machine
end

section
/-! Tenth law (R60, R150, R161): every step of the part keeps it. -/

namespace Sys2Proof.Machine

variable {s : State}

/-! ## The guard, the impact park and the tick -/

theorem tripGuard_supplied (cause : Trip) (h : Supplied s.adu s.chg s.ssv.st) :
    Supplied (tripGuard cause s).adu (tripGuard cause s).chg (tripGuard cause s).ssv.st := by
  have hp := addParkAll_supplied (r := .guard) (by decide) (s := setGuard .tripped (some cause) none s) h
  simp only [tripGuard]
  exact settle_supplied (by simpa using hp)

theorem restoreGuard_supplied (kind : Byte) (h : Supplied s.adu s.chg s.ssv.st) :
    Supplied (restoreGuard kind s).adu (restoreGuard kind s).chg (restoreGuard kind s).ssv.st := by
  have hp := removeParkAll_supplied (r := .guard) (by decide) h
  simp only [restoreGuard]
  split
  · simpa using hp
  · exact h

theorem checkIn_supplied (h : Supplied s.adu s.chg s.ssv.st) :
    Supplied (checkIn s).adu (checkIn s).chg (checkIn s).ssv.st := by
  simp only [checkIn]
  split
  · exact h
  · exact tripGuard_supplied _ h
  · simpa using h
  · simpa using restoreGuard_supplied _ h

theorem startPark_supplied (h : Supplied s.adu s.chg s.ssv.st) :
    Supplied (startPark s).adu (startPark s).chg (startPark s).ssv.st := by
  simp only [startPark]
  split
  · exact h
  · have hp := addParkAll_supplied (r := .impact) (by decide) (s := { s with msu := { s.msu with
      parkEnd := some (later s.now (ticksOfMs s.msu.tickImp.park)) } }) h
    simpa using hp

theorem impact_supplied (h : Supplied s.adu s.chg s.ssv.st) :
    Supplied (impact s).adu (impact s).chg (impact s).ssv.st := by
  have hp := startPark_supplied (s := { s with msu := holdRearm s.msu s.now }) h
  simp only [impact]
  exact settle_supplied (by simpa using hp)

theorem commit_supplied (i : CtxIx) (ret : Bool) (h : Supplied s.adu s.chg s.ssv.st) :
    Supplied (commit i ret s).adu (commit i ret s).chg (commit i ret s).ssv.st := by
  simp [commit, h]

theorem commitPending_supplied (h : Supplied s.adu s.chg s.ssv.st) :
    Supplied (commitPending s).adu (commitPending s).chg (commitPending s).ssv.st := by
  simp only [commitPending, attemptSwitch]; (repeat' split) <;> simp [commit, h]

theorem selectCtx_supplied (kind tag : Byte) (i : CtxIx) (ret : Bool) (h : Supplied s.adu s.chg s.ssv.st) :
    Supplied (selectCtx kind tag i ret s).adu (selectCtx kind tag i ret s).chg (selectCtx kind tag i ret s).ssv.st := by
  simp only [selectCtx, attemptSwitch]; (repeat' split) <;> simp [commit, h]

theorem leaveRunning_supplied (h : Supplied s.adu s.chg s.ssv.st) :
    Supplied (leaveRunning s).adu (leaveRunning s).chg (leaveRunning s).ssv.st := by
  simp only [leaveRunning]
  split
  · exact commitPending_supplied (by simp [h])
  · exact h

theorem tickSteps_supplied (h : Supplied s.adu s.chg s.ssv.st) :
    Supplied (tickSteps s).adu (tickSteps s).chg (tickSteps s).ssv.st := by
  have hl : Supplied (learnBias (tickArith s)).adu (learnBias (tickArith s)).chg (learnBias (tickArith s)).ssv.st := by
    simpa using h
  simp only [tickSteps]
  split
  · simpa using splitTick_supplied _ (impact_supplied hl)
  · simpa using splitTick_supplied _ hl

theorem tickStep_supplied (h : Supplied s.adu s.chg s.ssv.st) :
    Supplied (tickStep s).adu (tickStep s).chg (tickStep s).ssv.st := by
  have ht := tickSteps_supplied h
  have hw : Supplied (tickWork s).adu (tickWork s).chg (tickWork s).ssv.st := by
    obtain hl | hl := Bool.eq_false_or_eq_true (lostNow s.msu)
    · rw [tickWork_lost hl]
      exact leaveRunning_supplied (by simpa using ht)
    · obtain hr | hr := Bool.eq_false_or_eq_true (restoredNow s.msu)
      · rw [tickWork_restored hr]
        simpa using ht
      · rwa [tickWork_plain hl hr]
  simp only [tickStep]
  split
  · exact ⟨h.channels, h.charger⟩
  · exact ⟨hw.channels, hw.charger⟩

/-! ## The scan, the rail and the resets -/

theorem scanStep_supplied (r : Reading) (h : Supplied s.adu s.chg s.ssv.st) :
    Supplied (scanStep r s).adu (scanStep r s).chg (scanStep r s).ssv.st := by
  have hdie (before : DieZone) {u : State} (hu : Supplied u.adu u.chg u.ssv.st) :
      Supplied (dieChanged before u).adu (dieChanged before u).chg (dieChanged before u).ssv.st := by
    have hz : Supplied u.adu (chargerZones (raise (.dieZone before (dieZone u.scn.die) u.scn.tDie.latest u.now) u)).chg
        u.ssv.st := chargerZones_supplied hu
    simp only [dieChanged]
    repeat' split
    · exact hu
    · simpa using thermalShutdown_supplied u.scn.tDie.latest (s := chargerZones (raise _ u)) (by simpa using hz)
    · simpa using hz
  have hend {u : State} (hu : Supplied u.adu u.chg u.ssv.st) :
      Supplied (roundEnd u).adu (roundEnd u).chg (roundEnd u).ssv.st := by
    simpa [roundEnd] using chargerNotice_supplied (s := powerNotice u) (by simpa using hu)
  have hconv : Supplied (convert r s).adu (convert r s).chg (convert r s).ssv.st := by
    simp only [convert]
    split
    case h_8 => exact hend (hdie _ ⟨h.channels, h.charger⟩)
    case h_7 =>
      simp only [convertTBat, batteryChanged]
      split
      · exact h
      · simp [h]
    all_goals exact h
  exact hconv

theorem fallBelowWarn_supplied (h : Supplied s.adu s.chg s.ssv.st) :
    Supplied (fallBelowWarn s).adu (fallBelowWarn s).chg (fallBelowWarn s).ssv.st := by
  simp only [fallBelowWarn]
  split
  · exact startRide_supplied (s := setRail .belowWarn none s) h
  · exact h

theorem riseToRecover_supplied (h : Supplied s.adu s.chg s.ssv.st) :
    Supplied (riseToRecover s).adu (riseToRecover s).chg (riseToRecover s).ssv.st := by
  simp only [riseToRecover]
  repeat' split
  · exact h
  · exact toNormal_supplied .recovered (s := setRail .atRecover (some 0) s) h
  · exact h

theorem rideExpiry_supplied (h : Supplied s.adu s.chg s.ssv.st) :
    Supplied (rideExpiry s).adu (rideExpiry s).chg (rideExpiry s).ssv.st := by
  simp only [rideExpiry]
  split
  · next hr =>
    have he : Supplied s.adu s.chg .emergency := h.outside (by simp [hr.1]) (by decide)
    split
    · exact settle_supplied (by simpa using he)
    · simpa using he
  · exact h

theorem chanGet_chanMap {α β : Type} (f : α → β) (t : PerChan α) (c : Chan) :
    chanGet (chanMap f t) c = f (chanGet t c) := by
  cases c <;> rfl

theorem beginReset_supplied (c : ResetCause) (h : Supplied s.adu s.chg s.ssv.st) :
    Supplied (beginReset c s).adu (beginReset c s).chg (beginReset c s).ssv.st := by
  simp only [beginReset]
  split
  · exact h
  · exact ⟨fun d => (chanGet_chanMap quietChannel s.adu d).symm ▸ h.channels d, h.charger⟩

/-- R52, R148, R165: after a reset SUPPLY stands where the kept supply state puts it, and nothing drives or charges. -/
theorem supplied_reset {a : PerChan Channel} {g : Chg} {v : Supply} (b : Bool) (hb : b = (v != .normal))
    (hp : g.pause.supply = b) (hc : charging g.phase = false) (hi : g.iCmd = 0) :
    Supplied (chanMap (channelAfter b) a) g v := by
  subst hb
  refine ⟨fun c => ?_, hp, fun h => absurd (hc.symm.trans h) (by decide), fun _ => hi⟩
  rw [chanGet_chanMap]
  exact ⟨rfl, fun h => nomatch h⟩

theorem finishReset_supplied (h : Supplied s.adu s.chg s.ssv.st) :
    Supplied (finishReset s).adu (finishReset s).chg (finishReset s).ssv.st := by
  have hon : Supplied (powerOnState s).adu (powerOnState s).chg (powerOnState s).ssv.st :=
    supplied_reset false rfl rfl rfl rfl
  have hwarm : Supplied (warmState s).adu (warmState s).chg (warmState s).ssv.st :=
    supplied_reset _ rfl rfl (by simp only [warmState, chgAfter]; split <;> rfl) rfl
  simp only [finishReset, rideAtStart]
  repeat' split
  · exact startRide_supplied hon
  · exact hon
  · exact hwarm
  · exact h

theorem requestReset_supplied (h : Supplied s.adu s.chg s.ssv.st) :
    Supplied (requestReset s).adu (requestReset s).chg (requestReset s).ssv.st :=
  finishReset_supplied (beginReset_supplied _ h)

/-! ## Every row -/

/-- What each channel's operation keeps, the operation on the named channels keeps. -/
theorem forMask_supplied {f : Chan → State → State} (m : PerChan Bool) (h : Supplied s.adu s.chg s.ssv.st)
    (hf : ∀ c u, Supplied u.adu u.chg u.ssv.st → Supplied (f c u).adu (f c u).chg (f c u).ssv.st) :
    Supplied (forMask m f s).adu (forMask m f s).chg (forMask m f s).ssv.st :=
  forMask_keeps (P := fun u => Supplied u.adu u.chg u.ssv.st) hf m h

theorem stabSetReq_supplied (tag run learn still : Byte) (h : Supplied s.adu s.chg s.ssv.st) :
    Supplied (stabSetReq tag run learn still s).adu (stabSetReq tag run learn still s).chg
      (stabSetReq tag run learn still s).ssv.st := by
  have hoff {u : State} (hu : Supplied u.adu u.chg u.ssv.st) :
      Supplied (runOff u).adu (runOff u).chg (runOff u).ssv.st := by
    simp only [runOff]
    split
    · exact hu
    · simpa using hu
    · exact commitPending_supplied (by simp [hu])
  simp only [stabSetReq]
  repeat' split
  · simpa using h
  · exact hoff (u := { s with msu := setLearning _ _ s.msu }) h
  · exact h

/-- A request moves channels and the charger by R55 to R63, R155 and R156, a guard or a switch of context. -/
theorem runRequest_supplied (i : Instr) (h : Supplied s.adu s.chg s.ssv.st) :
    Supplied (runRequest i s).adu (runRequest i s).chg (runRequest i s).ssv.st := by
  cases i
  case stabSet => exact stabSetReq_supplied _ _ _ _ h
  case ctxSelect =>
    simp only [runRequest, ctxSelectReq]
    split
    · exact h
    · exact selectCtx_supplied _ _ _ _ h
  case ctxReturn =>
    simp only [runRequest, ctxReturnReq]
    repeat' split
    iterate 3 exact h
    exact selectCtx_supplied _ _ _ _ h
  case checkin => simpa [runRequest, checkinReq] using checkIn_supplied h
  case guardSet =>
    have hr := restoreGuard_supplied 0x07#8 h
    simp only [runRequest, guardSetReq]
    split <;> simpa using hr
  case actEnableOn =>
    simp only [runRequest, actEnableOnReq]
    repeat' split
    iterate 3 exact h
    exact forMask_supplied _ h fun c u hu => by simpa using enableChannel_supplied c hu
  case actEnableOff =>
    simp only [runRequest, actEnableOffReq]
    split
    · exact h
    · exact forMask_supplied _ h fun c u hu => by simpa [disableChannel] using haltChannel_supplied c (by decide) hu
  case actSet =>
    simp only [runRequest, actSetReq]
    repeat' split
    iterate 2 exact h
    exact h.alike _ rfl rfl
  case actGroup =>
    simp only [runRequest, actGroupReq]
    repeat' split
    iterate 2 exact h
    exact forMask_supplied _ h fun c u hu => hu.alike c rfl rfl
  case actParkOn =>
    simp only [runRequest, actParkOnReq]
    split
    · exact h
    · exact forMask_supplied _ h fun c u hu => by simpa using addPark_supplied (r := .host) (by decide) c hu
  case actParkOff =>
    simp only [runRequest, actParkOffReq]
    split
    · exact h
    · exact forMask_supplied _ h fun c u hu => by simpa using removePark_supplied (r := .host) (by decide) c hu
  case chargeSet =>
    simp only [runRequest, chargeSetReq]
    split
    · exact h
    · simpa using applyCharge_supplied _ _ _ _ _ h
  case supplySet => exact h
  all_goals simp [runRequest, h]

theorem takeFrame_supplied (bytes : List Byte) (h : Supplied s.adu s.chg s.ssv.st) :
    Supplied (takeFrame bytes s).adu (takeFrame bytes s).chg (takeFrame bytes s).ssv.st := by
  simp only [takeFrame, errorReply]
  split
  · exact runRequest_supplied _ h
  all_goals exact h

theorem readTransaction_supplied (n : Nat) (h : Supplied s.adu s.chg s.ssv.st) :
    Supplied (readTransaction n s).adu (readTransaction n s).chg (readTransaction n s).ssv.st := by
  have hr := requestReset_supplied (s := { s with lnk := linkAfterRead n s.lnk }) h
  simp only [readTransaction]
  split
  · simpa using hr
  · exact h

theorem rowEffect_supplied (i : Instr) (h : Supplied s.adu s.chg s.ssv.st) :
    Supplied (rowEffect i s).adu (rowEffect i s).chg (rowEffect i s).ssv.st := by
  have named {p : State → State → Bool} {f : State → State} (hf : Supplied (f s).adu (f s).chg (f s).ssv.st) :
      Supplied (stepThat p f s).adu (stepThat p f s).chg (stepThat p f s).ssv.st :=
    stepThat_keeps (P := fun u => Supplied u.adu u.chg u.ssv.st) h hf
  have ht := tickStep_supplied h
  have hscan (r : Reading) := scanStep_supplied r h
  cases i
  case tick => exact ht
  case sensorLost | sensorRestored | biasLearned | impactQualify => exact named ht
  case fsyncEdge =>
    exact countFrame_supplied (commitPending_supplied (forceSample_supplied h))
  case impactParkExpiry =>
    have hp := removeParkAll_supplied (r := .impact) (by decide)
      (s := { s with msu := { s.msu with parkEnd := none } }) h
    simp only [rowEffect, parkExpiry]
    split
    · simpa using hp
    · exact h
  case readTransaction => exact readTransaction_supplied _ h
  case writeTransaction =>
    simp only [rowEffect]
    repeat' split
    · exact h
    · exact readTransaction_supplied _ h
    · exact takeFrame_supplied _ h
  case pwmPeriodStart | ocComparatorChange => exact h.alike _ rfl rfl
  case overcurrentFault => simpa [rowEffect] using overcurrentStep_supplied _ _ h
  case retryDelayExpiry => simpa [rowEffect] using retryExpiry_supplied _ h
  case cleanRunExpiry => simpa [rowEffect] using cleanExpiry_supplied _ h
  case scanConversion => exact hscan _
  case batteryAbsent | batteryPresent | sourcePresent | sourceLost | iEffRaise | chargeDone => exact named (hscan _)
  case checkpoint => exact named (unitCompletion_supplied h)
  case railBelowWarn =>
    simp only [rowEffect]
    split
    · simp [h]
    · exact fallBelowWarn_supplied h
  case railRecover =>
    simp only [rowEffect]
    split
    · simp [h]
    · exact riseToRecover_supplied h
  case rideThroughExpiry => exact rideExpiry_supplied h
  case windowTimerExpiry =>
    simp only [rowEffect, windowExpiry]
    split
    · exact tripGuard_supplied _ h
    · exact h
  case brownout =>
    simp only [rowEffect, brownout]
    split
    · exact h
    · exact beginReset_supplied .brownout h
  case railBelowPowerOnLevel =>
    simp only [rowEffect, belowPowerOnLevel]
    split
    · exact beginReset_supplied .powerOn h
    · exact h
  case powerOnResetEnd =>
    simp only [rowEffect, supplyBack]
    repeat' split
    · exact finishReset_supplied (s := { s with rst := _, ssv := _ }) h
    · exact h
    · rw [riseToWarn_frame]
      exact h
    · exact h
  case rstnLow =>
    simp only [rowEffect, lineFalls]
    split
    · exact h
    · exact beginReset_supplied .line h
  case rstnHigh =>
    simp only [rowEffect, lineRises]
    split
    · exact finishReset_supplied (s := { s with rst := _ }) h
    · exact h
  case resetWaitExpiry =>
    simp only [rowEffect, waitExpiry]
    repeat' split
    · exact h
    · exact requestReset_supplied h
    · exact h
  case bringUpDone | formatHeaderDone | scanReadDone | blockWriteDone | headerUpdateDone | openingHeaderDone |
      closedHeaderDone | hostReadDone | railBelowRecover =>
    simp only [rowEffect]
    (repeat' split) <;> simp [h]
  case sensorReadDone | rearmHoldExpiry | cropSample | frameGetTimeout | cardAttemptFailed | cardAttemptTimeout |
      unitWriteDone | motionReadTimeout | cdetChange | cardInserted | cardRemoved | emergencyWriteDone |
      emergencyWriteFailed | stableTimeReached | quietTimerExpiry =>
    simp [rowEffect, h]
  all_goals exact runRequest_supplied _ h

/-- Settles O41: SUPPLY joins and leaves the channels' and the charger's reasons with the supply state itself; a channel
becomes ACTIVE with an empty set alone, and a reason that joins takes it out of ACTIVE; the charger charges on a notice
that finds no reason, and pauses when one joins. -/
theorem supplyLawIsKept : Obligations.SupplyLawIsKept := fun _ _ =>
  step_keeps (fun _ _ h => h) (fun _ h => h)
    (fun i s _ h => (supplyLaw_iff _).mpr (rowEffect_supplied i ((supplyLaw_iff s).mp h)))

end Sys2Proof.Machine
end

section
/-! O59: the laws of the device right after a power-on reset. A reset leaves no card, so there is no directory, no
transfer, no emergency close and nothing driving; the settings and sizes are those of any power-on reset. -/

namespace Sys2Proof.Machine

/-- Without a transfer there is no mount, and without a directory no lock. -/
theorem quotaLaw_reset : QuotaLaw State.reset :=
  ⟨fun _ h => (nomatch h), fun h => (nomatch h), fun h => (nomatch h)⟩

/-- No channel has a reason, and the charger has no command. -/
theorem supplyLaw_reset : SupplyLaw State.reset :=
  (supplyLaw_iff _).mpr (supplied_reset (a := allChans Channel.reset) false rfl rfl rfl rfl)

/-- No emergency close runs and no UNMOUNT is held. -/
theorem budgetLaw_reset : BudgetLaw State.reset := by
  have hport : PortLaw State.reset := ⟨fun h => (nomatch h), fun _ h => (nomatch h)⟩
  exact ⟨fun _ h => (nomatch h), fun h => absurd rfl h, by decide, fun _ => ⟨hport, fun h => (nomatch h)⟩,
    fun _ ⟨_, h, _⟩ => (nomatch h), fun _ h => (nomatch h)⟩

/-- The directory has no entries and its queue no slots. -/
theorem directoryLaw_reset : DirectoryLaw State.reset := by
  refine ⟨⟨by decide, by decide, by decide, fun _ h => (nomatch h), fun _ _ h => (nomatch h)⟩, ?slots, ?sequences,
    ?transfers⟩
  case slots =>
    have hopen : openSlot State.reset = none := rfl
    have hclosing : closingSlot State.reset = none := rfl
    exact ⟨by decide, by decide, fun h => absurd hopen h, fun h => absurd hclosing h, fun h => absurd hopen h⟩
  case sequences => exact ⟨fun _ h => (nomatch h), fun h => (nomatch h)⟩
  case transfers =>
    exact ⟨fun _ h => (nomatch h), fun h => (nomatch h), fun _ h => (nomatch h), fun _ h => (nomatch h)⟩

/-- Settles O59. -/
theorem lawsHoldAfterReset : Obligations.LawsHoldAfterReset :=
  ⟨.inl rfl, stepLaw_of_zero rfl, pathLaw_of_reset rfl, quotaLaw_reset, rfl, supplyLaw_reset, budgetLaw_reset,
    sizeLaw_powerOn State.reset, settingsLaw_powerOn State.reset, directoryLaw_reset⟩

end Sys2Proof.Machine
end

section
/-! The drive's operations channel by channel (R55 to R63, R68): what an operation on the named channels makes of each
channel and of the step the split unit holds for it. -/

namespace Sys2Proof.Machine

/-! ## Channels and their steps, and nothing else -/

/-- From `s` to `t` each channel's record, step and absorbed angle have become what `p` makes of them; the rest
stands. -/
def DriveMoved (p : Chan → ChanPart → ChanPart) (s t : State) : Prop :=
  t = { s with adu := t.adu, csu := { s.csu with step := t.csu.step, absorbed := t.csu.absorbed } } ∧
    ∀ d, chanPart d t = p d (chanPart d s)

/-- An operation on channel `c` alone. -/
def onChan (c : Chan) (g : ChanPart → ChanPart) : Chan → ChanPart → ChanPart := fun d x => if d = c then g x else x

/-- An operation on the channels that `m` names. -/
def onMask (m : Chan → Bool) (g : ChanPart → ChanPart) : Chan → ChanPart → ChanPart :=
  fun d x => if m d = true then g x else x

/-- The channel changes and its step stands. -/
def keepStep (f : Channel → Channel) (x : ChanPart) : ChanPart := { x with ch := f x.ch }

/-- R57: the channel changes, and an ACTIVE one loses its step with it. -/
def loseStep (f : Channel → Channel) (x : ChanPart) : ChanPart where
  step := if x.ch.st = .active then 0 else x.step
  absorbed := if x.ch.st = .active then 0 else x.absorbed
  ch := f x.ch

variable {p q : Chan → ChanPart → ChanPart} {g : ChanPart → ChanPart} {c : Chan} {s t u : State}

theorem DriveMoved.trans (h : DriveMoved p s t) (k : DriveMoved q t u) : DriveMoved (fun d x => q d (p d x)) s u := by
  refine ⟨?_, fun d => by rw [k.2, h.2]⟩
  rw [k.1, h.1]

theorem DriveMoved.refl (s : State) : DriveMoved (fun _ x => x) s s := ⟨rfl, fun _ => rfl⟩

theorem DriveMoved.now (h : DriveMoved p s t) : t.now = s.now := by rw [h.1]

theorem DriveMoved.adu (h : DriveMoved p s t) (d : Chan) : chanGet t.adu d = (p d (chanPart d s)).ch := by
  rw [← h.2]
  rfl

theorem DriveMoved.step (h : DriveMoved p s t) (d : Chan) : chanGet t.csu.step d = (p d (chanPart d s)).step := by
  rw [← h.2]
  rfl

theorem DriveMoved.absorbed (h : DriveMoved p s t) (d : Chan) :
    chanGet t.csu.absorbed d = (p d (chanPart d s)).absorbed := by
  rw [← h.2]
  rfl

/-- An operation that leaves every step leaves the split unit. -/
theorem DriveMoved.of_keepStep {m : Chan → Bool} {f : Channel → Channel} (h : DriveMoved (onMask m (keepStep f)) s t) :
    t = { s with adu := t.adu } := by
  have hpart (d : Chan) (x : ChanPart) : (onMask m (keepStep f) d x).step = x.step ∧
      (onMask m (keepStep f) d x).absorbed = x.absorbed := by
    simp only [onMask]
    split <;> exact ⟨rfl, rfl⟩
  have hstep : t.csu.step = s.csu.step := perChan_ext fun d => (h.step d).trans (hpart d _).1
  have habs : t.csu.absorbed = s.csu.absorbed := perChan_ext fun d => (h.absorbed d).trans (hpart d _).2
  conv_lhs => rw [h.1, hstep, habs]

/-- The operation on each named channel is the operation on the named channels. -/
theorem forMask_moved {f : Chan → State → State} (m : PerChan Bool)
    (hf : ∀ c u, u.now = s.now → DriveMoved (onChan c g) u (f c u)) :
    DriveMoved (onMask (chanGet m) g) s (forMask m f s) := by
  have one (b : Bool) (c : Chan) (u : State) (hu : u.now = s.now) :
      DriveMoved (fun d x => if b = true then onChan c g d x else x) u (if b = true then f c u else u) := by
    cases b
    · exact DriveMoved.refl u
    · exact hf c u hu
  have hx := one m.sx .sx s rfl
  have hy := one m.sy .sy _ hx.now
  have hr := one m.rt .rt _ (hy.now.trans hx.now)
  have hall := (hx.trans hy).trans hr
  refine ⟨hall.1, fun d => (hall.2 d).trans ?_⟩
  cases d <;> simp only [onChan, onMask, reduceCtorEq, if_true, if_false, ite_self] <;> rfl

/-! ## The operations on one channel -/

theorem putChan_moved (c : Chan) (f : Channel → Channel) (s : State) :
    DriveMoved (onChan c (keepStep f)) s (putChan c (f (chanGet s.adu c)) s) := by
  refine ⟨rfl, fun d => ?_⟩
  by_cases hd : d = c
  · subst hd
    simp [chanPart, onChan, keepStep]
  · simp [chanPart, onChan, hd]

/-- R59, R65, R68: a channel taken to a state that drives nothing. -/
theorem moveChannel_moved (c : Chan) {f : Channel → Channel}
    (hf : ∀ ch, (f ch).st ≠ .active ∧ (f ch).st ≠ .parked) (s : State) :
    DriveMoved (onChan c (loseStep f)) s (moveChannel c (f (chanGet s.adu c)) s) := by
  obtain ⟨st, ab, heq, hadu, hstep, habs⟩ := moveChannel_spec c (f (chanGet s.adu c)) s
  have hs : (moveChannel c (f (chanGet s.adu c)) s).csu.step = st := by rw [heq]
  have ha : (moveChannel c (f (chanGet s.adu c)) s).csu.absorbed = ab := by rw [heq]
  obtain ⟨hact, hpark⟩ := hf (chanGet s.adu c)
  refine ⟨by rw [hs, ha]; exact heq, fun d => ?_⟩
  simp only [chanPart, hadu, hs, ha, hstep, habs, onChan, loseStep]
  by_cases hd : d = c
  · subst hd
    by_cases h : (chanGet s.adu d).st = .active <;> simp [handStep, hact, hpark, h]
  · simp [hd]

/-- R61. -/
theorem addPark_moved (r : ParkReason) (c : Chan) (s : State) :
    DriveMoved (onChan c (loseStep (parkedBy r))) s (addPark r c s) := by
  obtain ⟨st, ab, heq, hadu, hstep, habs⟩ := addPark_spec r c s
  have hs : (addPark r c s).csu.step = st := by rw [heq]
  have ha : (addPark r c s).csu.absorbed = ab := by rw [heq]
  refine ⟨by rw [hs, ha]; exact heq, fun d => ?_⟩
  simp only [chanPart, hadu, hs, ha, hstep, habs, onChan, loseStep]
  by_cases hd : d = c
  · subst hd
    by_cases h : (chanGet s.adu d).st = .active <;> simp [h]
  · simp [hd]

/-- R62. -/
theorem removePark_moved (r : ParkReason) (c : Chan) (s : State) :
    DriveMoved (onChan c (keepStep (unparkedBy r s.now))) s (removePark r c s) := by
  obtain ⟨heq, hadu⟩ := removePark_spec r c s
  have hcsu : (removePark r c s).csu = s.csu := by rw [heq]
  refine ⟨by rw [hcsu]; exact heq, fun d => ?_⟩
  simp only [chanPart, hadu, hcsu, onChan, keepStep]
  split <;> rfl

/-! ## The masks of R58, R59, R63 -/

theorem maskOf_none {b : Byte} (h : 8 ≤ b.toNat) : maskOf b = none := if_pos h

theorem maskOf_some {b : Byte} (h : b.toNat < 8) : maskOf b = some ⟨named b .sx, named b .sy, named b .rt⟩ :=
  if_neg (by omega)

theorem chanGet_named (b : Byte) : chanGet ⟨named b .sx, named b .sy, named b .rt⟩ = named b := by
  funext c
  cases c <;> rfl

/-- R57: what an operation that takes the named channels out of ACTIVE makes of each channel, its step and its absorbed
angle. -/
theorem DriveMoved.of_loseStep {m : Chan → Bool} {f : Channel → Channel} (h : DriveMoved (onMask m (loseStep f)) s t)
    (c : Chan) :
    chanGet t.adu c = (if m c = true then f (chanGet s.adu c) else chanGet s.adu c) ∧
      (m c = true ∧ (chanGet s.adu c).st = .active → chanGet t.csu.step c = 0 ∧ chanGet t.csu.absorbed c = 0) ∧
      (¬ (m c = true ∧ (chanGet s.adu c).st = .active) →
        chanGet t.csu.step c = chanGet s.csu.step c ∧ chanGet t.csu.absorbed c = chanGet s.csu.absorbed c) := by
  rw [h.adu, h.step, h.absorbed]
  cases hm : m c with
  | false => simp [onMask, hm, chanPart]
  | true => simp +contextual [onMask, hm, chanPart, loseStep]

/-- What an operation that leaves the steps makes of each channel. -/
theorem DriveMoved.chan {m : Chan → Bool} {f : Channel → Channel} (h : DriveMoved (onMask m (keepStep f)) s t)
    (c : Chan) : chanGet t.adu c = if m c = true then f (chanGet s.adu c) else chanGet s.adu c := by
  rw [h.adu]
  cases hm : m c with
  | false => simp [onMask, hm, chanPart]
  | true => simp [onMask, hm, chanPart, keepStep]

/-- The operation on the channels that a valid mask names. -/
theorem forNamed_moved {mask : Byte} {f : Chan → State → State}
    (hf : ∀ c u, u.now = s.now → DriveMoved (onChan c g) u (f c u)) :
    DriveMoved (onMask (named mask) g) s (forMask ⟨named mask .sx, named mask .sy, named mask .rt⟩ f s) :=
  chanGet_named mask ▸ forMask_moved _ hf

end Sys2Proof.Machine
end

section
/-! O30 to O32: ACT_ENABLE, ACT_SET, ACT_GROUP and ACT_PARK (R55 to R63). -/

namespace Sys2Proof.Machine

/-! ## ACT_PARK (R63) -/

theorem actParkOnReq_named {tag mask : Byte} (h : mask.toNat < 8) (s : State) :
    ∃ t, DriveMoved (onMask (named mask) (loseStep (parkedBy .host))) s t ∧
      actParkOnReq tag mask s = answer 0x1C#8 tag .ok (chanParksBytes t.adu) t := by
  refine ⟨_, forNamed_moved fun c u _ => addPark_moved .host c u, ?_⟩
  rw [actParkOnReq, maskOf_some h]
  rfl

theorem actParkOffReq_named {tag mask : Byte} (h : mask.toNat < 8) (s : State) :
    ∃ t, DriveMoved (onMask (named mask) (keepStep (unparkedBy .host s.now))) s t ∧
      actParkOffReq tag mask s = answer 0x1D#8 tag .ok (chanParksBytes t.adu) t := by
  refine ⟨_, forNamed_moved fun c u hu => hu ▸ removePark_moved .host c u, ?_⟩
  rw [actParkOffReq, maskOf_some h]
  rfl

/-- Settles O32: each named channel gets HOST or loses it, by R61 and R62, and the others stand. -/
theorem actParkAddsAndRemovesHost : Obligations.ActParkAddsAndRemovesHost := by
  intro tag mask s ht
  have hon : exec (.actParkOn tag mask) s = .next (actParkOnReq tag mask s) := takeReq_takes ht _
  have hoff : exec (.actParkOff tag mask) s = .next (actParkOffReq tag mask s) := takeReq_takes ht _
  rw [hon, hoff]
  refine ⟨fun hr => ?range, fun hm => ⟨?on, ?off⟩⟩
  case range => simp [actParkOnReq, actParkOffReq, maskOf_none hr]
  case on =>
    obtain ⟨t, hmoved, heq⟩ := actParkOnReq_named (tag := tag) hm s
    exact ⟨t.adu, t.csu.step, t.csu.absorbed, by rw [heq, ← hmoved.1], hmoved.of_loseStep⟩
  case off =>
    obtain ⟨t, hmoved, heq⟩ := actParkOffReq_named (tag := tag) hm s
    exact ⟨t.adu, by rw [heq, ← hmoved.of_keepStep], hmoved.chan⟩

/-! ## ACT_ENABLE (R58, R59) -/

/-- R58: a channel that is switched on at `now`. -/
def enabledBy (now : Word) (ch : Channel) : Channel :=
  if ch.st = .off ∨ ch.st = .latched ∨ ch.st = .thermal then
    { ch with
      attempts := ch.cfg.attempts
      st := onState ch
      retryEnd := none
      waiting := none
      applied := 0
      duty := 0
      qual := 0
      finalPeriod := false
      cleanStart := if onState ch = .active then some now else ch.cleanStart }
  else { ch with attempts := ch.cfg.attempts }

/-- R58, R66: a channel that resumes. -/
theorem resumeChannel_eq (now : Word) (ch : Channel) :
    resumeChannel now ch =
      { ch with
        st := onState ch
        retryEnd := none
        waiting := none
        applied := 0
        duty := 0
        qual := 0
        finalPeriod := false
        cleanStart := if onState ch = .active then some now else ch.cleanStart } := by
  by_cases h : parkEmpty ch.park = true <;> simp [resumeChannel, activateChannel, onState, h]

theorem enableChannel_eq (c : Chan) (s : State) :
    enableChannel c s = putChan c (enabledBy s.now (chanGet s.adu c)) s := by
  simp only [enableChannel, enabledBy]
  split <;> simp [*, resumeChannel_eq, onState]

theorem enableRefused_iff (mask : Byte) (s : State) :
    enableRefused ⟨named mask .sx, named mask .sy, named mask .rt⟩ s = true ↔
      s.scn.die.b105 = true ∨
        (1000 ≤ s.scn.tDie.latest ∧ ∃ c, named mask c = true ∧ (chanGet s.adu c).st = .thermal) := by
  have hex (P : Chan → Prop) : (∃ c, P c) ↔ P .sx ∨ P .sy ∨ P .rt :=
    ⟨fun ⟨c, h⟩ => by cases c <;> simp [h], fun h => h.elim (⟨_, ·⟩) (·.elim (⟨_, ·⟩) (⟨_, ·⟩))⟩
  simp [enableRefused, hex, chanGet, or_assoc]

/-- R58, on: a request that is not barred. -/
theorem actEnableOnReq_named {tag mask : Byte} (h : mask.toNat < 8) {s : State}
    (hb : ¬ (mask ≠ 0#8 ∧ enableRefused ⟨named mask .sx, named mask .sy, named mask .rt⟩ s = true)) :
    ∃ t, DriveMoved (onMask (named mask) (keepStep (enabledBy s.now))) s t ∧
      actEnableOnReq tag mask s = answer 0x18#8 tag .ok (chanStatesBytes t.adu) t := by
  have hmoved := forNamed_moved (mask := mask) (s := s) (f := enableChannel) fun c u hu => by
    rw [enableChannel_eq, hu]
    exact putChan_moved c (enabledBy s.now) u
  by_cases hz : mask = 0#8
  · subst hz
    exact ⟨s, ⟨rfl, fun d => by cases d <;> rfl⟩, rfl⟩
  · refine ⟨_, hmoved, ?_⟩
    rw [actEnableOnReq, maskOf_some h]
    exact (if_neg hz).trans (if_neg fun hr => hb ⟨hz, hr⟩)

theorem actEnableOffReq_named {tag mask : Byte} (h : mask.toNat < 8) (s : State) :
    ∃ t, DriveMoved (onMask (named mask) (loseStep (haltedIn .off))) s t ∧
      actEnableOffReq tag mask s = answer 0x19#8 tag .ok (chanStatesBytes t.adu) t := by
  refine ⟨_, forNamed_moved fun c u _ => moveChannel_moved c (f := haltedIn .off) (fun _ => by simp [haltedIn]) u, ?_⟩
  rw [actEnableOffReq, maskOf_some h]
  rfl

/-- Settles O30: a mask that is listed and not barred switches each named channel by `enabledBy`, or takes it to OFF,
and leaves the others. -/
theorem actEnableSwitchesChannels : Obligations.ActEnableSwitchesChannels := by
  intro tag mask s ht
  have hon : exec (.actEnableOn tag mask) s = .next (actEnableOnReq tag mask s) := takeReq_takes ht _
  have hoff : exec (.actEnableOff tag mask) s = .next (actEnableOffReq tag mask s) := takeReq_takes ht _
  rw [hon, hoff]
  refine ⟨fun hr => ?range, fun hm => ⟨fun hb => ?barred, fun hb => ?on, ?off⟩⟩
  case range => simp [actEnableOnReq, actEnableOffReq, maskOf_none hr]
  case barred =>
    obtain ⟨hz, hb⟩ := hb
    rw [actEnableOnReq, maskOf_some hm]
    exact congrArg _ ((if_neg hz).trans (if_pos ((enableRefused_iff mask s).mpr hb)))
  case on =>
    obtain ⟨t, hmoved, heq⟩ := actEnableOnReq_named (tag := tag) (s := s) hm (by rwa [enableRefused_iff])
    refine ⟨t.adu, by rw [heq, ← hmoved.of_keepStep]; rfl, fun c => ?_⟩
    rw [hmoved.chan]
    cases hc : named mask c <;> simp [enabledBy]
  case off =>
    obtain ⟨t, hmoved, heq⟩ := actEnableOffReq_named (tag := tag) hm s
    exact ⟨t.adu, t.csu.step, t.csu.absorbed, by rw [heq, ← hmoved.1]; rfl, hmoved.of_loseStep⟩

/-! ## ACT_SET and ACT_GROUP (R55, R56) -/

theorem chanOf_none {b : Byte} (h : 2 < b.toNat) : chanOf b = none := by
  have h0 : b ≠ 0 := by rintro rfl; simp at h
  have h1 : b ≠ 1 := by rintro rfl; simp at h
  have h2 : b ≠ 2 := by rintro rfl; simp at h
  rw [chanOf, if_neg h0, if_neg h1, if_neg h2]

theorem chanOf_code {b : Byte} {c : Chan} (h : b.toNat = chanCode c) : chanOf b = some c := by
  obtain rfl : b = BitVec.ofNat 8 (chanCode c) := by rw [← h, BitVec.ofNat_toNat, BitVec.setWidth_eq]
  cases c <;> rfl

/-- R55: the settings as stored. -/
theorem clampSettings_eq (prescaler : Byte) (period limit : Half) (delay : Byte) (on : Bool)
    (attempts retryDelay : Byte) :
    clampSettings prescaler period limit delay on attempts retryDelay =
      { prescaler := max 1 (min 32 prescaler.toNat)
        period := max 16 period.toNat
        limit := max 50 (min 800 (limit.toNat / 50 * 50))
        delay := min 63 delay.toNat
        retry := on
        attempts := attempts.toNat
        retryDelay := max 1 retryDelay.toNat } := by
  have hp := period.isLt
  have hr := retryDelay.isLt
  have hlimit : clampStep 50 800 50 limit.toNat = max 50 (min 800 (limit.toNat / 50 * 50)) := by
    rw [clampStep, clampNat_eq (by omega), floorTo]
    split <;> omega
  rw [clampSettings, hlimit, clampNat_eq (by omega), clampNat_eq (by omega), clampNat_eq (by omega),
    clampNat_eq (by omega), min_eq_right (by omega : period.toNat ≤ 65535),
    min_eq_right (by omega : retryDelay.toNat ≤ 255)]
  simp

theorem settingsChanged_eq (c : ChanSettings) (prescaler : Byte) (period limit : Half) (delay retryDelay : Byte) :
    settingsChanged c prescaler period limit delay retryDelay =
      !decide (c.prescaler = prescaler.toNat ∧ c.period = period.toNat ∧ c.limit = limit.toNat ∧
        c.delay = delay.toNat ∧ c.retryDelay = retryDelay.toNat) := by
  simp only [settingsChanged, bne, Bool.decide_and, Bool.not_and, Bool.or_assoc]
  rfl

theorem actSetReq_range {tag chan prescaler : Byte} {period limit : Half} {delay retry attempts retryDelay : Byte}
    {s : State} (h : 1 < retry.toNat ∨ 2 < chan.toNat) :
    actSetReq tag chan prescaler period limit delay retry attempts retryDelay s = answer 0x1A#8 tag .range [] s := by
  obtain h | h := h
  · rw [actSetReq, onOff_none h]
    rfl
  · rw [actSetReq, chanOf_none h]
    cases onOff retry <;> rfl

/-- R55: a listed channel takes the seven settings, and its attempts left come down to the new number. -/
theorem actSetReq_stores {tag chan prescaler : Byte} {period limit : Half} {delay retry attempts retryDelay : Byte}
    {c : Chan} (hr : retry.toNat ≤ 1) (hc : chan.toNat = chanCode c) (s : State) :
    let cfg := clampSettings prescaler period limit delay (retry == 1#8) attempts retryDelay
    actSetReq tag chan prescaler period limit delay retry attempts retryDelay s =
      answer 0x1A#8 tag (clampStatus (settingsChanged cfg prescaler period limit delay retryDelay))
        (settingsBytes cfg) (putChan c (storeSettings cfg (chanGet s.adu c)) s) := by
  rw [actSetReq, onOff_some hr, chanOf_code hc]
  rfl

theorem flag8_listed {b : Byte} (h : b.toNat ≤ 1) : flag8 (b == 1#8) = [b] := by
  obtain rfl | rfl : b = 0#8 ∨ b = 1#8 := by bv_omega
  · rfl
  · rfl

theorem u8_toNat (b : Byte) : u8 b.toNat = [b] := by simp [u8]

/-- R56: one prescaler and period into the named channels. -/
def groupedBy (prescaler period : Nat) (ch : Channel) : Channel :=
  { ch with cfg := { ch.cfg with prescaler := prescaler, period := period } }

theorem actGroupReq_named {tag mask prescaler : Byte} {period : Half} (h : mask.toNat < 8) (hz : mask ≠ 0#8)
    (s : State) :
    let p := max 1 (min 32 prescaler.toNat)
    let q := max 16 period.toNat
    ∃ t, DriveMoved (onMask (named mask) (keepStep (groupedBy p q))) s t ∧
      actGroupReq tag mask prescaler period s =
        answer 0x1B#8 tag (if p = prescaler.toNat ∧ q = period.toNat then .ok else .clamped) (u8 p ++ u16 q) t := by
  intro p q
  have hp : clampNat 1 32 prescaler.toNat = p := clampNat_eq (by omega) _
  have hq : clampNat 16 65535 period.toNat = q := by
    have := period.isLt
    rw [clampNat_eq (by omega), min_eq_right (by omega)]
  have hst : (p != prescaler.toNat || q != period.toNat) = !decide (p = prescaler.toNat ∧ q = period.toNat) := by
    simp only [bne, Bool.decide_and, Bool.not_and]
    rfl
  refine ⟨_, forNamed_moved fun c u _ => putChan_moved c (groupedBy p q) u, ?_⟩
  rw [actGroupReq, maskOf_some h, ← clampStatus_not, ← hst, ← hp, ← hq]
  exact if_neg hz

/-- Settles O31: the settings as they come into their ranges, in one channel or in the named ones, and in no other field
but the attempts left. -/
theorem actSettingsAreStored : Obligations.ActSettingsAreStored := by
  refine ⟨fun tag chan prescaler period limit delay retry attempts retryDelay s ht => ?set,
    fun tag mask prescaler period s ht => ?group⟩
  case set =>
    have hx : exec (.actSet tag chan prescaler period limit delay retry attempts retryDelay) s =
        .next (actSetReq tag chan prescaler period limit delay retry attempts retryDelay s) := takeReq_takes ht _
    refine ⟨fun h => by rw [hx, actSetReq_range h], fun c hr hc => ?_⟩
    intro cfg same
    have hcfg : clampSettings prescaler period limit delay (retry == 1#8) attempts retryDelay = cfg :=
      clampSettings_eq _ _ _ _ _ _ _
    have hbytes : settingsBytes cfg = u8 cfg.prescaler ++ u16 cfg.period ++ u16 cfg.limit ++ u8 cfg.delay ++ [retry] ++
        [attempts] ++ u8 cfg.retryDelay := by
      rw [settingsBytes, flag8_listed hr, u8_toNat]
    have hst : clampStatus (settingsChanged cfg prescaler period limit delay retryDelay) =
        if cfg.prescaler = prescaler.toNat ∧ cfg.period = period.toNat ∧ cfg.limit = limit.toNat ∧
          cfg.delay = delay.toNat ∧ cfg.retryDelay = retryDelay.toNat then .ok else .clamped := by
      rw [settingsChanged_eq, clampStatus_not]
    refine ⟨(putChan c (storeSettings cfg (chanGet s.adu c)) s).adu, _, ?_, fun h => hst.trans (if_pos h),
      fun h => hst.trans (if_neg h), fun d => ?_⟩
    · rw [hx, actSetReq_stores hr hc, hcfg, hbytes]
      rfl
    · simp only [putChan_adu, chanGet_chanSet]
      split
      · next hd => subst hd; rfl
      · rfl
  case group =>
    have hx : exec (.actGroup tag mask prescaler period) s = .next (actGroupReq tag mask prescaler period s) :=
      takeReq_takes ht _
    refine ⟨fun h => by rw [hx, actGroupReq, maskOf_none h]; rfl, fun h => ?_, fun hm hz => ?_⟩
    · subst h
      exact ⟨_, _, hx⟩
    · intro p q
      obtain ⟨t, hmoved, heq⟩ := actGroupReq_named (tag := tag) (prescaler := prescaler) (period := period) hm hz s
      exact ⟨t.adu, _, by rw [hx, heq, ← hmoved.of_keepStep], fun h => if_pos h, fun h => if_neg h, hmoved.chan⟩

end Sys2Proof.Machine
end

section
/-! O33: PWM periods and the bridge (R53, R54), overcurrent, retry and the clean run (R64 to R67). -/

namespace Sys2Proof.Machine

variable {c : Chan} {cycles : Nat} {s : State}

/-! ## Periods, the bridge and the comparator (R53, R54, R64) -/

/-- R54, R64: the bridge may drive, and the comparator is acted upon. -/
theorem qualifies_iff (ch : Channel) :
    qualifies ch = true ↔ ch.st = .active ∨ (ch.st = .parked ∧ ch.finalPeriod = true) := by
  simp [qualifies]

theorem bridge_drives (ch : Channel) :
    let on : Prop := (ch.st = .active ∨ (ch.st = .parked ∧ ch.finalPeriod = true)) ∧ ch.periodCount < ch.duty
    ((bridge ch).1 = true ↔ on ∧ 0 < ch.applied) ∧ ((bridge ch).2 = true ↔ on ∧ ch.applied < 0) := by
  simp [bridge, qualifies_iff]

/-- A command that replaces one channel's record by what `f` makes of it changes nothing else. -/
theorem putChan_next (f : Channel → Channel) {x : Instr}
    (h : exec x s = .next (putChan c (f (chanGet s.adu c)) s)) :
    ∃ a, exec x s = .next { s with adu := a } ∧
      ∀ d, chanGet a d = if d = c then f (chanGet s.adu d) else chanGet s.adu d := by
  refine ⟨_, h, fun d => ?_⟩
  rw [chanGet_chanSet]
  split
  · next hd => rw [hd]
  · rfl

/-! ## Overcurrent (R64, R65) -/

theorem overcurrentStep_idle (h : ¬ (qualifies (chanGet s.adu c) = true ∧ (chanGet s.adu c).comparator = true)) :
    overcurrentStep c cycles s = s :=
  if_neg fun hq => h (by simpa using hq)

theorem overcurrentStep_driven (hq : qualifies (chanGet s.adu c) = true) (ha : (chanGet s.adu c).comparator = true) :
    overcurrentStep c cycles s =
      if (chanGet s.adu c).cfg.delay * 2400 ≤ max (chanGet s.adu c).qual cycles then qualifyFault c s
      else putChan c { chanGet s.adu c with qual := max (chanGet s.adu c).qual cycles } s :=
  if_pos (by simp [hq, ha])

theorem haltChannel_eq (st : ChanState) (ch : Channel) : haltChannel st ch = haltedIn st ch := rfl

/-- R65: a channel whose fault qualifies at `now`. -/
def faultedBy (now : Word) (ch : Channel) : Channel :=
  if retries ch then
    { haltedIn .retryWait ch with
      attempts := ch.attempts - 1
      retryEnd := some (later now (ticksOfMs ch.cfg.retryDelay)) }
  else haltedIn .latched ch

theorem faultedBy_st (now : Word) (ch : Channel) :
    (faultedBy now ch).st ≠ .active ∧ (faultedBy now ch).st ≠ .parked := by
  simp only [faultedBy]
  split <;> simp [haltedIn]

/-- R65: the events of a fault, OVERCURRENT and, without a retry, LATCHED. -/
def raiseFault (c : Chan) (ch : Channel) (now : Word) (s : State) : State :=
  let t := raise (.overcurrent c now ch.cfg.limit (faultedBy now ch).attempts) s
  if retries ch then t else raise (.latched c now) t

theorem qualifyFault_eq (c : Chan) (s : State) :
    qualifyFault c s = raiseFault c (chanGet s.adu c) s.now
      (moveChannel c (faultedBy s.now (chanGet s.adu c)) s) := by
  simp only [qualifyFault, raiseFault, faultedBy, haltChannel_eq]
  split <;> simp

/-- A fault's events touch the event set alone. -/
theorem raiseFault_eq (c : Chan) (ch : Channel) (now : Word) (s : State) :
    raiseFault c ch now s = { s with lnk := (raiseFault c ch now s).lnk } := by
  simp only [raiseFault]
  split <;> rfl

theorem raiseFault_events (c : Chan) (ch : Channel) (now : Word) {s t : State} (h : t.lnk = s.lnk) :
    (retries ch = true →
      (raiseFault c ch now t).lnk.events = eventsWith (.overcurrent c now ch.cfg.limit (ch.attempts - 1)) s) ∧
    (retries ch = false →
      (raiseFault c ch now t).lnk.events = eventsWith (.latched c now)
        { s with lnk := { s.lnk with events := eventsWith (.overcurrent c now ch.cfg.limit ch.attempts) s } }) := by
  constructor
  · intro hr
    simp [raiseFault, hr, faultedBy, eventsWith, h]
  · intro hr
    simp [raiseFault, hr, faultedBy, haltedIn, eventsWith, h, ← raiseIn_eq]

theorem qualifyFault_moved (c : Chan) (s : State) :
    ∃ u, DriveMoved (onChan c (loseStep (faultedBy s.now))) s u ∧ u.lnk = s.lnk ∧
      qualifyFault c s = raiseFault c (chanGet s.adu c) s.now u :=
  ⟨_, moveChannel_moved c (faultedBy_st s.now) s, by simp, qualifyFault_eq c s⟩

/-- R65: all that a fault which qualifies does. -/
theorem qualifyFault_spec (c : Chan) (s : State) :
    let ch := chanGet s.adu c
    let retry : Prop := ch.cfg.retry = true ∧ 0 < ch.attempts
    let t := qualifyFault c s
    KeepsClock s t ∧ KeepsPower s t ∧ KeepsCard s t ∧ t.msu = s.msu ∧ t.ctx = s.ctx ∧
      (retry →
        chanGet t.adu c =
          { haltedIn .retryWait ch with
            attempts := ch.attempts - 1
            retryEnd := some (later s.now (ticksOfMs ch.cfg.retryDelay)) } ∧
          t.lnk.events = eventsWith (.overcurrent c s.now ch.cfg.limit (ch.attempts - 1)) s) ∧
      (¬ retry →
        chanGet t.adu c = haltedIn .latched ch ∧
          t.lnk.events = eventsWith (.latched c s.now)
            { s with lnk := { s.lnk with
                events := eventsWith (.overcurrent c s.now ch.cfg.limit ch.attempts) s } }) ∧
      (∀ d, d ≠ c → chanGet t.adu d = chanGet s.adu d) ∧
      (ch.st = .active → chanGet t.csu.step c = 0 ∧ chanGet t.csu.absorbed c = 0) := by
  intro ch retry t
  obtain ⟨u, hmoved, hlnk, heq⟩ := qualifyFault_moved c s
  have ht : t = { u with lnk := t.lnk } := by
    have hr := raiseFault_eq c ch s.now u
    rwa [← heq] at hr
  have hu := hmoved.1
  have hretry : retry ↔ retries ch = true := by simp [retry, retries]
  have hc : chanGet t.adu c = faultedBy s.now ch := by
    rw [ht]
    exact (hmoved.adu c).trans (by simp [onChan, loseStep, chanPart, ch])
  obtain ⟨hyes, hno⟩ := raiseFault_events c ch s.now hlnk
  rw [← heq] at hyes hno
  refine ⟨?_, ?_, ?_, ?_, ?_, fun h => ?_, fun h => ?_, fun d hd => ?_, fun ha => ?_⟩
  · rw [KeepsClock, ht, hu]; exact ⟨rfl, rfl, rfl⟩
  · rw [KeepsPower, ht, hu]; exact ⟨rfl, rfl, rfl, rfl⟩
  · rw [KeepsCard, ht, hu]; exact ⟨rfl, rfl, rfl⟩
  · rw [ht, hu]
  · rw [ht, hu]
  · have hr := hretry.mp h
    exact ⟨by rw [hc, faultedBy, if_pos hr], hyes hr⟩
  · have hr : retries ch = false := by simpa using mt hretry.mpr h
    exact ⟨by rw [hc, faultedBy, hr]; rfl, hno hr⟩
  · rw [ht]
    exact (hmoved.adu d).trans (by simp [onChan, hd, chanPart])
  · rw [ht]
    exact ⟨(hmoved.step c).trans (by simp [onChan, loseStep, chanPart, ha, ch]),
      (hmoved.absorbed c).trans (by simp [onChan, loseStep, chanPart, ha, ch])⟩

/-! ## Retry and the clean run (R66, R67) -/

theorem retryExpiry_waiting {e : Word} (hst : (chanGet s.adu c).st = .retryWait)
    (he : (chanGet s.adu c).retryEnd = some e) :
    retryExpiry c s =
      if (s.now - e).toNat < 2147483648 then putChan c (resumeChannel s.now (chanGet s.adu c)) s else s := by
  simp [retryExpiry, hst, he, expired_some]

theorem cleanExpiry_running {e : Word} (he : (chanGet s.adu c).cleanStart = some e) :
    cleanExpiry c s =
      if 40960 ≤ (s.now - e).toNat then
        putChan c { chanGet s.adu c with
          attempts := (chanGet s.adu c).cfg.attempts, cleanStart := some s.now } s
      else s := by
  rw [cleanExpiry]
  simp only [he]
  rfl

/-- Settles O33: each command by the equation of its case, a fault by `qualifyFault_spec`. -/
theorem driveOvercurrentAndRetry : Obligations.DriveOvercurrentAndRetry := by
  refine ⟨bridge_drives, fun c s ha => ?period, fun c above s => ?comparator, fun c cycles s ha => ?fault,
    fun c s e ha hst he => ?retry, fun c s e ha he => ?clean⟩
  case period => exact putChan_next periodStart (whenUp_awake ha _)
  case comparator =>
    exact putChan_next (fun ch => { ch with comparator := above, qual := if above = true then ch.qual else 0 }) rfl
  case fault =>
    have hx : exec (.overcurrentFault c cycles) s = .next (overcurrentStep c cycles s) := whenUp_awake ha _
    intro ch driven retry
    refine ⟨fun hidle => ?_, fun hdriven habove hbelow => ?_, fun hdriven habove hreached => ?_⟩
    · rw [hx, overcurrentStep_idle (by rwa [qualifies_iff])]
    · have hstep := overcurrentStep_driven (cycles := cycles) ((qualifies_iff ch).mpr hdriven) habove
      rw [if_neg (Nat.not_le.mpr hbelow)] at hstep
      obtain ⟨a, heq, hchan⟩ := putChan_next (fun u => { u with qual := max u.qual cycles }) (hx.trans (by rw [hstep]))
      exact ⟨a, heq, fun d => (hchan d).trans (ite_congr rfl (fun hd => by rw [hd]) fun _ => rfl)⟩
    · have hstep := overcurrentStep_driven (cycles := cycles) ((qualifies_iff ch).mpr hdriven) habove
      rw [if_pos hreached] at hstep
      exact ⟨qualifyFault c s, by rw [hx, hstep], qualifyFault_spec c s⟩
  case retry =>
    have hx : exec (.retryDelayExpiry c) s = .next (retryExpiry c s) := whenUp_awake ha _
    refine ⟨fun hreached => ?_, fun hfuture => ?_⟩
    · rw [retryExpiry_waiting hst he, if_pos hreached] at hx
      obtain ⟨a, heq, hchan⟩ := putChan_next (resumeChannel s.now) hx
      have hc := (hchan c).trans (if_pos rfl)
      rw [resumeChannel_eq] at hc
      refine ⟨a, heq, by rw [hc], by rw [hc], by rw [hc], by rw [hc], by rw [hc], fun hactive => ?_,
        fun d hd => (hchan d).trans (if_neg hd)⟩
      rw [hc] at hactive ⊢
      exact if_pos hactive
    · rw [hx, retryExpiry_waiting hst he, if_neg (Nat.not_lt.mpr hfuture)]
  case clean =>
    have hx : exec (.cleanRunExpiry c) s = .next (cleanExpiry c s) := whenUp_awake ha _
    refine ⟨fun hreached => ?_, fun hshort => ?_⟩
    · rw [cleanExpiry_running he, if_pos hreached] at hx
      exact putChan_next (fun ch => { ch with attempts := ch.cfg.attempts, cleanStart := some s.now }) hx
    · rw [hx, cleanExpiry_running he, if_neg (Nat.not_le.mpr hshort)]

end Sys2Proof.Machine
end

section
/-! The event set (R190) and the charger's round-end work: what an event leaves of the other classes, and what pausing
the charger and the round end make of its phase. -/

namespace Sys2Proof.Machine

variable {d : Detail} {k : EvClass} {p : PauseSet} {s : State}

/-! ## One class of events -/

theorem eventGet_eventSet (e : EventSet) (k c : EvClass) (x : EvEntry) :
    eventGet (eventSet e c x) k = if k = c then x else eventGet e k := by
  cases c <;> cases k <;> rfl

/-- R190: an event of another class. -/
theorem raise_otherClass (s : State) (h : k ≠ detailClass d) :
    eventGet (raise d s).lnk.events k = eventGet s.lnk.events k := by
  simp only [raise, raiseIn]
  split
  · rw [eventGet_eventSet, if_neg h]
  · rfl

/-- R190: an event of a class that is recorded. -/
theorem raise_recorded (h : s.lnk.recordMask.getLsbD (classBit (detailClass d)) = true) :
    eventGet (raise d s).lnk.events (detailClass d) = countEvent (eventGet s.lnk.events (detailClass d)) d := by
  simp [raise, raiseIn, h, eventGet_eventSet]

theorem chargeEvent_otherClass (before : Phase) (s : State) (h : k ≠ .charge) :
    eventGet (chargeEvent before s).lnk.events k = eventGet s.lnk.events k := by
  simp only [chargeEvent]
  split
  · rfl
  · exact raise_otherClass s h

theorem chargeEvent_same (s : State) : chargeEvent s.chg.phase s = s := if_pos rfl

theorem powerNotice_otherClass (s : State) (h : k ≠ .input) :
    eventGet (powerNotice s).lnk.events k = eventGet s.lnk.events k := by
  simp only [powerNotice, inputEvent]
  split
  · rfl
  · exact raise_otherClass _ h

theorem chargerNotice_otherClass (s : State) (h : k ≠ .charge) :
    eventGet (chargerNotice s).lnk.events k = eventGet s.lnk.events k := by
  rw [chargerNotice, chargeEvent_otherClass _ _ h]
  rfl

theorem roundEnd_otherClass (s : State) (hc : k ≠ .charge) (hi : k ≠ .input) :
    eventGet (roundEnd s).lnk.events k = eventGet s.lnk.events k :=
  (chargerNotice_otherClass _ hc).trans (powerNotice_otherClass s hi)

theorem setPause_otherClass (p : PauseSet) (s : State) (h : k ≠ .charge) :
    eventGet (setPause p s).lnk.events k = eventGet s.lnk.events k := by
  simp only [setPause]
  split
  · exact chargeEvent_otherClass _ _ h
  · rfl

theorem chargerZones_otherClass (s : State) (h : k ≠ .charge) :
    eventGet (chargerZones s).lnk.events k = eventGet s.lnk.events k := by
  simp only [chargerZones, lowerCommand_frame]
  exact setPause_otherClass _ s h

/-! ## Pausing the charger (R150) -/

theorem pausesAt_eq (p : PauseSet) (g : Chg) : pausesAt p g = (pauseAdds g.pause p && pausable g.phase) := by
  simp only [pausesAt, pauseAdds, pausable]
  congr 1
  cases g.phase <;> rfl

theorem pauseEmpty_of_pausesAt {g : Chg} (h : pausesAt p g = true) : pauseEmpty p = false := by
  simp only [pausesAt, Bool.and_eq_true, Bool.or_eq_true] at h
  obtain ⟨((h | h) | h) | h, -⟩ := h <;> simp [pauseEmpty, h]

/-- R150: the charger that a new reason has paused. -/
def pausedWith (p : PauseSet) (g : Chg) : Chg := { g with pause := p, phase := .paused, iCmd := 0, term := 0 }

/-- R150, R159: a new reason where the charger charges or is DONE pauses it, with one event. -/
theorem setPause_pausing (h : pausesAt p s.chg = true) :
    setPause p s =
      raise (chargeDetail s s.chg.phase .paused p s.chg.cycle none) { s with chg := pausedWith p s.chg } := by
  have hne : Phase.paused ≠ s.chg.phase := fun he => by simp [pausesAt, ← he] at h
  exact (if_pos (by rwa [← pausesAt_eq])).trans (if_neg hne)

theorem setPause_quiet (h : pausesAt p s.chg = false) : setPause p s = { s with chg := { s.chg with pause := p } } :=
  if_neg (by rw [← pausesAt_eq, h]; decide)

theorem setPause_pause (p : PauseSet) (s : State) : (setPause p s).chg.pause = p := by
  cases h : pausesAt p s.chg with
  | true => simp [setPause_pausing h, pausedWith]
  | false => rw [setPause_quiet h]

/-- R150: the reasons that the zones give, SUPPLY as it stands. -/
def zonePause (s : State) : PauseSet :=
  ⟨s.scn.batZone == .cold, s.scn.batZone == .hot, s.scn.die.b85, s.chg.pause.supply⟩

theorem lowerCommand_pause (s : State) : (lowerCommand s).chg.pause = s.chg.pause := by
  simp only [lowerCommand]
  split <;> rfl

theorem lowerCommand_idle (h : charging s.chg.phase = false) : lowerCommand s = s := if_neg (by simp [h])

theorem chargerZones_pause (s : State) : (chargerZones s).chg.pause = zonePause s :=
  (lowerCommand_pause _).trans (setPause_pause _ s)

/-- R78, R150: a zone change that gives the charger a new reason. -/
theorem chargerZones_pausing (h : pausesAt (zonePause s) s.chg = true) :
    chargerZones s = raise (chargeDetail s s.chg.phase .paused (zonePause s) s.chg.cycle none)
      { s with chg := pausedWith (zonePause s) s.chg } :=
  (congrArg lowerCommand (setPause_pausing h)).trans (lowerCommand_idle rfl)

/-! ## The round end of a charger with a reason (R149) -/

/-- With a reason standing the notice finds no phase that charges, and where it is PAUSED the cycle stands. -/
theorem noticePhase_held (h : pauseEmpty s.chg.pause = false) :
    charging (noticePhase s).phase = false ∧ (noticePhase s).phase ≠ .done ∧ (noticePhase s).term = s.chg.term ∧
      ((noticePhase s).phase = .paused → (noticePhase s).cycle = s.chg.cycle) := by
  simp only [noticePhase, if_pos h]
  repeat' split
  all_goals simp [charging]

/-- R149 to R153: what the round end's notice makes of the charger, before its budget. -/
def noticed (s : State) : Chg := noticePhase (useTarget (powerNotice s))

theorem roundEnd_chg (s : State) :
    let t := roundEnd s
    t.chg.phase = (noticed s).phase ∧ t.chg.cycle = (noticed s).cycle ∧ t.chg.pause = (noticed s).pause ∧
      t.chg.term = (noticed s).term ∧ (charging t.chg.phase = false → t.chg.iCmd = 0) := by
  have heq : (roundEnd s).chg = (chargerBudget (enterPhase (useTarget (powerNotice s)))).chg := by
    simp only [roundEnd, chargerNotice, chargeEvent_frame]
  simp only [heq]
  exact ⟨rfl, rfl, rfl, rfl, fun hc => if_neg (ne_true_of_eq_false hc)⟩

theorem useTarget_powerNotice_chg (s : State) :
    (useTarget (powerNotice s)).chg = { s.chg with targetInUse := s.chg.target } := by simp

theorem roundEnd_pause (s : State) : (roundEnd s).chg.pause = s.chg.pause := by
  obtain ⟨-, -, hpause, -⟩ := roundEnd_chg s
  rw [hpause, noticed, (noticePhase_pause _).1, useTarget_powerNotice_chg]

/-- R159: a round end that leaves the phase raises no CHARGE event. -/
theorem roundEnd_samePhase (h : (roundEnd s).chg.phase = s.chg.phase) :
    (roundEnd s).lnk.events.charge = s.lnk.events.charge := by
  have hphase : (enterPhase (useTarget (powerNotice s))).chg.phase = (powerNotice s).chg.phase := by
    rw [(roundEnd_chg s).1, noticed] at h
    simp [h]
  have hnotice : chargerNotice (powerNotice s) = chargerBudget (enterPhase (useTarget (powerNotice s))) := if_pos hphase
  simp only [roundEnd, hnotice, chargerBudget_frame, enterPhase_frame, useTarget_frame]
  exact powerNotice_otherClass (k := .charge) s (by decide)

/-- R150: the round end leaves a charger that a reason has paused without current, and where it is still PAUSED its
cycle and the CHARGE event stand. -/
theorem roundEnd_held (hp : s.chg.phase = .paused) (he : pauseEmpty s.chg.pause = false) :
    let t := roundEnd s
    t.chg.iCmd = 0 ∧ t.chg.term = s.chg.term ∧ charging t.chg.phase = false ∧ t.chg.phase ≠ .done ∧
      (t.chg.phase = .paused → t.chg.cycle = s.chg.cycle ∧ t.lnk.events.charge = s.lnk.events.charge) := by
  intro t
  obtain ⟨hphase, hcycle, -, hterm, hcmd⟩ := roundEnd_chg s
  obtain ⟨hidle, hdone, hterm', hcycle'⟩ := noticePhase_held (s := useTarget (powerNotice s))
    (by rw [useTarget_powerNotice_chg]; exact he)
  rw [useTarget_powerNotice_chg] at hterm' hcycle'
  have hidle' : charging t.chg.phase = false := hphase ▸ hidle
  exact ⟨hcmd hidle', hterm.trans hterm', hidle', hphase ▸ hdone, fun hpaused =>
    ⟨hcycle.trans (hcycle' (hphase.symm.trans hpaused)), roundEnd_samePhase (hpaused.trans hp.symm)⟩⟩

end Sys2Proof.Machine
end

section
/-! O36: the die zones, their event and the thermal shutdown (R68, R76, R78). -/

namespace Sys2Proof.Machine

variable {k : EvClass} {s : State}

/-! ## Thermal shutdown (R68) -/

/-- Some channel falls to THERMAL. -/
def someThermal (a : PerChan Channel) : Prop :=
  (thermalTargets a).sx = true ∨ (thermalTargets a).sy = true ∨ (thermalTargets a).rt = true

theorem thermalTargets_iff (a : PerChan Channel) (c : Chan) :
    chanGet (thermalTargets a) c = true ↔ (chanGet a c).st ≠ .off ∧ (chanGet a c).st ≠ .thermal := by
  simp [thermalTargets, chanGet_chanMap]

theorem someThermal_of_target {a : PerChan Channel} {c : Chan} (h : chanGet (thermalTargets a) c = true) :
    someThermal a := by
  cases c
  · exact .inl h
  · exact .inr (.inl h)
  · exact .inr (.inr h)

theorem thermalShutdown_none (temp : Int) (h : ¬ someThermal s.adu) : thermalShutdown temp s = s :=
  if_neg (by simpa [someThermal, or_assoc] using h)

theorem thermalShutdown_some (temp : Int) (h : someThermal s.adu) :
    ∃ u, DriveMoved (onMask (chanGet (thermalTargets s.adu)) (loseStep (haltedIn .thermal))) s u ∧
      thermalShutdown temp s = raise (.thermalDown s.now temp (thermalTargets s.adu)) u :=
  ⟨_, forMask_moved _ fun c u _ => moveChannel_moved c (f := haltedIn .thermal) (fun _ => by simp [haltedIn]) u,
    if_pos (by simpa [someThermal, or_assoc] using h)⟩

theorem thermalShutdown_otherClass (temp : Int) (s : State) (h : k ≠ .actuator) :
    eventGet (thermalShutdown temp s).lnk.events k = eventGet s.lnk.events k := by
  by_cases hs : someThermal s.adu
  · obtain ⟨u, hmoved, heq⟩ := thermalShutdown_some temp hs
    rw [heq, raise_otherClass _ h, hmoved.1]
  · rw [thermalShutdown_none temp hs]

/-- R68: what the shutdown makes of each channel and of the step the split unit holds for it. -/
theorem thermalShutdown_chan (temp : Int) (s : State) (c : Chan) :
    let t := thermalShutdown temp s
    let falls := (chanGet s.adu c).st ≠ .off ∧ (chanGet s.adu c).st ≠ .thermal
    (falls → chanGet t.adu c = haltedIn .thermal (chanGet s.adu c)) ∧
      (¬ falls → chanGet t.adu c = chanGet s.adu c) ∧
      ((chanGet s.adu c).st = .active → chanGet t.csu.step c = 0 ∧ chanGet t.csu.absorbed c = 0) ∧
      ((chanGet s.adu c).st ≠ .active → chanGet t.csu.step c = chanGet s.csu.step c) := by
  intro t falls
  have hfalls : chanGet (thermalTargets s.adu) c = true ↔ falls := thermalTargets_iff s.adu c
  have hactive (ha : (chanGet s.adu c).st = .active) : falls := by simp [falls, ha]
  by_cases hs : someThermal s.adu
  · obtain ⟨u, hmoved, heq⟩ := thermalShutdown_some temp hs
    obtain ⟨hadu, hzero, hkeep⟩ := hmoved.of_loseStep c
    simp only [t, heq, raise_frame]
    exact ⟨fun h => hadu.trans (if_pos (hfalls.mpr h)), fun h => hadu.trans (if_neg (mt hfalls.mp h)),
      fun h => hzero ⟨hfalls.mpr (hactive h), h⟩, fun h => (hkeep fun hn => h hn.2).1⟩
  · have hnone : ¬ falls := fun h => hs (someThermal_of_target (hfalls.mpr h))
    have ht : t = s := thermalShutdown_none temp hs
    rw [ht]
    exact ⟨fun h => absurd h hnone, fun _ => rfl, fun h => absurd (hactive h) hnone, fun _ => rfl⟩

/-- R68: the one event of a shutdown. -/
theorem thermalShutdown_event (temp : Int) (s : State) :
    let t := thermalShutdown temp s
    (¬ someThermal s.adu → t.lnk.events.actuator = s.lnk.events.actuator) ∧
      (someThermal s.adu → s.lnk.recordMask.getLsbD 4 = true →
        t.lnk.events.actuator =
          countEvent s.lnk.events.actuator (.thermalDown s.now temp (thermalTargets s.adu))) := by
  refine ⟨fun h => by rw [thermalShutdown_none temp h], fun h hm => ?_⟩
  obtain ⟨u, hmoved, heq⟩ := thermalShutdown_some temp h
  have hlnk : u.lnk = s.lnk := by rw [hmoved.1]
  rw [heq, ← hlnk]
  exact raise_recorded (d := .thermalDown ..) (hlnk ▸ hm)

/-! ## A die zone that has changed (R78) -/

/-- R78: the zone's own event, and the charger's part in it. -/
def dieNoted (before : DieZone) (s : State) : State :=
  if dieZone s.scn.die = before then s
  else chargerZones (raise (.dieZone before (dieZone s.scn.die) s.scn.tDie.latest s.now) s)

theorem dieChanged_eq (before : DieZone) (s : State) :
    dieChanged before s =
      if dieZone s.scn.die = .critical ∧ before ≠ .critical then
        thermalShutdown s.scn.tDie.latest (dieNoted before s)
      else dieNoted before s := by
  by_cases hz : dieZone s.scn.die = before
  · simp +contextual [dieChanged, dieNoted, hz]
  · by_cases hc : dieZone s.scn.die = .critical
    · have hb : before ≠ .critical := fun h => hz (hc.trans h.symm)
      simp [dieChanged, dieNoted, hc, hb, hb.symm]
    · simp [dieChanged, dieNoted, hz, hc]

@[simp] theorem dieNoted_frame (before : DieZone) (s : State) :
    (dieNoted before s).now = s.now ∧ (dieNoted before s).adu = s.adu ∧ (dieNoted before s).csu = s.csu ∧
      (dieNoted before s).scn = s.scn ∧ (dieNoted before s).lnk.recordMask = s.lnk.recordMask := by
  simp only [dieNoted]
  split <;> simp

theorem dieNoted_otherClass (before : DieZone) (s : State) (hc : k ≠ .charge) (ht : k ≠ .thermal) :
    eventGet (dieNoted before s).lnk.events k = eventGet s.lnk.events k := by
  simp only [dieNoted]
  split
  · rfl
  · rw [chargerZones_otherClass _ hc, raise_otherClass _ ht]

theorem dieNoted_same {before : DieZone} (h : dieZone s.scn.die = before) : dieNoted before s = s := if_pos h

/-- R78, R150: what a change of the die zone makes of the charger, and its events. -/
theorem dieNoted_changed {before : DieZone} (h : dieZone s.scn.die ≠ before) :
    let t := dieNoted before s
    t.chg.pause = zonePause s ∧
      (pausesAt (zonePause s) s.chg = true →
        t.chg = pausedWith (zonePause s) s.chg ∧
          (s.lnk.recordMask.getLsbD 6 = true →
            t.lnk.events.charge =
              countEvent s.lnk.events.charge (chargeDetail s s.chg.phase .paused (zonePause s) s.chg.cycle none))) ∧
      (s.lnk.recordMask.getLsbD 9 = true →
        t.lnk.events.thermal =
          countEvent s.lnk.events.thermal (.dieZone before (dieZone s.scn.die) s.scn.tDie.latest s.now)) := by
  intro t
  let e : Detail := .dieZone before (dieZone s.scn.die) s.scn.tDie.latest s.now
  have ht : t = chargerZones (raise e s) := if_neg h
  have hmask : (raise e s).lnk.recordMask = s.lnk.recordMask := by simp
  rw [ht]
  refine ⟨chargerZones_pause _, fun hp => ?_, fun hm => ?_⟩
  · have hpaused := chargerZones_pausing (s := raise e s) hp
    refine ⟨by rw [hpaused]; rfl, fun hm => ?_⟩
    have hcharge : (raise e s).lnk.events.charge = s.lnk.events.charge := raise_otherClass (k := .charge) s nofun
    rw [hpaused, ← hcharge]
    exact raise_recorded (d := .charge ..) (hmask ▸ hm)
  · exact (chargerZones_otherClass (k := .thermal) _ (by decide)).trans (raise_recorded (d := e) hm)

theorem dieChanged_chg (before : DieZone) (s : State) : (dieChanged before s).chg = (dieNoted before s).chg := by
  rw [dieChanged_eq]
  split <;> simp

theorem dieChanged_otherClass (before : DieZone) (s : State) (h : k ≠ .actuator) :
    eventGet (dieChanged before s).lnk.events k = eventGet (dieNoted before s).lnk.events k := by
  rw [dieChanged_eq]
  split
  · exact thermalShutdown_otherClass _ _ h
  · rfl

/-! ## The T_DIE conversion -/

theorem pushHist_eq (hist : List Int) (z : Int) : pushHist hist z = (hist ++ [z]).drop (hist.length + 1 - 8) := by
  simp [pushHist]

/-- The state in which the conversion of slot 8 finds its zones: the reading has entered, nothing has followed. -/
def dieRead (z : Int) (s : State) : State := { s with scn := dieReading (clampInt (-400) 1500 z) s.scn }

theorem scanStep_die {z : Int} (h : s.scn.slot = 8) :
    let r := roundEnd (dieChanged (dieZone s.scn.die) (dieRead z s))
    scanStep (.value z) s = { r with scn := nextSlot r.scn } := by
  have hc : convert (.value z) s = convertTDie (.value z) s := by
    simp only [convert, h]
  simp only [scanStep, hc]
  rfl

theorem roundEnd_scn (s : State) : (roundEnd s).scn.slot = s.scn.slot ∧ (roundEnd s).scn.die = s.scn.die ∧
    (roundEnd s).scn.tDie = s.scn.tDie := by
  simp only [roundEnd, exchange]
  split <;> simp

/-- Settles O36: the reading enters, a change of zone is noted and on entry into CRITICAL shuts the drive down
(`dieChanged_eq`), and the round end follows, which holds a charger that the change has paused (`roundEnd_held`). -/
theorem dieZonesAndShutdown : Obligations.DieZonesAndShutdown := by
  intro z s ha hslot v o d zone shuts
  have hx : exec (.scanConversion (.value z)) s = .next (scanStep (.value z) s) := whenUp_awake ha _
  have hv : clampInt (-400) 1500 z = v := clampInt_eq (by decide) z
  have hread : (dieRead z s).scn = dieReading v s.scn := by rw [← hv]; rfl
  have hd : (dieRead z s).scn.die = d := by rw [hread]; rfl
  have hdie : (dieRead z s).scn.tDie = ⟨v, (s.scn.tDie.hist ++ [v]).drop (s.scn.tDie.hist.length + 1 - 8)⟩ := by
    rw [hread, ← pushHist_eq]; rfl
  rw [scanStep_die hslot] at hx
  obtain ⟨n, hn⟩ : ∃ n, dieNoted (dieZone s.scn.die) (dieRead z s) = n := ⟨_, rfl⟩
  obtain ⟨w, hw⟩ : ∃ w, dieChanged (dieZone s.scn.die) (dieRead z s) = w := ⟨_, rfl⟩
  have hchange := dieChanged_eq (dieZone s.scn.die) (dieRead z s)
  have hwchg : w.chg = n.chg := hw ▸ hn ▸ dieChanged_chg _ _
  have hother (k : EvClass) (hact : k ≠ .actuator) : eventGet w.lnk.events k = eventGet n.lnk.events k :=
    hw ▸ hn ▸ dieChanged_otherClass _ _ hact
  rw [hn, hw, hd, hdie] at hchange
  rw [hw] at hx
  have hclass (k : EvClass) (hc : k ≠ .charge) (hi : k ≠ .input) (hact : k ≠ .actuator) :
      eventGet (roundEnd w).lnk.events k = eventGet n.lnk.events k :=
    (roundEnd_otherClass _ hc hi).trans (hother k hact)
  have hpause : (roundEnd w).chg.pause = n.chg.pause :=
    (roundEnd_pause w).trans (congrArg Chg.pause hwchg)
  have hadu : n.adu = s.adu := by simp [← hn, dieRead]
  have hcsu : n.csu = s.csu := by simp [← hn, dieRead]
  have hnow : n.now = s.now := by simp [← hn, dieRead]
  have hmask : n.lnk.recordMask = s.lnk.recordMask := by simp [← hn, dieRead]
  have hshuts (h : shuts) : w = thermalShutdown v n := hchange.trans (if_pos h)
  have hstands (h : ¬ shuts) : w = n := hchange.trans (if_neg h)
  refine ⟨_, hx, ?clock, ?card, ?msu, ?ctx, ?ssv, ?slot, ?sides, ?reading, ?same, ?changed, ?shutdown, ?channels⟩
  case clock => simp [← hw, KeepsClock, dieRead]
  case card => simp [← hw, KeepsCard, dieRead]
  case msu | ctx | ssv => simp [← hw, dieRead]
  case slot => simp [← hw, nextSlot, roundEnd_scn, hread, dieReading, hslot]
  case sides => simp [← hw, nextSlot, roundEnd_scn, hd]
  case reading => simp [← hw, nextSlot, roundEnd_scn, hdie]
  case same =>
    intro hz
    have hnone : n = dieRead z s := hn ▸ dieNoted_same (hd ▸ hz)
    refine ⟨?_, ?_⟩
    · exact (hclass .thermal (by decide) (by decide) (by decide)).trans (by rw [hnone]; rfl)
    · rw [hpause, hnone]; rfl
  case changed =>
    intro hz p
    obtain ⟨hp, hpauses, hthermal⟩ := dieNoted_changed (before := dieZone s.scn.die) (s := dieRead z s) (hd ▸ hz)
    rw [hn] at hp hpauses hthermal
    have hzone : zonePause (dieRead z s) = p := by rw [zonePause, hd, hread]; rfl
    refine ⟨hpause.trans (hp.trans hzone), fun hadds => ?_, fun hm => ?_⟩
    · rw [hzone] at hpauses
      obtain ⟨hnoted, hevent⟩ := hpauses hadds
      have hchg : w.chg = pausedWith p s.chg := hwchg.trans hnoted
      obtain ⟨hcmd, hterm, hidle, hdone, hstays⟩ := roundEnd_held (by rw [hchg]; rfl)
        (by rw [hchg]; exact pauseEmpty_of_pausesAt hadds)
      rw [hchg] at hterm hstays
      refine ⟨hcmd, hterm, hidle, hdone, fun hpaused => ⟨(hstays hpaused).1, fun hm => ?_⟩⟩
      exact (hstays hpaused).2.trans ((hother .charge (by decide)).trans (hevent hm))
    · refine (hclass .thermal (by decide) (by decide) (by decide)).trans ((hthermal hm).trans ?_)
      rw [hd, hdie]; rfl
  case shutdown =>
    intro falls fell any
    have hfell : thermalTargets s.adu = fell := perChan_ext fun c =>
      Bool.eq_iff_iff.mpr ((thermalTargets_iff s.adu c).trans (by cases c <;> simp [chanGet, fell, falls]))
    have hact : n.lnk.events.actuator = s.lnk.events.actuator :=
      hn ▸ dieNoted_otherClass (k := .actuator) _ _ (by decide) (by decide)
    have hround (u : State) : (roundEnd u).lnk.events.actuator = u.lnk.events.actuator :=
      roundEnd_otherClass (k := .actuator) u (by decide) (by decide)
    obtain ⟨hnone, hone⟩ := thermalShutdown_event v n
    rw [hact, hmask, hnow, hadu, someThermal, hfell] at hone
    rw [hact, hadu, someThermal, hfell] at hnone
    refine ⟨fun h => (hround _).trans ?_, fun hs hany hm => (hround _).trans ?_⟩
    · by_cases hs : shuts
      · rw [hshuts hs]
        exact hnone fun ha => h ⟨hs, ha⟩
      · rw [hstands hs, hact]
    · rw [hshuts hs]
      exact hone hany hm
  case channels =>
    intro c ch
    simp only [roundEnd_frame]
    by_cases hs : shuts
    · obtain ⟨hfalls, hstay, hzero, hkeep⟩ := thermalShutdown_chan v n c
      rw [hadu] at hfalls hstay hzero hkeep
      rw [hcsu] at hkeep
      rw [hshuts hs]
      refine ⟨fun _ hoff hthermal => hfalls ⟨hoff, hthermal⟩, fun h => hstay fun ⟨hoff, hthermal⟩ => ?_,
        fun _ => hzero, fun h => hkeep (h.resolve_left (not_not_intro hs))⟩
      exact (h.resolve_left (not_not_intro hs)).elim hoff hthermal
    · rw [hstands hs, hadu, hcsu]
      exact ⟨fun h => absurd h hs, fun _ => rfl, fun h => absurd h hs, fun _ => rfl⟩

end Sys2Proof.Machine
end

section
/-! O54: the resets, their beginning, their causes together, and the values at their end (R197 to R199). -/

namespace Sys2Proof.Machine

variable {s : State} {rail : Rail} {cause : ResetCause}

/-! ## Causes (R197, R198) -/

theorem beginReset_awake (cause : ResetCause) (h : Awake s) :
    beginReset cause s = cutOff { s with rst := { s.rst with active := true, cause := cause } } :=
  if_neg (ne_true_of_eq_false h)

theorem beginReset_active (cause : ResetCause) (h : s.rst.active = true) :
    beginReset cause s = { s with rst := { s.rst with cause := severer s.rst.cause cause } } := if_pos h

theorem severer_powerOn (held : ResetCause) : severer held .powerOn = .powerOn := by cases held <;> rfl

theorem severer_brownout (held : ResetCause) :
    severer held .brownout = if held = .powerOn then .powerOn else .brownout := by
  cases held <;> rfl

/-- R198: neither RSTN nor a RESET replaces the cause of a power-on reset. -/
theorem severer_line (h : cause = .powerOn ∨ cause = .brownout) : severer cause .line = cause := by
  obtain h | h := h <;> rw [h] <;> rfl

theorem aboveBrownout_iff :
    aboveBrownout rail = true ↔ rail = .belowWarn ∨ rail = .belowRecover ∨ rail = .atRecover := by
  cases rail <;> simp [aboveBrownout]

/-! ## The end (R197, R198) -/

theorem finishReset_held (h : s.rst.supplyLow = true ∨ s.rst.lineLow = true) : finishReset s = s :=
  if_neg (by obtain h | h := h <;> simp [h])

theorem finishReset_powerOn (ha : s.rst.active = true) (hs : s.rst.supplyLow = false) (hl : s.rst.lineLow = false)
    (hc : s.rst.cause = .powerOn ∨ s.rst.cause = .brownout) : finishReset s = rideAtStart (powerOnState s) :=
  (if_pos (by simp [ha, hs, hl])).trans (if_pos (by obtain h | h := hc <;> rw [h] <;> rfl))

theorem finishReset_warm (ha : s.rst.active = true) (hs : s.rst.supplyLow = false) (hl : s.rst.lineLow = false)
    (hc : s.rst.cause = .line ∨ s.rst.cause = .request) : finishReset s = warmState s :=
  (if_pos (by simp [ha, hs, hl])).trans (if_neg (by obtain h | h := hc <;> rw [h] <;> decide))

/-- R198: the rail no longer holds the reset and stands at `rail`. -/
def risenTo (rail : Rail) (s : State) : State :=
  { s with rst := { s.rst with supplyLow := false }, ssv := { s.ssv with rail := rail } }

/-- R199: RSTN no longer holds the reset. -/
def lineUp (s : State) : State := { s with rst := { s.rst with lineLow := false } }

/-- R164, R198: the rail has risen to the brownout level or above it. -/
theorem supplyBack_above (hs : s.rst.supplyLow = true)
    (h : rail = .belowWarn ∨ rail = .belowRecover ∨ rail = .atRecover) :
    supplyBack rail s = finishReset (risenTo rail s) :=
  (if_pos hs).trans (if_pos (aboveBrownout_iff.mpr h))

theorem supplyBack_below (hs : s.rst.supplyLow = true)
    (h : ¬ (rail = .belowWarn ∨ rail = .belowRecover ∨ rail = .atRecover)) : supplyBack rail s = s :=
  (if_pos hs).trans (if_neg fun ha => h (aboveBrownout_iff.mp ha))

theorem lineRises_low (h : s.rst.lineLow = true) :
    lineRises s = finishReset (lineUp s) := if_pos h

/-! ## A power-on reset that ends (R52, R60, R165) -/

theorem rideAtStart_high (h : s.ssv.rail = .belowRecover ∨ s.ssv.rail = .atRecover) : rideAtStart s = s :=
  if_neg (by obtain h | h := h <;> rw [h] <;> decide)

theorem rideAtStart_clock (s : State) : (rideAtStart s).now = s.now ∧ (rideAtStart s).rst = s.rst := by
  simp only [rideAtStart]
  split <;> simp

/-- R61: a reason that joins where no channel is ACTIVE touches the channels alone. -/
theorem addParkAll_idle (r : ParkReason) (h : ∀ c, (chanGet s.adu c).st ≠ .active) :
    addParkAll r s = { s with adu := chanMap (parkedBy r) s.adu } := by
  obtain ⟨st, ab, heq, hadu, hst, hab⟩ := addParkAll_spec r s
  have hstep : st = s.csu.step := perChan_ext fun c => (hst c).trans (if_neg (h c))
  have habs : ab = s.csu.absorbed := perChan_ext fun c => (hab c).trans (if_neg (h c))
  have hchan : (addParkAll r s).adu = chanMap (parkedBy r) s.adu :=
    perChan_ext fun c => (hadu c).trans (chanGet_chanMap _ _ c).symm
  rw [hstep, habs, hchan] at heq
  exact heq

/-- R60, R150: SUPPLY where no channel is ACTIVE and the charger does not charge. -/
theorem addSupply_idle (h : ∀ c, (chanGet s.adu c).st ≠ .active) (hp : pausable s.chg.phase = false) :
    addSupply s = { s with
      adu := chanMap (parkedBy .supply) s.adu
      chg := { s.chg with pause := { s.chg.pause with supply := true } } } :=
  (congrArg (pauseSupply true) (addParkAll_idle .supply h)).trans
    (setPause_quiet (by rw [pausesAt_eq, hp, Bool.and_false]))

/-- R190: a reset leaves every class recorded. -/
theorem supply_recorded : Lnk.reset.recordMask.getLsbD 8 = true := by decide

/-- R60, R165: the ride-through that a power-on reset ending below warn starts. -/
theorem rideAtStart_low (h : s.ssv.rail = .belowWarn) :
    rideAtStart (powerOnState s) =
      raise (.supply .rideThrough .normal .rideThrough 0 0 false 0)
        { powerOnState s with
          adu := chanMap (channelAfter true) s.adu
          chg := { Chg.reset with pause := ⟨false, false, false, true⟩ }
          ssv := { Ssv.reset .belowWarn with st := .rideThrough, timerEnd := some 33#32 } } := by
  have hride : rideAtStart (powerOnState s) = startRide (powerOnState s) :=
    if_pos (by simp [powerOnState, h, Ssv.reset, railBelowWarn])
  have hoff (c : Chan) : (chanGet (powerOnState s).adu c).st ≠ .active := by
    simp [powerOnState, chanGet_chanMap, channelAfter, Channel.reset]
  rw [hride]
  let u := powerOnState s
  have hadds := addSupply_idle
    (s := { u with ssv := { u.ssv with st := .rideThrough, timerEnd := some (later u.now (ticksOfMs u.ssv.rideMs)) } })
    hoff rfl
  refine (congrArg (supplyEvent .rideThrough .normal false 0) hadds).trans ?_
  simp only [u, powerOnState, h]
  rfl

/-! ## A warm reset that ends (R79, R141, R148, R165) -/

theorem slot1Source_eq (sel : Option Src) : slot1Source sel = if sel = some .aux then .aux else .usb := by
  obtain _ | _ | _ := sel <;> rfl

/-- R141: I_eff within the power-on limit of the kept selection. -/
theorem ipsAfter_iEff (p : Ips) :
    (ipsAfter p).iEff = match p.sel with
      | none => p.iEff
      | some .usb => min p.iEff 1500
      | some .aux => min p.iEff 2000 := by
  simp only [ipsAfter]
  obtain _ | _ | _ := p.sel <;> rfl

theorem inSupply_eq (v : Supply) : (v != .normal) = decide (v ≠ .normal) := by cases v <;> rfl

/-- R148: the phase that a warm reset sets. -/
theorem phaseAfter_eq (s : State) : (chgAfter s).phase = if s.chg.latch = none then .noInput else .fault := by
  simp only [chgAfter]
  cases s.chg.latch <;> rfl

/-- R165: a timer gets the time it had left. -/
theorem ticksLeft_eq (now e : Word) :
    BitVec.ofNat 32 (ticksLeft now e) = if (now - e).toNat < 2147483648 then 0 else e - now := by
  by_cases h : (now - e).toNat < 2147483648
  · exact (congrArg _ (if_pos (decide_eq_true h))).trans (if_pos h).symm
  · have hr : reached now e = false := decide_eq_false h
    rw [if_neg h, ticksLeft, hr, if_neg Bool.false_ne_true, since, BitVec.ofNat_toNat, BitVec.setWidth_eq]

/-- Settles O54: the beginning and the joining of causes by the equations of each row, the ends by
`finishReset_powerOn` (with `rideAtStart_low` or `rideAtStart_high`) and `finishReset_warm`. -/
theorem resetsBeginAndEnd : Obligations.ResetsBeginAndEnd := by
  refine ⟨fun s ha => ?begins, fun s ha => ?causes, fun s => ?lineAlready, fun s ha hs hl hc => ?supplyEnds,
    fun s hs hrail => ?toWarn, fun s ha hs hl hc => ?lineEndsPowerOn, fun s ha hs hl hc => ?lineEndsWarm⟩
  case begins =>
    have hbegins (cause : ResetCause) := beginReset_awake cause ha
    refine ⟨fun hs => ⟨brownout s, rfl, ?_, ?_⟩, fun hl => ⟨lineFalls s, rfl, ?_, ?_⟩⟩
    · simp [brownout, hs, hbegins, cutOff]
    · simp [brownout, hs, hbegins, cutOff, chanGet_chanMap, quietChannel]
    · simp [lineFalls, hl, hbegins, cutOff]
    · simp [lineFalls, hl, hbegins, cutOff, chanGet_chanMap, quietChannel]
  case causes =>
    have hjoins (cause : ResetCause) := beginReset_active cause ha
    refine ⟨fun hs => ⟨congrArg _ (if_pos hs), ?powerOnLevel, ?stillLow, ?railStands⟩, fun hs hl hc => ?lineJoins,
      fun hs => ?railMoves, fun hs hl => ?brownoutJoins, fun hs hl => ⟨?lineGoes, ?railGoes⟩⟩
    case powerOnLevel =>
      refine congrArg _ ((if_pos hs).trans ?_)
      rw [hjoins, severer_powerOn]
    case stillLow => exact fun rail hr => congrArg _ (supplyBack_below hs hr)
    case railStands =>
      have hin (rail : Rail) (f : State → State) : railStep rail f s = .next s :=
        congrArg _ ((if_pos ha).trans (if_pos hs))
      exact ⟨hin .belowWarn _, hin .atRecover _, hin .belowRecover _⟩
    case lineJoins =>
      refine congrArg _ ((if_neg (ne_true_of_eq_false hl)).trans ?_)
      rw [hjoins, severer_line hc]
    case railMoves =>
      have hin (rail : Rail) (f : State → State) :
          railStep rail f s = .next { s with ssv := { s.ssv with rail := rail } } :=
        congrArg _ ((if_pos ha).trans (if_neg (ne_true_of_eq_false hs)))
      exact ⟨hin .belowWarn _, hin .atRecover _, hin .belowRecover _⟩
    case brownoutJoins =>
      refine congrArg _ ((if_neg (ne_true_of_eq_false hs)).trans ?_)
      rw [hjoins, severer_brownout]
      simp [ha, hl]
    case lineGoes => exact congrArg _ ((lineRises_low hl).trans (finishReset_held (.inl hs)))
    case railGoes => exact fun rail hr => congrArg _ ((supplyBack_above hs hr).trans (finishReset_held (.inr hl)))
  case lineAlready => exact ⟨fun h => congrArg _ (if_pos h), fun h => congrArg _ (if_neg (ne_true_of_eq_false h))⟩
  case supplyEnds =>
    have hends (rail : Rail) (hr : rail = .belowWarn ∨ rail = .belowRecover ∨ rail = .atRecover) :
        exec (.powerOnResetEnd rail) s = .next (rideAtStart (powerOnState (risenTo rail s))) :=
      congrArg _ ((supplyBack_above hs hr).trans (finishReset_powerOn ha rfl hl hc))
    refine ⟨fun rail hr => ?_, ?_⟩
    · have hx := hends rail (.inr hr)
      rw [rideAtStart_high (s := powerOnState (risenTo rail s)) hr] at hx
      refine ⟨_, hx, ?_, fun c => chanGet_chanMap _ _ c⟩
      simp only [powerOnState, risenTo, hl]
      rfl
    · have hx := hends .belowWarn (.inl rfl)
      rw [rideAtStart_low (s := risenTo .belowWarn s) rfl] at hx
      refine ⟨_, hx, ?_, ?_, fun c => ?_⟩
      · conv_lhs => rw [raise, raiseIn_eq]
        simp only [powerOnState, risenTo, hl]
        rfl
      · exact raise_recorded (d := .supply ..) supply_recorded
      · exact chanGet_chanMap _ _ c
  case toWarn => exact congrArg _ ((if_neg (ne_true_of_eq_false hs)).trans ((if_pos rfl).trans (if_pos hrail)))
  case lineEndsPowerOn =>
    have hx : exec .rstnHigh s = .next (rideAtStart (powerOnState (lineUp s))) :=
      congrArg _ ((lineRises_low hl).trans (finishReset_powerOn ha hs rfl hc))
    obtain ⟨hnow, hrst⟩ := rideAtStart_clock (powerOnState (lineUp s))
    refine ⟨_, hx, hnow, hrst.trans (by simp [powerOnState, lineUp, hs]), fun hr => ?_, fun hr => ?_⟩
    · rw [rideAtStart_low (s := lineUp s) hr]
      exact ⟨hr.symm, rfl, rfl, rfl, rfl, fun c => chanGet_chanMap _ _ c⟩
    · rw [rideAtStart_high (s := powerOnState (lineUp s)) hr]
      exact ⟨rfl, rfl, rfl, rfl, rfl, fun c => chanGet_chanMap _ _ c⟩
  case lineEndsWarm =>
    have hx : exec .rstnHigh s = .next (warmState (lineUp s)) :=
      congrArg _ ((lineRises_low hl).trans (finishReset_warm ha hs rfl hc))
    refine ⟨_, hx, rfl, ?rst, rfl, rfl, rfl, rfl, rfl, rfl, rfl, rfl, ?scn, ?ips, ?chg, rfl, rfl, rfl, rfl, ?timer,
      fun _ => ⟨rfl, rfl⟩, fun c => ?chan⟩
    case rst => simp [warmState, lineUp, hs]
    case scn => exact congrArg (fun x => { scanAfter s with slot1 := x }) (slot1Source_eq s.ips.sel)
    case ips => exact congrArg (fun x => { ipsAfter s.ips with iEff := x }) (ipsAfter_iEff s.ips)
    case chg =>
      have hchg : (warmState (lineUp s)).chg = chgAfter s := rfl
      rw [hchg, ← inSupply_eq, ← phaseAfter_eq]
      rfl
    case timer => exact congrArg (fun f => Option.map f s.ssv.timerEnd) (funext (ticksLeft_eq s.now))
    case chan =>
      rw [← inSupply_eq]
      exact chanGet_chanMap _ _ c

end Sys2Proof.Machine
end

section
/-! O34: the conversions of slots 1 to 6, and the averages (R71 to R74). -/

namespace Sys2Proof.Machine

variable {r : Reading} {s : State} {c : Scn} {k : Nat}

/-! ## Histories and averages (R74) -/

theorem enterValue_eq (i : Input) (z : Int) :
    enterValue i z = ⟨z, (i.hist ++ [z]).drop (i.hist.length + 1 - 8)⟩ :=
  congrArg (Input.mk z) (pushHist_eq i.hist z)

theorem sumInts_eq (l : List Int) : sumInts l = l.sum := by
  induction l with
  | nil => rfl
  | cons z l ih => rw [sumInts, ih, List.sum_cons]

theorem inputAvg_eq (i : Input) : inputAvg i = if i.hist = [] then 0 else roundDiv i.hist.sum i.hist.length := by
  simp only [inputAvg, sumInts_eq, List.length_eq_zero_iff]

/-! ## A conversion that only the scan notices -/

theorem convert_vIn (h : s.scn.slot = 1) : convert r s = { s with scn := convertVIn r s.scn } := by
  simp only [convert, h]

theorem convert_vAlt (h : s.scn.slot = 2) : convert r s = { s with scn := convertVAlt r s.scn } := by
  simp only [convert, h]

theorem convert_vBat (h : s.scn.slot = 3) :
    convert r s = { s with scn := { s.scn with vBat := enterValue s.scn.vBat (readingIn 0 5000 r) } } := by
  simp only [convert, h]

theorem convert_iBat (h : s.scn.slot = 4) :
    convert r s = { s with scn := { s.scn with iBat := enterValue s.scn.iBat (readingIn (-4000) 4000 r) } } := by
  simp only [convert, h]

theorem convert_vSys (h : s.scn.slot = 5) :
    convert r s = { s with scn := { s.scn with vSys := enterValue s.scn.vSys (readingIn 0 5000 r) } } := by
  simp only [convert, h]

theorem convert_iSys (h : s.scn.slot = 6) :
    convert r s = { s with scn := { s.scn with iSys := enterValue s.scn.iSys (readingIn 0 4000 r) } } := by
  simp only [convert, h]

/-- R71: a conversion that touches the scan alone, before slot 8, passes to the next slot. -/
theorem scanStep_scanOnly (hc : convert r s = { s with scn := c }) (hk : c.slot = k) (h : k < 8) :
    scanStep r s = { s with scn := { c with slot := k + 1 } } := by
  subst hk
  simp only [scanStep, hc, nextSlot, if_neg (Nat.not_le.mpr h)]

/-- R73: the value noted under a source's name leaves the slot. -/
theorem noteSource_slot (src : Src) (z : Int) (c : Scn) : (noteSource src z c).slot = c.slot := by cases src <;> rfl

theorem otherSource_eq (src : Src) : otherSource src = if src = .usb then .aux else .usb := by cases src <;> rfl

/-- Settles O34: in each of the slots the conversion is one entry of the clamped reading, and the slot moves on
(`scanStep_scanOnly`). -/
theorem scanConversionsTakeReadings : Obligations.ScanConversionsTakeReadings := by
  refine ⟨?_, inputAvg_eq⟩
  intro z s ha within enter named c
  have hstep {t : Scn} {k : Nat} (hc : convert (.value z) s = { s with scn := t }) (hk : t.slot = k) (h : k < 8) :
      exec (.scanConversion (.value z)) s = .next { s with scn := { t with slot := k + 1 } } :=
    (whenUp_awake ha _).trans (congrArg _ (scanStep_scanOnly hc hk h))
  have hread {lo hi : Int} (h : lo ≤ hi) (i : Input) :
      enterValue i (readingIn lo hi (.value z)) = enter i (within lo hi) :=
    (enterValue_eq i _).trans (congrArg (enter i) (clampInt_eq h z))
  have hvolts : readingIn 0 20000 (.value z) = within 0 20000 := clampInt_eq (by decide) z
  have hnamed (src : Src) (c : Scn) (k : Nat) :
      { noteSource src (within 0 20000) c with slot := k } = named src { c with slot := k } := by
    cases src <;> rfl
  refine ⟨fun h => ?vIn, ?vAlt, fun h => ?vBat, fun h => ?iBat, fun h => ?vSys, fun h => ?iSys⟩
  case vIn =>
    rw [hstep (convert_vIn h) ((noteSource_slot ..).trans h) (by decide), convertVIn, hread (by decide), hvolts, hnamed]
  case vAlt =>
    intro h other
    rw [hstep (convert_vAlt h) ((noteSource_slot ..).trans h) (by decide), convertVAlt, hread (by decide), hvolts,
      hnamed, otherSource_eq]
  case vBat => rw [hstep (convert_vBat h) h (by decide), hread (by decide)]
  case iBat => rw [hstep (convert_iBat h) h (by decide), hread (by decide)]
  case vSys => rw [hstep (convert_vSys h) h (by decide), hread (by decide)]
  case iSys => rw [hstep (convert_iSys h) h (by decide), hread (by decide)]

end Sys2Proof.Machine
end

section
/-! O35: the T_BAT conversion, and what a change of the battery zone makes of the charger (R75, R77, R78, R150, R158,
R161). -/

namespace Sys2Proof.Machine

variable {r : Reading} {s : State} {c : Scn}

/-! ## The charger after a change of zone (R150, R158, R161) -/

theorem loweredTo_eq (d : Nat) (g : Chg) :
    loweredTo d g =
      if charging g.phase then { g with iCmd := min g.iCmd (floorTo 25 d), derated := min g.derated d } else g := by
  simp only [loweredTo]
  cases g.phase <;> rfl

/-- R158: in a phase that charges, the derated target. -/
theorem deratedTarget_charging (h : charging s.chg.phase = true) :
    deratedTarget s = targetAfter s.scn.batZone s.scn.die.b70 s.chg.phase s.chg.fast := by
  simp only [deratedTarget, derate, targetAfter]
  cases hp : s.chg.phase <;> simp [hp, charging] at h <;> rfl

/-- R161: between notices the command comes down to the derated target. -/
theorem lowerCommand_chg (s : State) :
    (lowerCommand s).chg = loweredTo (targetAfter s.scn.batZone s.scn.die.b70 s.chg.phase s.chg.fast) s.chg := by
  rw [loweredTo_eq, lowerCommand]
  split
  · rw [deratedTarget_charging ‹_›]
  · rfl

/-- R78, R150, R161: what the zones that stand make of the charger. -/
theorem chargerZones_reasonsBecome (s : State) :
    ReasonsBecome (zonePause s)
      (loweredTo (targetAfter s.scn.batZone s.scn.die.b70 s.chg.phase s.chg.fast)
        { s.chg with pause := zonePause s }) s (chargerZones s) := by
  refine ⟨fun hp => ?_, fun hq => ?_⟩
  · rw [chargerZones_pausing hp]
    exact ⟨rfl, fun hm => raise_recorded (d := .charge ..) hm⟩
  · have hzones : chargerZones s = lowerCommand { s with chg := { s.chg with pause := zonePause s } } :=
      congrArg lowerCommand (setPause_quiet hq)
    rw [hzones]
    exact ⟨lowerCommand_chg _, by simp only [lowerCommand_frame]⟩

/-- R150: the reasons' rule sees of a state the charger, its event and mask, the two averages of the event, the time. -/
theorem ReasonsBecome.of_same {p : PauseSet} {g : Chg} {u t : State} (h : ReasonsBecome p g u t) (hchg : u.chg = s.chg)
    (hmask : u.lnk.recordMask = s.lnk.recordMask) (hevent : u.lnk.events.charge = s.lnk.events.charge)
    (hvBat : u.scn.vBat = s.scn.vBat) (hiBat : u.scn.iBat = s.scn.iBat) (hnow : u.now = s.now) :
    ReasonsBecome p g s t := by
  simpa only [ReasonsBecome, chargeDetail, hchg, hmask, hevent, hvBat, hiBat, hnow] using h

/-! ## A battery zone that has changed (R78) -/

/-- R78: from `s` to `t` the battery zone has come to `z` by the average `avg`: a zone that stands leaves the link and
the charger; a change raises one THERMAL event and gives the charger its reasons. -/
def BatteryZoneBecomes (z : BatZone) (avg : Int) (s t : State) : Prop :=
  (z = s.scn.batZone → t.lnk = s.lnk ∧ t.chg = s.chg) ∧
    (z ≠ s.scn.batZone →
      let p : PauseSet := ⟨z == .cold, z == .hot, s.scn.die.b85, s.chg.pause.supply⟩
      ReasonsBecome p (loweredTo (targetAfter z s.scn.die.b70 s.chg.phase s.chg.fast) { s.chg with pause := p }) s t ∧
        (s.lnk.recordMask.getLsbD 9 = true →
          t.lnk.events.thermal =
            ⟨min 255 (s.lnk.events.thermal.count + 1), some (.batZone s.scn.batZone z avg s.now)⟩))

theorem batteryChanged_zoneBecomes (hdie : c.die = s.scn.die) (hvBat : c.vBat = s.scn.vBat)
    (hiBat : c.iBat = s.scn.iBat) :
    BatteryZoneBecomes c.batZone (inputAvg c.tBat) s (batteryChanged s.scn.batZone { s with scn := c }) := by
  refine ⟨fun hz => ?_, ?_⟩
  · rw [batteryChanged, if_pos hz]
    exact ⟨rfl, rfl⟩
  · intro hz p
    let u := raise (.batZone s.scn.batZone c.batZone (inputAvg c.tBat) s.now) { s with scn := c }
    have hzones : batteryChanged s.scn.batZone { s with scn := c } = chargerZones u := if_neg hz
    have hpause : zonePause u = p := by simp only [p, ← hdie]; rfl
    have hreasons := chargerZones_reasonsBecome u
    rw [hpause] at hreasons
    rw [hzones, ← hdie]
    exact ⟨hreasons.of_same rfl (by simp [u]) (raise_otherClass (k := .charge) _ nofun) hvBat hiBat rfl,
      fun hm => (chargerZones_otherClass (k := .thermal) u (by decide)).trans (raise_recorded (d := .batZone ..) hm)⟩

/-! ## The T_BAT conversion (R75, R77) -/

theorem batteryReading_frame (r : Reading) (c : Scn) :
    (batteryReading r c).slot = c.slot ∧ (batteryReading r c).die = c.die ∧ (batteryReading r c).vBat = c.vBat ∧
      (batteryReading r c).iBat = c.iBat := by
  simp only [batteryReading, batteryGone, batteryCome]
  repeat' split
  all_goals simp

theorem scanStep_battery (h : s.scn.slot = 7) :
    let u := batteryChanged s.scn.batZone { s with scn := batteryReading r s.scn }
    scanStep r s = { u with scn := { batteryReading r s.scn with slot := 8 } } := by
  intro u
  have hc : convert r s = u := by simp only [convert, h]; rfl
  have hscn : u.scn = batteryReading r s.scn := by simp [u]
  have hslot : (batteryReading r s.scn).slot = 7 := (batteryReading_frame r s.scn).1.trans h
  simp only [scanStep, hc, nextSlot, hscn, hslot]
  rfl

/-- R77, R78: a T_BAT conversion leaves the other blocks, and the charger and the link follow the zone. -/
theorem scanStep_batteryZone (hs : s.scn.slot = 7) (hc : batteryReading r s.scn = c) :
    let t := scanStep r s
    (KeepsClock s t ∧ KeepsMotion s t ∧ KeepsCard s t ∧ t.adu = s.adu ∧ t.ips = s.ips ∧ t.ssv = s.ssv) ∧
      t.scn = { c with slot := 8 } ∧ BatteryZoneBecomes c.batZone (inputAvg c.tBat) s t := by
  subst hc
  obtain ⟨-, hdie, hvBat, hiBat⟩ := batteryReading_frame r s.scn
  rw [scanStep_battery hs]
  exact ⟨by simp [KeepsClock, KeepsMotion, KeepsCard], rfl, batteryChanged_zoneBecomes hdie hvBat hiBat⟩

/-- A T_BAT conversion that leaves the zone is the scan's alone. -/
theorem scanStep_batteryKept (hs : s.scn.slot = 7) (hc : batteryReading r s.scn = c) (hz : c.batZone = s.scn.batZone) :
    scanStep r s = { s with scn := { c with slot := 8 } } := by
  rw [scanStep_battery hs, hc, batteryChanged, if_pos hz]

/-! ## The reading, case by case (R75) -/

theorem batteryReading_present (hb : c.battery = true) (z : Int) :
    let bat := enterValue c.tBat (clampInt (-400) 1250 z)
    let sides := batCross c.batSides (inputAvg bat)
    batteryReading (.value z) c =
      { c with openCount := 0, tBat := bat, batSides := sides, batZone := batZoneOf sides } := by
  simp only [batteryReading, hb]

theorem batteryReading_firstOpen (hb : c.battery = true) (ho : c.openCount = 0) :
    batteryReading .openCircuit c = { c with openCount := 1 } := by
  simp [batteryReading, hb, ho]

theorem batteryReading_secondOpen (hb : c.battery = true) (ho : 1 ≤ c.openCount) :
    batteryReading .openCircuit c = batteryGone c := by
  simp [batteryReading, hb, ho]

theorem batteryReading_absentOpen (hb : c.battery = false) :
    batteryReading .openCircuit c = { c with tBat := ⟨0, []⟩, validCount := 0 } := by
  simp only [batteryReading, hb, Input.empty]

theorem batteryReading_counted (hb : c.battery = false) (hv : c.validCount < 7) (z : Int) :
    batteryReading (.value z) c =
      { c with tBat := enterValue c.tBat (clampInt (-400) 1250 z), validCount := c.validCount + 1 } := by
  simp only [batteryReading, hb]
  exact if_neg (by simpa using hv)

theorem batteryReading_eighth (hb : c.battery = false) (hv : 7 ≤ c.validCount) (z : Int) :
    batteryReading (.value z) c =
      batteryCome
        { c with tBat := enterValue c.tBat (clampInt (-400) 1250 z), validCount := c.validCount + 1 } := by
  simp only [batteryReading, hb]
  exact if_pos (by simpa using hv)

/-! ## The obligation -/

theorem stepThat_stays {p : State → State → Bool} {f : State → State} (h : p s (f s) = false) :
    stepThat p f s = s :=
  if_neg (ne_true_of_eq_false h)

/-- Settles O35: each case is one value of `batteryReading`, and link and charger follow the zone it gives
(`scanStep_batteryZone`). The rows named after a change of presence are that conversion when it happens. -/
theorem batteryComesAndGoes : Obligations.BatteryComesAndGoes := by
  unfold Obligations.BatteryComesAndGoes
  intro within enter zone changed frame
  have hread (i : Input) (z : Int) : enterValue i (clampInt (-400) 1250 z) = enter i (within z) :=
    (enterValue_eq i _).trans (congrArg (enter i) (clampInt_eq (by decide) z))
  have hscan {s : State} (ha : Awake s) (r : Reading) : exec (.scanConversion r) s = .next (scanStep r s) :=
    whenUp_awake ha _
  refine ⟨?temperature, fun s ha hs hb => ⟨fun ho => ?firstOpen, fun ho => ?secondOpen⟩, fun s ha hs hb => ?absentOpen,
    ?absentTemperature⟩
  case temperature =>
    intro z s ha hs hb bat a o b
    have hc := batteryReading_present hb z
    simp only [hread] at hc
    obtain ⟨hframe, hscn, hzone⟩ := scanStep_batteryZone hs hc
    exact ⟨_, hscan ha _, hframe, hscn, hzone⟩
  case firstOpen =>
    have hstep := scanStep_batteryKept hs (batteryReading_firstOpen hb ho) rfl
    refine ⟨(hscan ha _).trans (congrArg _ hstep), (whenUp_awake ha _).trans (congrArg _ (stepThat_stays ?_))⟩
    rw [hstep]
    simp [batteryWent, hb]
  case secondOpen =>
    obtain ⟨hframe, hscn, hzone⟩ := scanStep_batteryZone hs (batteryReading_secondOpen hb ho)
    refine ⟨_, (whenUp_awake ha _).trans (congrArg _ (stepThat_happens ?_)), hscan ha _, hframe, hscn, hzone⟩
    simp [batteryWent, hb, hscn, batteryGone]
  case absentOpen =>
    rw [hscan ha, scanStep_batteryKept hs (batteryReading_absentOpen hb) rfl]
  case absentTemperature =>
    intro z s ha hs hb bat a b
    refine ⟨fun hv => ?counted, fun hv => ?eighth⟩
    case counted =>
      have hc := batteryReading_counted hb hv z
      rw [hread] at hc
      have hstep := scanStep_batteryKept hs hc rfl
      refine ⟨(hscan ha _).trans (congrArg _ hstep), (whenUp_awake ha _).trans (congrArg _ (stepThat_stays ?_))⟩
      rw [hstep]
      simp [batteryCame, hb]
    case eighth =>
      have hc := batteryReading_eighth hb hv z
      rw [hread] at hc
      obtain ⟨hframe, hscn, hzone⟩ := scanStep_batteryZone hs hc
      refine ⟨_, (whenUp_awake ha _).trans (congrArg _ (stepThat_happens ?_)), hscan ha _, hframe, hscn, hzone⟩
      simp [batteryCame, hb, hscn, batteryCome]

end Sys2Proof.Machine
end

section
/-! O37: the round end's selector and the scan that follows it (R73, R142 to R147). -/

namespace Sys2Proof.Machine

variable {s : State} {p : Ips} {usbV auxV vIn : Int}

/-! ## Presence and selection (R142, R143) -/

theorem presenceNotice_eq (threshold v : Int) (x : Presence) :
    presenceNotice threshold v x =
      if x.present = true then
        if threshold < v then { x with loss := 0 } else if x.loss = 0 then { x with loss := 1 } else ⟨false, 0, 0⟩
      else if threshold < v then if x.count < 31 then { x with count := x.count + 1 } else ⟨true, 0, 0⟩
      else { x with count := 0 } := by
  have hloss : 2 ≤ x.loss + 1 ↔ ¬ x.loss = 0 := by omega
  have hcount : 32 ≤ x.count + 1 ↔ ¬ x.count < 31 := by omega
  simp only [presenceNotice, hloss, hcount, ite_not]
  by_cases h : x.loss = 0 <;> simp only [h, if_true, if_false]

theorem selectSource_eq (usb aux : Bool) (pref : Src) :
    selectSource usb aux pref =
      if usb = true then if aux = true then some pref else some .usb else if aux = true then some .aux else none := by
  cases usb <;> cases aux <;> rfl

/-- The selection that a notice comes to. -/
def selectedAt (usbV auxV : Int) (p : Ips) : Option Src :=
  selectSource (presenceNotice 4300 usbV p.usb).present (presenceNotice 5000 auxV p.aux).present p.pref

/-! ## The effective input limit (R143, R146) -/

/-- What a notice leaves of the selector besides the selection, I_eff and the sag count. -/
def presencesNoted (usbV auxV : Int) (p : Ips) : Ips :=
  { p with usb := presenceNotice 4300 usbV p.usb, aux := presenceNotice 5000 auxV p.aux }

theorem ipsNotice_selects (h : selectedAt usbV auxV p ≠ p.sel) :
    ipsNotice usbV auxV vIn p =
      { presencesNoted usbV auxV p with
        sel := selectedAt usbV auxV p, iEff := min 500 (limitOf p (selectedAt usbV auxV p)), sag := 0 } :=
  if_neg h

theorem ipsNotice_none (h : selectedAt usbV auxV p = p.sel) (hn : selectedAt usbV auxV p = none) :
    ipsNotice usbV auxV vIn p = { presencesNoted usbV auxV p with iEff := 0 } := by
  refine (if_pos h).trans ?_
  split
  · rfl
  · next heq => exact nomatch hn.symm.trans heq

theorem ipsNotice_walks (h : selectedAt usbV auxV p = p.sel) (hn : selectedAt usbV auxV p ≠ none) :
    ipsNotice usbV auxV vIn p = walkLimit vIn (presencesNoted usbV auxV p) := by
  refine (if_pos h).trans ?_
  split
  · next heq => exact absurd heq hn
  · rfl

theorem walkLimit_frame (vIn : Int) (p : Ips) :
    walkLimit vIn p = { p with iEff := (walkLimit vIn p).iEff, sag := (walkLimit vIn p).sag } := by
  simp only [walkLimit]
  repeat' split
  all_goals rfl

theorem walkLimit_moves {floor : Int} {limit : Nat} (hfloor : (floorOf p p.sel : Int) = floor)
    (hlimit : limitOf p p.sel = limit) (vIn : Int) :
    ((walkLimit vIn p).iEff, (walkLimit vIn p).sag) =
      if vIn < floor then (max 100 (p.iEff - 100), 0)
      else if vIn < floor + 200 then (p.iEff, 0)
      else if p.sag < 31 then (p.iEff, p.sag + 1)
      else (min limit (p.iEff + 50), 0) := by
  subst hfloor hlimit
  have hsag : 32 ≤ p.sag + 1 ↔ ¬ p.sag < 31 := by omega
  simp only [walkLimit, hsag, ite_not]
  repeat' split
  all_goals rfl

/-- R142, R143: besides I_eff and the sag count, a notice moves the presences and the selection. -/
theorem ipsNotice_frame (usbV auxV vIn : Int) (p : Ips) :
    ipsNotice usbV auxV vIn p =
      { presencesNoted usbV auxV p with
        sel := selectedAt usbV auxV p
        iEff := (ipsNotice usbV auxV vIn p).iEff
        sag := (ipsNotice usbV auxV vIn p).sag } := by
  by_cases h : selectedAt usbV auxV p = p.sel
  · by_cases hn : selectedAt usbV auxV p = none
    · rw [ipsNotice_none h hn, h]
      rfl
    · rw [ipsNotice_walks h hn, h]
      exact walkLimit_frame vIn _
  · rw [ipsNotice_selects h]

theorem floorOf_cast (p : Ips) (sel : Option Src) :
    (floorOf p sel : Int) = match sel with
      | none => 0
      | some .usb => (p.usbFloor : Int)
      | some .aux => (p.auxFloor : Int) := by
  obtain _ | _ | _ := sel <;> rfl

/-! ## The input stage (R147) -/

theorem higherInput_usb {c : Scn} (h : c.aux < c.usb) : higherInput c = .usb :=
  (if_neg (by omega)).trans (if_pos h)

theorem higherInput_aux {c : Scn} (h : c.usb < c.aux) : higherInput c = .aux := if_pos h

theorem inputStage_none (h : s.ips.sel = none) : inputStage s = ⟨higherInput s.scn, 100⟩ := by
  simp only [inputStage, h, startupCurrent]

/-! ## The exchange of V_IN and V_ALT (R73) -/

theorem slot1Source_getD (sel : Option Src) : slot1Source sel = sel.getD .usb := by cases sel <;> rfl

theorem exchange_inputs (sel : Option Src) (c : Scn) :
    let d := exchange sel c
    let source := sel.getD .usb
    d.slot1 = source ∧ d.usb = c.usb ∧ d.aux = c.aux ∧ (source = c.slot1 → d.vIn = c.vIn ∧ d.vAlt = c.vAlt) ∧
      (source ≠ c.slot1 → d.vIn = c.vAlt ∧ d.vAlt = c.vIn) := by
  simp only [exchange, slot1Source_getD]
  split
  · next h => exact ⟨h.symm, rfl, rfl, fun _ => ⟨rfl, rfl⟩, fun hn => absurd h hn⟩
  · next h => exact ⟨rfl, rfl, rfl, fun he => absurd he h, fun _ => ⟨rfl, rfl⟩⟩

/-! ## The round end -/

theorem roundEnd_ips (s : State) : (roundEnd s).ips = ipsNotice s.scn.usb s.scn.aux s.scn.vIn.latest s.ips := by
  simp [roundEnd, powerNotice]

theorem roundEnd_exchange (s : State) : (roundEnd s).scn = exchange (roundEnd s).ips.sel s.scn := by
  simp [roundEnd]

/-- R144: one INPUT event of a round end at which a presence or the selection has changed. -/
theorem roundEnd_inputEvent (s : State) :
    let t := roundEnd s
    let same := t.ips.usb.present = s.ips.usb.present ∧ t.ips.aux.present = s.ips.aux.present ∧ t.ips.sel = s.ips.sel
    (same → t.lnk.events.input = s.lnk.events.input) ∧
      (¬ same → s.lnk.recordMask.getLsbD 7 = true →
        t.lnk.events.input = countEvent s.lnk.events.input
          (.input t.ips.usb.present t.ips.aux.present s.ips.sel t.ips.sel t.ips.iEff s.now)) := by
  have hround : (roundEnd s).lnk.events.input = (powerNotice s).lnk.events.input :=
    chargerNotice_otherClass (k := .input) _ (by decide)
  simp only [hround, roundEnd_ips, powerNotice, inputEvent]
  refine ⟨fun hsame => ?_, fun hnew hm => ?_⟩
  · obtain ⟨husb, haux, hsel⟩ := hsame
    rw [if_pos ⟨husb.symm, haux.symm, hsel.symm⟩]
  · rw [if_neg fun ⟨husb, haux, hsel⟩ => hnew ⟨husb.symm, haux.symm, hsel.symm⟩]
    exact raise_recorded (d := .input ..) hm

/-- What the T_DIE conversion makes of the selector, the scan and the INPUT event: a change of the die zone, which comes
first, touches none of them. -/
theorem scanStep_roundEnd {z : Int} (h : s.scn.slot = 8) :
    let t := scanStep (.value z) s
    let same := t.ips.usb.present = s.ips.usb.present ∧ t.ips.aux.present = s.ips.aux.present ∧ t.ips.sel = s.ips.sel
    t.ips = ipsNotice s.scn.usb s.scn.aux s.scn.vIn.latest s.ips ∧
      t.scn = nextSlot (exchange t.ips.sel (dieReading (clampInt (-400) 1500 z) s.scn)) ∧
      (same → t.lnk.events.input = s.lnk.events.input) ∧
      (¬ same → s.lnk.recordMask.getLsbD 7 = true →
        t.lnk.events.input = countEvent s.lnk.events.input
          (.input t.ips.usb.present t.ips.aux.present s.ips.sel t.ips.sel t.ips.iEff s.now)) := by
  obtain ⟨w, hw⟩ : ∃ w, dieChanged (dieZone s.scn.die) (dieRead z s) = w := ⟨_, rfl⟩
  have hips : w.ips = s.ips := by simp [← hw, dieRead]
  have hscn : w.scn = dieReading (clampInt (-400) 1500 z) s.scn := by simp [← hw, dieRead]
  have hnow : w.now = s.now := by simp [← hw, dieRead]
  have hmask : w.lnk.recordMask = s.lnk.recordMask := by simp [← hw, dieRead]
  have hinput : w.lnk.events.input = s.lnk.events.input :=
    hw ▸ (dieChanged_otherClass (k := .input) _ _ (by decide)).trans
      (dieNoted_otherClass (k := .input) _ _ (by decide) (by decide))
  have hevent := roundEnd_inputEvent w
  have hnotice := roundEnd_ips w
  rw [hips, hinput, hmask, hnow] at hevent
  rw [hips, hscn] at hnotice
  rw [scanStep_die h, hw]
  exact ⟨hnotice, by rw [roundEnd_exchange, hscn], hevent⟩

/-- R146: I_EFF_RAISE's moment: the selection stands, the count is at its last and the voltage leaves the headroom, and
the count starts again. -/
theorem sagDone_iff (s t : State) :
    sagDone s t = true ↔
      t.ips.sel = s.ips.sel ∧ t.ips.sel ≠ none ∧ s.ips.sag = 31 ∧
        (floorOf s.ips t.ips.sel : Int) + 200 ≤ s.scn.vIn.latest ∧ t.ips.sag = 0 := by
  simp only [sagDone, Bool.and_eq_true, beq_iff_eq, decide_eq_true_eq, Option.isSome_iff_ne_none]
  constructor
  · rintro ⟨⟨⟨⟨hsag, hzero⟩, hsel⟩, hsome⟩, hv⟩
    exact ⟨hsel.symm, hsel ▸ hsome, hsag, hsel ▸ hv, hzero⟩
  · rintro ⟨hsel, hsome, hsag, hv, hzero⟩
    exact ⟨⟨⟨⟨hsag, hzero⟩, hsel.symm⟩, hsel ▸ hsome⟩, hsel ▸ hv⟩

/-! ## The obligation -/

theorem stepThat_ite {happens : State → State → Bool} {f : State → State} {q : Prop} [Decidable q]
    (h : happens s (f s) = true ↔ q) : stepThat happens f s = if q then f s else s :=
  if_congr h rfl rfl

/-- Settles O37: the selector's notice is said field by field (`ipsNotice_frame`, `ipsNotice_selects`, `ipsNotice_none`,
`ipsNotice_walks`), the scan follows it (`exchange_inputs`), and the rows named after a change are that conversion. -/
theorem roundEndSelectsInput : Obligations.RoundEndSelectsInput := by
  unfold Obligations.RoundEndSelectsInput
  refine ⟨fun u => ⟨fun src h => by simp only [inputStage, h], fun h => ?_⟩, ?_⟩
  · rw [inputStage_none h]
    exact ⟨rfl, higherInput_usb, higherInput_aux⟩
  intro z s ha hslot p presence usb aux sel limit floor v walk source
  have hpres (threshold v : Int) (x : Presence) : presenceNotice threshold v x = presence threshold v x :=
    presenceNotice_eq threshold v x
  have hsel : selectedAt s.scn.usb s.scn.aux p = sel := by
    rw [selectedAt, hpres, hpres, selectSource_eq]
  have hnoted : presencesNoted s.scn.usb s.scn.aux p = { p with usb := usb, aux := aux } := by
    rw [presencesNoted, hpres, hpres]
  have hfloor : (floorOf p sel : Int) = floor := floorOf_cast p sel
  obtain ⟨t, ht⟩ : ∃ t, scanStep (.value z) s = t := ⟨_, rfl⟩
  obtain ⟨hnotice, hscn, hquiet, hraised⟩ := scanStep_roundEnd (z := z) hslot
  rw [ht] at hnotice hscn hquiet hraised
  have hframe : t.ips = { p with usb := usb, aux := aux, sel := sel, iEff := t.ips.iEff, sag := t.ips.sag } := by
    have hframe := ipsNotice_frame s.scn.usb s.scn.aux v p
    rwa [← hnotice, hsel, hnoted] at hframe
  have husb : t.ips.usb = usb := congrArg Ips.usb hframe
  have haux : t.ips.aux = aux := congrArg Ips.aux hframe
  have htsel : t.ips.sel = sel := congrArg Ips.sel hframe
  have hwalk (h : sel = p.sel) (hn : sel ≠ none) : (t.ips.iEff, t.ips.sag) = walk := by
    rw [hnotice, ipsNotice_walks (hsel.trans h) (hsel.trans_ne hn)]
    exact walkLimit_moves (p := presencesNoted s.scn.usb s.scn.aux p) (h ▸ hfloor) (h ▸ rfl) v
  rw [husb, haux, htsel] at hquiet hraised
  obtain ⟨hslot1, hscnUsb, hscnAux, hstays, hmoves⟩ := exchange_inputs sel (dieReading (clampInt (-400) 1500 z) s.scn)
  have hrow {happens : State → State → Bool} {q : Prop} [Decidable q] (h : happens s t = true ↔ q) :
      whenUp s (stepThat (atRoundEnd happens) (scanStep (.value z))) = .next (if q then t else s) := by
    rw [whenUp_awake ha, stepThat_ite (q := q) (by simp [atRoundEnd, hslot, ht, h]), ht]
  rw [htsel] at hscn
  refine ⟨t, (whenUp_awake ha _).trans (congrArg _ ht), husb, haux, htsel, hframe, fun h => ?selects,
    fun h hn => ?none, hwalk, hquiet, hraised, hscn ▸ hslot1, hscn ▸ hscnUsb, hscn ▸ hscnAux, hscn ▸ hstays,
    hscn ▸ hmoves, hrow ?usbCame, hrow ?auxCame, hrow ?usbWent, hrow ?auxWent, hrow ?raised⟩
  case selects =>
    rw [hnotice, ipsNotice_selects (hsel.trans_ne h), hsel]
    exact ⟨rfl, rfl⟩
  case none =>
    rw [hnotice, ipsNotice_none (hsel.trans h) (hsel.trans hn)]
    exact ⟨rfl, rfl⟩
  case usbCame | auxCame => simp [sourceCame, presenceOf, husb, haux, p]
  case usbWent | auxWent => simp [sourceWent, presenceOf, husb, haux, p]
  case raised =>
    rw [sagDone_iff, htsel]
    refine ⟨fun ⟨hkept, hsome, hsag, hv, _⟩ => ⟨hkept, hsome, hsag, hfloor ▸ hv⟩,
      fun ⟨hkept, hsome, hsag, hv⟩ => ⟨hkept, hsome, hsag, hfloor ▸ hv, ?_⟩⟩
    have hlast : walk = (min limit (p.iEff + 50), 0) :=
      (if_neg (by omega)).trans ((if_neg (by omega)).trans (if_neg (by omega)))
    exact congrArg Prod.snd ((hwalk hkept hsome).trans hlast)

end Sys2Proof.Machine
end

section
/-! The card side after a change, the port settled: what a free port is granted to, and the header update queue. -/

namespace Sys2Proof.Machine

/-! ## Settling the port -/

/-- The law of the port holds where no emergency close runs and no UNMOUNT is held. -/
theorem portLaw_unheld {s : State} (hw : s.cwr.writer ≠ .emergencyClose) (hr : ∀ tag, s.lnk.req ≠ some (.unmount tag)) :
    PortLaw s := ⟨fun he => absurd he hw, fun tag ht => absurd ht (hr tag)⟩

/-- Outside READY no UNMOUNT is held. -/
theorem PortLaw.noUnmount {s : State} (h : PortLaw s) (hw : s.cwr.writer ≠ .ready) (tag : Byte) :
    s.lnk.req ≠ some (.unmount tag) := fun ht => hw (h.2 tag ht).1

/-- Everything off the card side stands from `s` to `t`. -/
def KeepsOffCard (s t : State) : Prop :=
  KeepsClock s t ∧ KeepsMotion s t ∧ KeepsPower s t ∧ t.adu = s.adu ∧ t.lnk = s.lnk

theorem KeepsOffCard.trans {s t u : State} (h : KeepsOffCard s t) (k : KeepsOffCard t u) : KeepsOffCard s u := by
  obtain ⟨⟨h1, h2, h3⟩, ⟨h4, h5, h6⟩, ⟨h7, h8, h9, h10⟩, h11, h12⟩ := h
  obtain ⟨⟨k1, k2, k3⟩, ⟨k4, k5, k6⟩, ⟨k7, k8, k9, k10⟩, k11, k12⟩ := k
  exact ⟨⟨k1.trans h1, k2.trans h2, k3.trans h3⟩, ⟨k4.trans h4, k5.trans h5, k6.trans h6⟩,
    ⟨k7.trans h7, k8.trans h8, k9.trans h9, k10.trans h10⟩, k11.trans h11, k12.trans h12⟩

/-- Under `PortLaw` settling the port leaves everything off the card side as it was. -/
theorem settle_offCard {s : State} (h : PortLaw s) : KeepsOffCard s (settle s) := by
  obtain ⟨-, hadu, hchg, hssv, hlnk⟩ := settle_keeps h
  obtain ⟨hnow, hmsu, hcsu, hctx, hscn, -, -, hips, -, -, -, -, -, -, -, -, -, hrst, hpending⟩ := settle_frame s
  exact ⟨⟨hnow, hrst, hpending⟩, ⟨hmsu, hcsu, hctx⟩, ⟨hscn, hips, hchg, hssv⟩, hadu, hlnk⟩

/-- Granting the port leaves the OPEN slot. -/
theorem KeepsCardButPort.openSlot_eq {s t : State} (h : KeepsCardButPort s t) : openSlot t = openSlot s := by
  obtain ⟨-, -, hentries, -⟩ := h
  exact SlotsAlike.openSlot_eq hentries

/-- Granting the port leaves what does not look at an entry's Queued field. -/
theorem KeepsCardButPort.entryAt_map {α : Type} {u t : State} (h : KeepsCardButPort u t) (f : Entry → α)
    (hf : ∀ e, f (unqueued e) = f e) (k : Nat) : (entryAt t k).map f = (entryAt u k).map f := by
  obtain ⟨-, -, hentries, -⟩ := h
  exact entryAt_congr hentries f hf k

/-- The card writer after what granting the port changes. -/
theorem KeepsCardButPort.cwr_eq {u t : State} {c : Cwr} (h : KeepsCardButPort u t) (hc : u.cwr = c) :
    t.cwr = { c with
      port := t.cwr.port
      run := t.cwr.run
      offUnit := t.cwr.offUnit
      offBlock := t.cwr.offBlock
      blockFirst := t.cwr.blockFirst } := by
  obtain ⟨-, -, -, hcwr⟩ := h
  exact hc ▸ hcwr

/-- Two states that show the same slots have the same OPEN slot. -/
theorem openSlot_congr {s t : State} (h : slotsOf t = slotsOf s) : openSlot t = openSlot s := by
  rw [openSlot_view, openSlot_view, h]

/-- R125: under `PortLaw`, on the free port of a writer that arbitrates, settling grants what the arbiter finds. -/
theorem settle_arbitrates {s : State} (h : PortLaw s) (hp : s.cwr.port = none)
    (ha : arbitrating s.cwr.writer = true) : ArbiterGrants s (settle s) := by
  have he : settle s = grantPort (refreshOffers s) := by simp [settle_eq h, hp, ha]
  exact he ▸ grantPort_grants s hp

/-- R114, R125: with the slot at the head of the queue needing its header written, the port goes to that. -/
theorem grantOf_update {g : Geometry} {u : State} {i : Nat} {rest : List Nat} (hq : u.sdr.queue = i :: rest)
    (hn : needsUpdate u i = true) : (grantOf g u).map Transfer.op = some (.headerUpdate i) := by
  obtain ⟨e, he⟩ := needsUpdate_entry hn
  simp [grantOf, nextUpdate, hq, hn, headerTransfer, he]

/-- The writer states in which a slot is being recorded or closed. -/
def Records (w : Writer) : Prop := w = .recording ∨ w = .rolling ∨ w = .stopping

theorem Records.arbitrating {w : Writer} (h : Records w) : arbitrating w = true := by
  obtain rfl | rfl | rfl := h <;> rfl

/-- A state in a recording, whose law of the port rests on that of `s`: no emergency close, and no UNMOUNT held. -/
theorem PortLaw.recording {s u : State} (h : PortLaw s) (hs : Records s.cwr.writer) (hw : u.cwr.writer = s.cwr.writer)
    (hl : u.lnk = s.lnk) : PortLaw u := by
  have hne : s.cwr.writer ≠ .emergencyClose ∧ s.cwr.writer ≠ .ready := by
    obtain hs | hs | hs := hs <;> simp [hs]
  exact portLaw_unheld (hw ▸ hne.1) (hl ▸ h.noUnmount hne.2)

/-- In a recording, a change of the card side from `s` to `u` that frees the port is settled by a grant, to what the
arbiter finds. -/
theorem recording_settles {s u : State} (h : PortLaw s) (hs : Records s.cwr.writer) (hk : KeepsOffCard s u)
    (hw : u.cwr.writer = s.cwr.writer) (hp : u.cwr.port = none) :
    KeepsOffCard s (settle u) ∧ KeepsCardButPort u (settle u) ∧ ArbiterGrants u (settle u) ∧
      ∀ v : State, v.sdr.queue = u.sdr.queue → v.cwr.run = u.cwr.run → v.cwr.offUnit = u.cwr.offUnit →
        v.cwr.offBlock = u.cwr.offBlock → v.cwr.blockFirst = u.cwr.blockFirst →
        ArbiterGrants (beforeGrant v (settle u)) (settle u) := by
  obtain ⟨-, -, -, -, hlnk⟩ := id hk
  have hu : PortLaw u := h.recording hs hw hlnk
  have ha : arbitrating u.cwr.writer = true := hw ▸ hs.arbitrating
  refine ⟨hk.trans (settle_offCard hu), (settle_keeps hu).1, settle_arbitrates hu hp ha,
    fun v hq hr ho hb hf => settle_grants hu hp ha hq hr ho hb hf rfl rfl rfl rfl rfl⟩

/-! ## Entries without their Queued fields -/

/-- An entry known but for its Queued field. -/
theorem entry_of_unqueued {s : State} {i : Nat} {e : Entry} (h : (entryAt s i).map unqueued = some (unqueued e)) :
    ∃ b, entryAt s i = some { e with queued := b } := by
  obtain ⟨x, hx, hxe⟩ := Option.map_eq_some_iff.mp h
  refine ⟨x.queued, hx.trans (congrArg some ?_)⟩
  calc x = { unqueued x with queued := x.queued } := rfl
    _ = { unqueued e with queued := x.queued } := by rw [hxe]
    _ = { e with queued := x.queued } := rfl

/-- The OPEN slot is OPEN. -/
theorem openSlot_opened {s : State} {i : Nat} {e : Entry} (ho : openSlot s = some i) (he : entryAt s i = some e) :
    e.st = .opened := by
  rw [openSlot_view] at ho
  obtain ⟨x, hx, hst⟩ := (isIn_view s .opened i).mp (Slots.slot_isIn ho)
  rw [he] at hx
  cases hx
  exact hst

/-! ## The header update queue (R113) -/

theorem enqueue_queue (i : Nat) (s : State) :
    (enqueue i s).sdr.queue = if i ∈ s.sdr.queue then s.sdr.queue else s.sdr.queue ++ [i] := by
  simp only [enqueue]
  split
  · rfl
  · simp

theorem enqueue_unqueued (i : Nat) (s : State) :
    (enqueue i s).sdr.entries.map unqueued = s.sdr.entries.map unqueued := by
  simp only [enqueue]
  split
  · rfl
  · exact modEntry_unqueued i (fun e => { e with queued := true }) (fun _ => rfl) s

end Sys2Proof.Machine
end

section
/-! O48: what the ring and the list offer, and the writes of them that complete (R86, R87, R92, R93, R123). -/

namespace Sys2Proof.Machine

/-! ## What is offered (R86, R92) -/

variable {s : State} {e : Entry} {g : Segment} {r : MotionRec} {segs : List Segment} {pend : List MotionRec}

theorem isClosing_entry {i : Nat} (h : entryAt s i = some e) : isClosing s i = decide (e.st = .closing) := by
  simp only [isClosing, h, beq_eq_decide]

/-- R86: the unit at the head, of as many bytes as a whole one. -/
theorem offeredUnit_whole (hs : s.cbf.segs = g :: segs) (he : entryAt s g.slot = some e) (hn : 65536 ≤ g.bytes.length) :
    offeredUnit s = some ⟨g.slot, e.streamBytes / 65536, 65536, decide (e.st = .closing ∧ g.bytes.length = 65536)⟩ := by
  simp only [offeredUnit, hs, if_pos hn, unitOffer, he, isClosing_entry he, beq_eq_decide, Bool.decide_and,
    eq_comm (a := 65536)]

/-- R86: what is left at the head, fewer bytes than a whole unit: the last unit of a CLOSING slot, else nothing yet. -/
theorem offeredUnit_rest (hs : s.cbf.segs = g :: segs) (he : entryAt s g.slot = some e) (hn : g.bytes.length < 65536) :
    offeredUnit s =
      if e.st = .closing then some ⟨g.slot, e.streamBytes / 65536, g.bytes.length, true⟩ else none := by
  simp only [offeredUnit, hs, if_neg (Nat.not_le.mpr hn), unitOffer, he, isClosing_entry he, beq_self_eq_true,
    Bool.and_true]
  by_cases hc : e.st = .closing <;> simp [hc]

theorem headRecords_eq (slot : Nat) : ∀ l : List MotionRec,
    headRecords slot l = (l.takeWhile fun x => x.slot == slot).length
  | [] => rfl
  | r :: rest => by
      by_cases h : r.slot = slot <;> simp [headRecords, h, headRecords_eq slot rest]

theorem pendingOf_eq_countP (slot : Nat) (l : List MotionRec) : pendingOf slot l = l.countP fun x => x.slot == slot :=
  List.countP_eq_length_filter.symm

/-- R92: the block at the head, of as many records as a whole one. -/
theorem offeredBlock_whole (hs : s.cbf.pend = r :: pend) (he : entryAt s r.slot = some e)
    (hn : 32 ≤ headRecords r.slot (r :: pend)) :
    offeredBlock s = some ⟨r.slot, e.motionRecords / 32, 32,
      decide (e.st = .closing ∧ pendingOf r.slot (r :: pend) = 32)⟩ := by
  simp only [offeredBlock, hs, if_pos hn, blockOffer, he, isClosing_entry he, beq_eq_decide, Bool.decide_and,
    eq_comm (a := 32)]

/-- R92: the records at the head, fewer than a whole block: a block of a CLOSING slot, else nothing yet. -/
theorem offeredBlock_rest (hs : s.cbf.pend = r :: pend) (he : entryAt s r.slot = some e)
    (hn : headRecords r.slot (r :: pend) < 32) :
    offeredBlock s = if e.st = .closing then
      some ⟨r.slot, e.motionRecords / 32, headRecords r.slot (r :: pend),
        decide (pendingOf r.slot (r :: pend) = headRecords r.slot (r :: pend))⟩ else none := by
  simp only [offeredBlock, hs, if_neg (Nat.not_le.mpr hn), blockOffer, he, isClosing_entry he, beq_eq_decide,
    eq_comm (a := headRecords _ _)]
  by_cases hc : e.st = .closing <;> simp [hc]

/-! ## What a completed write does to the card side (R87, R93, R123) -/

/-- R87: the real bytes leave the segment at the head of the ring. -/
theorem dropBytes_cons (n : Nat) (g : Segment) (rest : List Segment) :
    dropBytes n (g :: rest) = if g.bytes.length ≤ n then rest else ⟨g.slot, g.bytes.drop n⟩ :: rest := by
  simp only [dropBytes, List.length_drop, Nat.sub_eq_zero_iff_le]

theorem unitWritten_eq (i n : Nat) (s : State) :
    unitWritten i n s = { s with
      cbf := { s.cbf with segs := dropBytes n s.cbf.segs }
      sdr := { s.sdr with
        entries := rewritten i (fun e => { e with streamBytes := e.streamBytes + n }) s.sdr.entries } } :=
  modEntry_eq _ _ _

theorem blockWritten_eq (i n : Nat) (s : State) :
    blockWritten i n s = { s with
      cbf := { s.cbf with pend := s.cbf.pend.drop n }
      sdr := { s.sdr with
        entries := rewritten i (fun e => { e with motionRecords := e.motionRecords + n }) s.sdr.entries } } :=
  modEntry_eq _ _ _

/-- R123: of the card writer the count alone changes, and only for a unit of the OPEN slot. -/
theorem countUnit_cwr (i : Nat) (s : State) :
    (countUnit i s).cwr =
      { s.cwr with units := if openSlot s = some i then s.cwr.units + 1 else s.cwr.units } := by
  simp only [countUnit]
  split
  · split
    · simp
    · rfl
  · rfl

/-- R123: the sixteenth unit of the OPEN slot sends the slot into the header update queue. -/
theorem countUnit_queue (i : Nat) (s : State) :
    (countUnit i s).sdr.queue =
      if openSlot s = some i ∧ (s.cwr.units + 1) % 16 = 0 ∧ i ∉ s.sdr.queue then s.sdr.queue ++ [i]
      else s.sdr.queue := by
  by_cases ho : openSlot s = some i
  · by_cases hd : (s.cwr.units + 1) % 16 = 0
    · by_cases hq : i ∈ s.sdr.queue <;> simp [countUnit, ho, hd, hq, enqueue_queue]
    · simp [countUnit, ho, hd]
  · simp [countUnit, ho]

theorem countUnit_unqueued (i : Nat) (s : State) :
    (countUnit i s).sdr.entries.map unqueued = s.sdr.entries.map unqueued := by
  simp only [countUnit]
  split
  · split
    · exact enqueue_unqueued i _
    · rfl
  · rfl

/-- The unit of slot `i` under way is on card, with `n` real bytes; the port is not settled. -/
def unitOnCard (i n : Nat) (s : State) : State := countUnit i (unitTaken (unitWritten i n (setPort none s)))

/-- The block of slot `i` under way is on card, with `n` real records; the port is not settled. -/
def blockOnCard (i n : Nat) (s : State) : State := blockTaken (blockWritten i n (setPort none s))

theorem unitDone_eq (i n : Nat) (s : State) : unitDone i n s = settle (unitOnCard i n s) := rfl

theorem blockDone_eq (i n : Nat) (s : State) : blockDone i n s = settle (blockOnCard i n s) := rfl

/-- Counting a slot's stream bytes leaves the OPEN slot. -/
theorem openSlot_unitWritten (i n : Nat) (s : State) : openSlot (unitWritten i n s) = openSlot s :=
  openSlot_congr (slotsOf_modEntry i _ { s with cbf := { s.cbf with segs := dropBytes n s.cbf.segs } }
    fun _ => ⟨rfl, rfl⟩)

theorem unitOnCard_cwr (i n : Nat) (s : State) :
    (unitOnCard i n s).cwr = { s.cwr with
      port := none
      offUnit := false
      units := if openSlot s = some i then s.cwr.units + 1 else s.cwr.units } := by
  have ho : openSlot (unitTaken (unitWritten i n (setPort none s))) = openSlot s := openSlot_unitWritten i n _
  rw [unitOnCard, countUnit_cwr, ho, unitWritten_eq]
  rfl

theorem unitOnCard_cbf (i n : Nat) (s : State) :
    (unitOnCard i n s).cbf = { s.cbf with segs := dropBytes n s.cbf.segs } := by
  simp [unitOnCard, unitTaken, unitWritten_eq, setPort]

theorem unitOnCard_queue (i n : Nat) (s : State) :
    (unitOnCard i n s).sdr.queue =
      if openSlot s = some i ∧ (s.cwr.units + 1) % 16 = 0 ∧ i ∉ s.sdr.queue then s.sdr.queue ++ [i]
      else s.sdr.queue := by
  have ho : openSlot (unitTaken (unitWritten i n (setPort none s))) = openSlot s := openSlot_unitWritten i n _
  rw [unitOnCard, countUnit_queue, ho, unitWritten_eq]
  rfl

theorem unitOnCard_entry (i n j : Nat) (s : State) :
    (entryAt (unitOnCard i n s) j).map unqueued =
      (entryAt s j).map fun e => unqueued (if j = i then { e with streamBytes := e.streamBytes + n } else e) := by
  have hcount := entryAt_congr (countUnit_unqueued i (unitTaken (unitWritten i n (setPort none s)))) unqueued
    (fun _ => rfl) j
  rw [unitOnCard, hcount, unitWritten_eq]
  exact (congrArg (Option.map unqueued) (getElem?_rewritten ..)).trans (Option.map_map ..)

theorem unitOnCard_offCard (i n : Nat) (s : State) :
    KeepsOffCard s (unitOnCard i n s) ∧ (unitOnCard i n s).sdr.mark = s.sdr.mark ∧
      (unitOnCard i n s).sdr.geo = s.sdr.geo := by
  simp [unitOnCard, unitTaken, setPort, KeepsOffCard, KeepsClock, KeepsMotion, KeepsPower]

theorem blockOnCard_eq (i n : Nat) (s : State) :
    blockOnCard i n s = { s with
      cbf := { s.cbf with pend := s.cbf.pend.drop n }
      sdr := { s.sdr with
        entries := rewritten i (fun e => { e with motionRecords := e.motionRecords + n }) s.sdr.entries }
      cwr := { s.cwr with port := none, offBlock := false } } := by
  rw [blockOnCard, blockWritten_eq]
  rfl

/-- R114, R123: the checkpoint is what the arbiter finds to write when the unit is on card. -/
theorem unitDone_checkpoint {i n : Nat} {g : Geometry} (ho : openSlot s = some i) (hd : (s.cwr.units + 1) % 16 = 0)
    (he : entryAt s i = some e) (hw : e.headerWritten = true) (hq : s.sdr.queue = []) :
    (grantOf g (unitOnCard i n s)).map Transfer.op = some (.headerUpdate i) := by
  have hqueue : (unitOnCard i n s).sdr.queue = [i] := by
    rw [unitOnCard_queue, if_pos ⟨ho, hd, by simp [hq]⟩, hq]
    rfl
  refine grantOf_update hqueue ?_
  have hentry := unitOnCard_entry i n i s
  rw [he, Option.map_some, if_pos rfl] at hentry
  obtain ⟨b, hb⟩ := entry_of_unqueued hentry
  simp [needsUpdate, hb, hw, openSlot_opened ho he]

/-! ## The obligation -/

/-- R123: CHECKPOINT is the unit's completion where the unit is the sixteenth. -/
theorem execCheckpoint_of {i n : Nat} {t : State} (ha : Awake s) (hop : portOp s = some (.streamUnit i n))
    (ht : unitCompletion s = t) :
    exec .checkpoint s = .next (if openSlot s = some i ∧ (s.cwr.units + 1) % 16 = 0 then t else s) := by
  have hdue : checkpointDue s = true ↔ openSlot s = some i ∧ (s.cwr.units + 1) % 16 = 0 := by
    simp [checkpointDue, hop]
  exact (whenUp_awake ha _).trans (congrArg _ (ht ▸ if_congr hdue rfl rfl))

/-- One entry counts what the write has added to it, the others stand. -/
theorem entry_counted {i j : Nat} {f : Entry → Entry} (he : entryAt s i = some e) :
    ((entryAt s j).map fun x => unqueued (if j = i then f x else x)) =
      if j = i then some (unqueued (f e)) else (entryAt s j).map unqueued := by
  by_cases hj : j = i
  · subst hj
    simp [he]
  · simp [hj]

/-- Settles O48: a completed write is its part of the card side (`unitOnCard`, `blockOnCard`) and the settling of the
port, which in a recording grants it to what the arbiter finds. -/
theorem unitsAndBlocksComplete : Obligations.UnitsAndBlocksComplete := by
  unfold Obligations.UnitsAndBlocksComplete
  refine ⟨fun s => ⟨fun hs => by simp only [offeredUnit, hs], fun hp => by simp only [offeredBlock, hp], ?units,
    ?blocks⟩, ?completes⟩
  case units =>
    intro g rest e hs he
    exact ⟨offeredUnit_whole hs he, fun hn hc => (offeredUnit_rest hs he hn).trans (if_pos hc),
      fun hn hc => (offeredUnit_rest hs he hn).trans (if_neg hc)⟩
  case blocks =>
    intro r rest e hp he
    rw [← headRecords_eq, ← pendingOf_eq_countP]
    exact ⟨offeredBlock_whole hp he, fun hn hc => (offeredBlock_rest hp he hn).trans (if_pos hc),
      fun hn hc => (offeredBlock_rest hp he hn).trans (if_neg hc)⟩
  intro s x i n e ha hport hrec hx he frame
  refine ⟨fun hop => ?unit, fun hop => ?block⟩
  case unit =>
    intro due q'
    have hportOp : portOp s = some (.streamUnit i n) := by simp [portOp, hx, hop]
    have hdone : unitCompletion s = settle (unitOnCard i n s) := by simp only [unitCompletion, hportOp, unitDone_eq]
    obtain ⟨hoff, hmark, hgeo⟩ := unitOnCard_offCard i n s
    have hcwr := unitOnCard_cwr i n s
    obtain ⟨⟨kclock, kmotion, kpower, kadu, klnk⟩, hcard, hfinds, hgrants⟩ :=
      recording_settles hport hrec hoff (by rw [hcwr]) (by rw [hcwr])
    obtain ⟨kcbf, ksdr, -, kcwr⟩ := id hcard
    refine ⟨settle (unitOnCard i n s), (whenUp_awake ha _).trans (congrArg _ hdone),
      ⟨kclock, kmotion, kpower, kadu, klnk, by rw [kcwr, hcwr], by rw [ksdr, hmark], by rw [kcwr, hcwr]⟩,
      execCheckpoint_of ha hportOp hdone, fun g rest hs => ?ring, by rw [kcwr, hcwr], fun j => ?entries, ?due,
      hgrants _ (unitOnCard_queue i n s).symm (by rw [hcwr]) (by rw [hcwr]) (by rw [hcwr]) (by rw [hcwr])⟩
    case ring => rw [kcbf, unitOnCard_cbf, hs, dropBytes_cons]
    case entries => rw [hcard.entryAt_unqueued, unitOnCard_entry, entry_counted he]
    case due =>
      rintro ⟨ho, hd⟩ hregion hq hw
      obtain ⟨g, hg⟩ := Option.ne_none_iff_exists'.mp hregion
      rw [(hfinds g (hgeo.trans hg)).1]
      exact unitDone_checkpoint ho hd he hw hq
  case block =>
    have hportOp : portOp s = some (.motionBlock i n) := by simp [portOp, hx, hop]
    have heq := blockOnCard_eq i n s
    have hoff : KeepsOffCard s (blockOnCard i n s) := by
      rw [heq]
      exact ⟨⟨rfl, rfl, rfl⟩, ⟨rfl, rfl, rfl⟩, ⟨rfl, rfl, rfl, rfl⟩, rfl, rfl⟩
    obtain ⟨⟨kclock, kmotion, kpower, kadu, klnk⟩, hcard, -, hgrants⟩ :=
      recording_settles hport hrec hoff (by rw [heq]) (by rw [heq])
    obtain ⟨kcbf, ksdr, -, kcwr⟩ := id hcard
    refine ⟨settle (blockOnCard i n s), ?step,
      ⟨kclock, kmotion, kpower, kadu, klnk, by rw [kcwr, heq], by rw [ksdr, heq], by rw [kcwr, heq]⟩,
      by rw [kcbf, heq], by rw [kcwr, heq],
      hgrants _ (by rw [heq]) (by rw [heq]) (by rw [heq]) (by rw [heq]) (by rw [heq]), fun j => ?entries⟩
    case step =>
      show execBlockWriteDone s = _
      rw [execBlockWriteDone, whenUp_awake ha]
      simp only [hportOp, blockDone_eq]
    case entries =>
      have hentry : (entryAt (blockOnCard i n s) j).map unqueued =
          (entryAt s j).map fun x =>
            unqueued (if j = i then { x with motionRecords := x.motionRecords + n } else x) := by
        rw [heq]
        exact (congrArg (Option.map unqueued) (getElem?_rewritten ..)).trans (Option.map_map ..)
      rw [hcard.entryAt_unqueued, hentry, entry_counted he]

end Sys2Proof.Machine
end

section
/-! IMPACT locks applied to one slot (R110, R112): what the search for the lowest sequence finds, what the header update
queue takes, and the post-roll lock. -/

namespace Sys2Proof.Machine

variable {s u v : State} {es : List Entry} {cands want q q' q'' : List Nat} {i j k quota : Nat}

/-! ## Slots that join the queue (R113) -/

theorem enqueued_nothing {changed : Nat → Bool} (h : ∀ k, changed k = false) : Enqueued changed q q :=
  ⟨[], by simp, by simp, by simp [h]⟩

theorem enqueued_one (i : Nat) (q : List Nat) : Enqueued (· == i) q (if i ∈ q then q else q ++ [i]) := by
  by_cases hi : i ∈ q
  · refine ⟨[], by simp [hi], by simp, fun k => ?_⟩
    simp only [List.not_mem_nil, beq_iff_eq, false_iff]
    exact fun ⟨hk, hout⟩ => hout (hk ▸ hi)
  · refine ⟨[i], by simp [hi], by simp, fun k => ?_⟩
    simp only [List.mem_singleton, beq_iff_eq]
    exact ⟨fun h => ⟨h, h ▸ hi⟩, And.left⟩

/-- Two runs of slots that join one after the other. -/
theorem Enqueued.trans {a b : Nat → Bool} (h : Enqueued a q q') (k : Enqueued b q' q'') :
    Enqueued (fun i => a i || b i) q q'' := by
  obtain ⟨m, rfl, hm, hma⟩ := h
  obtain ⟨n, rfl, hn, hnb⟩ := k
  refine ⟨m ++ n, List.append_assoc .., List.nodup_append.mpr ⟨hm, hn, fun x hx y hy hxy => ?_⟩, fun i => ?_⟩
  · exact ((hnb y).mp hy).2 (hxy ▸ List.mem_append_right q hx)
  · have := hma i
    have := hnb i
    simp only [List.mem_append, Bool.or_eq_true] at *
    tauto

theorem Enqueued.congr {a b : Nat → Bool} (h : Enqueued a q q') (hab : ∀ k, a k = b k) : Enqueued b q q' :=
  funext hab ▸ h

/-! ## One slot's IMPACT -/

theorem hasImpact_eq (s : State) (i : Nat) : hasImpact s i = holdsImpact s.sdr.entries i := by
  simp only [hasImpact, holdsImpact, entryAt]
  cases s.sdr.entries[i]? <;> rfl

/-- An entry with its IMPACT at `b`. -/
def withImpact (b : Bool) (e : Entry) : Entry := { e with locks := { e.locks with impact := b } }

/-- The entries of `v` are those of `u`, but for their Queued fields, with IMPACT as `on` says. -/
def ImpactsAre (on : Nat → Bool) (u v : State) : Prop :=
  ∀ k, (entryAt v k).map unqueued = (entryAt u k).map fun e => unqueued (withImpact (on k) e)

/-- IMPACT as it stands. -/
theorem impactsAre_same (h : v.sdr.entries.map unqueued = u.sdr.entries.map unqueued) :
    ImpactsAre (holdsImpact u.sdr.entries) u v := by
  intro k
  rw [entryAt_congr h unqueued (fun _ => rfl) k]
  cases he : entryAt u k with
  | none => rfl
  | some e =>
      have hk : holdsImpact u.sdr.entries k = e.locks.impact := by
        simp only [holdsImpact, show u.sdr.entries[k]? = some e from he, Option.map_some, Option.getD_some]
      simp only [Option.map_some, hk]
      rfl

/-- IMPACT of one slot is set or cleared. -/
theorem impactsAre_setImpact (b : Bool) (i : Nat) (u : State)
    (h : v.sdr.entries.map unqueued = (setImpact b i u).sdr.entries.map unqueued) :
    ImpactsAre (fun k => if k = i then b else holdsImpact u.sdr.entries k) u v := by
  intro k
  have hset : entryAt (setImpact b i u) k = (entryAt u k).map fun e => if k = i then withImpact b e else e := by
    rw [setImpact, modEntry_eq]
    exact getElem?_rewritten ..
  rw [entryAt_congr h unqueued (fun _ => rfl) k, hset, Option.map_map]
  by_cases hk : k = i
  · simp only [hk, if_true]
    rfl
  · simp only [hk, if_false]
    exact impactsAre_same rfl k

theorem ImpactsAre.holds {on : Nat → Bool} (h : ImpactsAre on u v) (k : Nat) :
    holdsImpact v.sdr.entries k = (decide (k < u.sdr.entries.length) && on k) := by
  have hk := h k
  simp only [holdsImpact, entryAt] at hk ⊢
  cases he : u.sdr.entries[k]? with
  | none =>
      rw [he] at hk
      rw [Option.map_eq_none_iff.mp hk, decide_eq_false (by simpa using he)]
      rfl
  | some e =>
      rw [he] at hk
      obtain ⟨x, hx, hxe⟩ := Option.map_eq_some_iff.mp hk
      have hi : x.locks.impact = on k := congrArg (fun y => y.locks.impact) hxe
      rw [hx, decide_eq_true (List.getElem?_eq_some_iff.mp he).1]
      simp [hi]

theorem ImpactsAre.trans {on on' : Nat → Bool} {w : State} (h : ImpactsAre on u v) (k : ImpactsAre on' v w) :
    ImpactsAre on' u w := by
  intro i
  have hv := h i
  rw [k i]
  cases he : entryAt u i with
  | none =>
      rw [he] at hv
      rw [Option.map_eq_none_iff.mp hv]
  | some e =>
      rw [he] at hv
      obtain ⟨x, hx, hxe⟩ := Option.map_eq_some_iff.mp hv
      rw [hx, Option.map_some, Option.map_some]
      exact congrArg (fun y => some (withImpact (on' i) y)) hxe

theorem ImpactsAre.congr {on on' : Nat → Bool} (h : ImpactsAre on u v)
    (ho : ∀ k < u.sdr.entries.length, on k = on' k) : ImpactsAre on' u v := by
  intro k
  rw [h k]
  cases he : entryAt u k with
  | none => rfl
  | some e => rw [ho k (List.getElem?_eq_some_iff.mp he).1]

/-- R110: a lock sets IMPACT on its slot and sends the slot into the queue. -/
theorem lockSlot_impacts (i : Nat) (u : State) :
    ImpactsAre (fun k => if k = i then true else holdsImpact u.sdr.entries k) u (lockSlot i u) :=
  impactsAre_setImpact true i u (enqueue_unqueued i _)

theorem lockSlot_queue (i : Nat) (u : State) : Enqueued (· == i) u.sdr.queue (lockSlot i u).sdr.queue := by
  have hq : (setImpact true i u).sdr.queue = u.sdr.queue := by simp
  rw [lockSlot, enqueue_queue, hq]
  exact enqueued_one i u.sdr.queue

/-- R102, R110: a release clears IMPACT on its slot and sends the slot into the queue. -/
theorem releaseSlot_impacts (i : Nat) (u : State) :
    ImpactsAre (fun k => if k = i then false else holdsImpact u.sdr.entries k) u (releaseSlot i u) :=
  impactsAre_setImpact false i u (enqueue_unqueued i (raise (.slotReleased i) (setImpact false i u)))

theorem releaseSlot_queue (i : Nat) (u : State) : Enqueued (· == i) u.sdr.queue (releaseSlot i u).sdr.queue := by
  have hq : (raise (.slotReleased i) (setImpact false i u)).sdr.queue = u.sdr.queue := by simp
  rw [releaseSlot, enqueue_queue, hq]
  exact enqueued_one i u.sdr.queue

/-- R190: a release is an event of the class SLOT. -/
theorem releaseSlot_event (i : Nat) (h : u.lnk.recordMask.getLsbD 1 = true) :
    (releaseSlot i u).lnk.events.slot = countEvent u.lnk.events.slot (.slotReleased i) := by
  have hl : (releaseSlot i u).lnk = (raise (.slotReleased i) u).lnk := by simp [releaseSlot]
  rw [hl]
  exact raise_recorded (d := .slotReleased i) h

/-! ## The slot released (R110) -/

theorem mem_releasable : j ∈ releasable cands es ↔ holdsImpact es j = true ∧ j ∉ cands := by
  have hlt (h : holdsImpact es j = true) : j < es.length := by
    by_contra hge
    simp [holdsImpact, List.getElem?_eq_none (Nat.le_of_not_lt hge)] at h
  simp only [releasable, List.mem_filter, List.mem_range, Bool.and_eq_true, Bool.not_eq_true', List.contains_eq_mem,
    decide_eq_false_iff_not]
  exact ⟨And.right, fun h => ⟨hlt h.1, h⟩⟩

theorem holdsImpact_iff : holdsImpact es j = true ↔ ∃ e, es[j]? = some e ∧ e.locks.impact = true := by
  simp only [holdsImpact]
  cases es[j]? <;> simp

/-- Of entries that carry IMPACT, each with a sequence of its own, the search finds the first released, if any. -/
theorem lowestSeq_releasable (hs : LocksSequenced es) :
    (lowestSeq (fun j e => e.locks.impact && !cands.contains j) 0 es = none → releasable cands es = []) ∧
      ∀ p r, lowestSeq (fun j e => e.locks.impact && !cands.contains j) 0 es = some (p, r) →
        r ∈ releasable cands es ∧ ∀ k, amongLowest 1 (releasable cands es) es k = (k == r) := by
  obtain ⟨hnumbered, hdistinct⟩ := hs
  obtain ⟨hnone, hsome⟩ := lowestSeq_spec (fun j e => e.locks.impact && !cands.contains j) es 0
  have numbered {k : Nat} (hk : k ∈ releasable cands es) :
      ∃ e q, es[k]? = some e ∧ e.sequence = some q ∧ seqAt es k = q ∧ (e.locks.impact && !cands.contains k) = true := by
    obtain ⟨hh, hc⟩ := mem_releasable.mp hk
    obtain ⟨e, he, hi⟩ := holdsImpact_iff.mp hh
    obtain ⟨q, hq⟩ := Option.ne_none_iff_exists'.mp (hnumbered e (List.mem_of_getElem? he) hi)
    exact ⟨e, q, he, hq, by simp [seqAt, he, hq], by simp [hi, hc]⟩
  refine ⟨fun h => List.eq_nil_iff_forall_not_mem.mpr fun k hk => ?_, fun p r h => ?_⟩
  · obtain ⟨e, q, he, hq, -, hp⟩ := numbered hk
    have := hnone h k e q he hq
    rw [Nat.zero_add] at this
    exact Bool.noConfusion (hp.symm.trans this)
  · obtain ⟨i, e, rfl, he, hq, hp, hfirst⟩ := hsome p r h
    rw [Nat.zero_add] at hp ⊢
    have hseq : seqAt es i = p := by simp [seqAt, he, hq]
    have hmem : i ∈ releasable cands es := by
      simp only [Bool.and_eq_true, Bool.not_eq_true', List.contains_eq_mem, decide_eq_false_iff_not] at hp
      exact mem_releasable.mpr ⟨holdsImpact_iff.mpr ⟨e, he, hp.1⟩, hp.2⟩
    have hleast {k : Nat} (hk : k ∈ releasable cands es) : seqAt es i ≤ seqAt es k := by
      obtain ⟨x, r, hx, hr, hseqk, hpk⟩ := numbered hk
      rw [hseq, hseqk]
      exact hfirst k x r hx hr (by rwa [Nat.zero_add])
    refine ⟨hmem, fun k => ?_⟩
    rw [Bool.eq_iff_iff]
    simp only [amongLowest, Bool.and_eq_true, List.contains_eq_mem, decide_eq_true_eq, Nat.lt_one_iff,
      List.countP_eq_zero, Nat.not_lt, beq_iff_eq]
    constructor
    · rintro ⟨hk, hbelow⟩
      exact hdistinct k i (mem_releasable.mp hk).1 (mem_releasable.mp hmem).1
        (Nat.le_antisymm (hbelow i hmem) (hleast hk))
    · rintro rfl
      exact ⟨hmem, fun k hk => hleast hk⟩

/-! ## Locks applied (R110) -/

/-- R110: IMPACT has been applied to the slots of `want` from `u` to `v`, for an impact with the candidates `cands`: the
entries' locks, the releases' events and the slots that joined the queue. -/
structure LocksApplied (cands want : List Nat) (u v : State) : Prop where
  impacts : ImpactsAre (impactAfter (quotaOf u) cands want u.sdr.entries) u v
  events : u.lnk.recordMask.getLsbD 1 = true →
    ReleasesReported (releaseCount (quotaOf u) cands want u.sdr.entries) (releasable cands u.sdr.entries) u.sdr.entries
      u.lnk.events.slot v.lnk.events.slot
  queue : Enqueued
    (fun k => impactAfter (quotaOf u) cands want u.sdr.entries k != holdsImpact u.sdr.entries k)
    u.sdr.queue v.sdr.queue

theorem amongLowest_zero (js : List Nat) (es : List Entry) (k : Nat) : amongLowest 0 js es k = false := by
  simp [amongLowest]

/-- Where none is locked none is released, and IMPACT stands. -/
theorem impactAfter_unlocked (h : lockCount quota cands want es = 0) :
    releaseCount quota cands want es = 0 ∧ ∀ k, impactAfter quota cands want es k = holdsImpact es k := by
  have hr : releaseCount quota cands want es = 0 := by simp [releaseCount, h]
  refine ⟨hr, fun k => ?_⟩
  simp [impactAfter, hr, h, amongLowest_zero]

theorem locksApplied_nothing (h : lockCount (quotaOf u) cands want u.sdr.entries = 0) :
    LocksApplied cands want u u := by
  obtain ⟨hr, hon⟩ := impactAfter_unlocked h
  refine ⟨(impactsAre_same rfl).congr fun k _ => (hon k).symm, fun _ => ?_, enqueued_nothing fun k => by simp [hon k]⟩
  exact ⟨fun _ => rfl, fun hpos => absurd (hr ▸ hpos) (Nat.lt_irrefl 0)⟩

/-- How many locks one slot that has none takes. -/
theorem lockCount_one (hj : holdsImpact es j = false) :
    lockCount quota cands [j] es =
      if quota = 0 then 0 else min 1 (quota - impactLocks es + (releasable cands es).length) := by
  simp [lockCount, notLocked, hj]

/-- IMPACT after one slot has been locked, the lowest being released where the quota has no room. -/
theorem impactAfter_locked (hj : holdsImpact es j = false) (h : lockCount quota cands [j] es = 1) (k : Nat) :
    impactAfter quota cands [j] es k =
      (holdsImpact es k && !amongLowest (1 - (quota - impactLocks es)) (releasable cands es) es k || k == j) := by
  have hn : notLocked [j] es = [j] := by simp [notLocked, hj]
  rw [impactAfter, releaseCount, h, hn, show List.take 1 [j] = [j] from rfl, List.contains_eq_mem]
  simp [beq_eq_decide]

/-- R110: a lock on one slot that the quota has room for. -/
theorem locksApplied_room (hj : holdsImpact u.sdr.entries j = false)
    (hroom : impactLocks u.sdr.entries < quotaOf u) : LocksApplied cands [j] u (lockSlot j u) := by
  have hcount : lockCount (quotaOf u) cands [j] u.sdr.entries = 1 := by
    rw [lockCount_one hj, if_neg (by omega)]
    omega
  have hrelease : 1 - (quotaOf u - impactLocks u.sdr.entries) = 0 := by omega
  have hon (k : Nat) : impactAfter (quotaOf u) cands [j] u.sdr.entries k =
      (holdsImpact u.sdr.entries k || k == j) := by
    rw [impactAfter_locked hj hcount, hrelease, amongLowest_zero, Bool.not_false, Bool.and_true]
  refine ⟨(lockSlot_impacts j u).congr fun k _ => ?_, fun _ => ?_, (lockSlot_queue j u).congr fun k => ?_⟩
  · rw [hon]
    by_cases hk : k = j <;> simp [hk]
  · have hlnk : (lockSlot j u).lnk = u.lnk := by simp
    rw [releaseCount, hcount, hrelease, hlnk]
    exact ⟨fun _ => rfl, fun h => absurd h (Nat.lt_irrefl 0)⟩
  · rw [hon]
    by_cases hk : k = j <;> simp [beq_eq_decide, hk, hj]

/-- R110: a lock on one slot that the slot `r` is released for. -/
theorem locksApplied_release {p r : Nat} (hj : holdsImpact u.sdr.entries j = false)
    (hc : j ∈ cands) (hs : LocksSequenced u.sdr.entries) (hq : quotaOf u ≠ 0)
    (hfull : ¬ impactLocks u.sdr.entries < quotaOf u)
    (hlow : lowestSeq (fun j e => e.locks.impact && !cands.contains j) 0 u.sdr.entries = some (p, r)) :
    LocksApplied cands [j] u (lockSlot j (releaseSlot r u)) := by
  obtain ⟨hmem, hlowest⟩ := (lowestSeq_releasable hs).2 p r hlow
  obtain ⟨hr, hrc⟩ := mem_releasable.mp hmem
  have hne : j ≠ r := fun h => hrc (h ▸ hc)
  have hsome : 0 < (releasable cands u.sdr.entries).length := List.length_pos_of_mem hmem
  have hcount : lockCount (quotaOf u) cands [j] u.sdr.entries = 1 := by
    rw [lockCount_one hj, if_neg hq]
    omega
  have hrelease : 1 - (quotaOf u - impactLocks u.sdr.entries) = 1 := by omega
  have hon (k : Nat) : impactAfter (quotaOf u) cands [j] u.sdr.entries k =
      (holdsImpact u.sdr.entries k && !(k == r) || k == j) := by
    rw [impactAfter_locked hj hcount, hrelease, hlowest]
  refine ⟨((releaseSlot_impacts r u).trans (lockSlot_impacts j _)).congr fun k hk => ?_, fun hm => ?_,
    ((releaseSlot_queue r u).trans (lockSlot_queue j _)).congr fun k => ?_⟩
  · rw [hon, (releaseSlot_impacts r u).holds, decide_eq_true hk]
    by_cases hkj : k = j <;> by_cases hkr : k = r <;> simp [beq_eq_decide, hkj, hkr]
  · have hevent : (lockSlot j (releaseSlot r u)).lnk.events.slot = countEvent u.lnk.events.slot (.slotReleased r) := by
      rw [← releaseSlot_event r hm]
      simp
    rw [releaseCount, hcount, hrelease, hevent]
    refine ⟨fun h => absurd h Nat.one_ne_zero, fun _ => ⟨rfl, r, rfl, ?_, amongLowest_zero ..⟩⟩
    rw [hlowest, beq_self_eq_true]
  · rw [hon]
    by_cases hkj : k = j
    · simp [hkj, hj]
    · by_cases hkr : k = r <;> simp [beq_eq_decide, hkj, hkr, hr, hne.symm]

/-- R110: the lock of one slot without IMPACT that is a candidate itself. -/
theorem lockList_one (hj : holdsImpact u.sdr.entries j = false) (hc : j ∈ cands)
    (hs : LocksSequenced u.sdr.entries) : LocksApplied cands [j] u (lockList cands [j] u) := by
  have hnot : ¬ hasImpact u j = true := by simp [hasImpact_eq, hj]
  simp only [lockList, if_neg hnot]
  split
  · next hq => exact locksApplied_nothing (by rw [lockCount_one hj, if_pos hq])
  · next hq =>
    split
    · next hroom => exact locksApplied_room hj hroom
    · next hfull =>
      split
      · next hlow =>
        have hnone := (lowestSeq_releasable hs).1 hlow
        refine locksApplied_nothing ?_
        rw [lockCount_one hj, if_neg hq, hnone, List.length_nil]
        omega
      · next p r hlow => exact locksApplied_release hj hc hs hq hfull hlow

/-! ## The post-roll lock (R112) -/

/-- R112: the post-roll mark, while its post-roll time lasts. -/
def markInForce (s : State) : Option Mark :=
  s.sdr.mark.filter fun m => decide ((s.now - m.time).toNat < m.post * 4096)

/-- R112: the candidates of the mark in force and the slot opened; none without one. -/
def postRollCands (j : Nat) (s : State) : List Nat := ((markInForce s).map fun m => m.candidates ++ [j]).getD []

/-- R112: the slot opened is to be locked under a mark in force. -/
def postRollWant (j : Nat) (s : State) : List Nat := if markInForce s = none then [] else [j]

theorem postRoll_mark (j : Nat) (s : State) : (postRoll j s).sdr.mark = none := by
  simp only [postRoll]
  split
  · assumption
  · (repeat' split) <;> simp

/-- R112: with no mark in force the mark becomes none, and no more. -/
theorem postRoll_expired (h : markInForce s = none) (j : Nat) :
    postRoll j s = { s with sdr := { s.sdr with mark := none } } := by
  cases hm : s.sdr.mark with
  | none =>
      simp only [postRoll, hm]
      rw [← hm]
  | some m =>
      have hlate : ¬ since s.now m.time < m.post * 4096 := by
        simpa [markInForce, hm, Option.filter, since] using h
      simp only [postRoll, hm, if_neg hlate]

/-- R112: under a mark in force the slot opened is locked, with SLOT(locked) where it then carries IMPACT. -/
theorem postRoll_inForce {m : Mark} (h : markInForce s = some m) (j : Nat) :
    let v := lockList (m.candidates ++ [j]) [j] { s with sdr := { s.sdr with mark := none } }
    postRoll j s = if hasImpact v j then raise (.slotLocked j m.time) v else v := by
  obtain ⟨hm, hlasts⟩ := Option.filter_eq_some_iff.mp h
  have hsince : since s.now m.time < m.post * 4096 := of_decide_eq_true hlasts
  simp only [postRoll, hm, if_pos hsince]

/-- R112: the lock of a slot just opened, on which no IMPACT stands; `v` is what the locks leave before SLOT(locked). -/
theorem postRoll_locks (hlen : j < s.sdr.entries.length) (hj : holdsImpact s.sdr.entries j = false)
    (h : markInForce s = none ∨ LocksSequenced s.sdr.entries) :
    ∃ v, LocksApplied (postRollCands j s) (postRollWant j s) s v ∧ (postRoll j s).sdr = v.sdr ∧
      (s.lnk.recordMask.getLsbD 1 = true →
        let on := impactAfter (quotaOf s) (postRollCands j s) (postRollWant j s) s.sdr.entries j
        (∀ m, markInForce s = some m → on = true →
          (postRoll j s).lnk.events.slot = countEvent v.lnk.events.slot (.slotLocked j m.time)) ∧
        (markInForce s = none ∨ on = false → (postRoll j s).lnk.events.slot = v.lnk.events.slot)) := by
  cases hm : markInForce s with
  | none =>
      have hcount : lockCount (quotaOf s) (postRollCands j s) (postRollWant j s) s.sdr.entries = 0 := by
        simp [postRollWant, hm, lockCount, notLocked]
      obtain ⟨himpacts, hevents, hqueue⟩ := locksApplied_nothing hcount
      refine ⟨{ s with sdr := { s.sdr with mark := none } }, ⟨himpacts, hevents, hqueue⟩, ?_, fun _ => ?_⟩
      · rw [postRoll_expired hm]
      · rw [postRoll_expired hm]
        exact ⟨fun _ h => (Option.some_ne_none _ h.symm).elim, fun _ => rfl⟩
  | some m =>
      have hs : LocksSequenced s.sdr.entries := h.resolve_left (by simp [hm])
      have hcands : postRollCands j s = m.candidates ++ [j] := by simp [postRollCands, hm]
      have hwant : postRollWant j s = [j] := by simp [postRollWant, hm]
      have hroll := postRoll_inForce hm j
      obtain ⟨u, hu⟩ : ∃ u : State, { s with sdr := { s.sdr with mark := none } } = u := ⟨_, rfl⟩
      have hlocks : LocksApplied (m.candidates ++ [j]) [j] s (lockList (m.candidates ++ [j]) [j] u) := by
        subst hu
        obtain ⟨himpacts, hevents, hqueue⟩ := lockList_one (u := { s with sdr := { s.sdr with mark := none } })
          (cands := m.candidates ++ [j]) hj (by simp) hs
        exact ⟨himpacts, hevents, hqueue⟩
      have hmask : (lockList (m.candidates ++ [j]) [j] u).lnk.recordMask = s.lnk.recordMask := by simp [← hu]
      rw [hu] at hroll
      generalize lockList (m.candidates ++ [j]) [j] u = v at hlocks hroll hmask
      have hon : hasImpact v j = impactAfter (quotaOf s) (m.candidates ++ [j]) [j] s.sdr.entries j := by
        rw [hasImpact_eq, hlocks.impacts.holds, decide_eq_true hlen, Bool.true_and]
      rw [hcands, hwant, ← hon]
      refine ⟨v, hlocks, ?_, fun hrec => ?_⟩
      · rw [hroll]
        split <;> rfl
      · rw [hroll]
        by_cases hv : hasImpact v j = true
        · simp only [hv, if_true]
          refine ⟨fun m' h' _ => ?_, fun hn => by simp at hn⟩
          cases h'
          exact raise_recorded (d := .slotLocked j m.time) (hmask ▸ hrec)
        · simp only [hv]
          exact ⟨fun _ _ hf => absurd hf Bool.false_ne_true, fun _ => rfl⟩

end Sys2Proof.Machine
end

section
/-! What an accepted payload does to the card side (R84, R85): the ring's segments, the slots closed and opened. -/

namespace Sys2Proof.Machine

variable {s u : State} {e : Entry} {i j k n q : Nat} {bytes head rest : List Byte} {segs : List Segment} {tag : Byte}

/-! ## The ring (R81, R84) -/

/-- The bytes the ring holds for a slot, oldest first. -/
def heldBytes (i : Nat) (segs : List Segment) : List Byte := (segs.filter fun g => g.slot == i).flatMap Segment.bytes

/-- R84: bytes that join one slot's segment leave the other slots' segments. -/
theorem filter_appendSeg_other (h : k ≠ i) (bytes : List Byte) : ∀ segs : List Segment,
    (appendSeg i bytes segs).filter (fun g => g.slot == k) = segs.filter fun g => g.slot == k
  | [] => by
      simp only [appendSeg]
      split
      · rfl
      · simp [Ne.symm h]
  | g :: rest => by
      simp only [appendSeg]
      split
      · next hg => simp [hg, Ne.symm h]
      · simp only [List.filter_cons, filter_appendSeg_other h bytes rest]

theorem heldBytes_appendSeg_other (h : k ≠ i) (bytes : List Byte) (segs : List Segment) :
    heldBytes k (appendSeg i bytes segs) = heldBytes k segs := by
  rw [heldBytes, filter_appendSeg_other h, heldBytes]

theorem countP_appendSeg_other (h : k ≠ i) (bytes : List Byte) (segs : List Segment) :
    (appendSeg i bytes segs).countP (fun g => g.slot == k) = segs.countP fun g => g.slot == k := by
  rw [List.countP_eq_length_filter, filter_appendSeg_other h, ← List.countP_eq_length_filter]

/-- R84: bytes join the end of what the ring holds for their slot, in its one segment. -/
theorem heldBytes_appendSeg_self (i : Nat) (bytes : List Byte) : ∀ segs : List Segment,
    segs.countP (fun g => g.slot == i) ≤ 1 → heldBytes i (appendSeg i bytes segs) = heldBytes i segs ++ bytes
  | [], _ => by
      simp only [appendSeg]
      split
      · next h => simp [h, heldBytes]
      · simp [heldBytes]
  | g :: rest, h => by
      simp only [appendSeg]
      split
      · next hg =>
        have hnone : rest.filter (fun g => g.slot == i) = [] := by
          rw [List.countP_cons, if_pos (beq_iff_eq.mpr hg)] at h
          exact List.length_eq_zero_iff.mp (by rw [← List.countP_eq_length_filter]; omega)
        simp [heldBytes, hg, hnone]
      · next hg =>
        rw [List.countP_cons, if_neg (by simp [hg])] at h
        have ih := heldBytes_appendSeg_self i bytes rest h
        simp only [heldBytes] at ih ⊢
        simp [hg, ih]

/-! ## The payload taken (R83 to R85) -/

theorem dataFits_iff (n : Nat) (s : State) :
    dataFits n s = true ↔
      n ≤ 4194304 - fillOf s.cbf.segs ∧ (closingSlot s = none ∨ s.cbf.assigned + n < slotCapacity s) := by
  rw [dataFits, Bool.and_eq_true, Bool.or_eq_true, decide_eq_true_iff, decide_eq_true_iff, Option.isNone_iff_eq_none]
  rfl

/-- R84: a payload that ends short of the capacity. -/
theorem acceptData_joins (i : Nat) (h : s.cbf.assigned + bytes.length < slotCapacity s) :
    acceptData i bytes s = (assign i bytes s, bytes.length) := by
  have htake : bytes.take (slotCapacity s - s.cbf.assigned) = bytes := List.take_of_length_le (by omega)
  have hshort : ¬ slotCapacity (assign i bytes s) ≤ (assign i bytes s).cbf.assigned := Nat.not_le.mpr h
  simp only [acceptData, htake, if_neg hshort]

/-- R85: a payload that reaches the capacity. -/
theorem acceptData_crosses (i : Nat) (hroom : s.cbf.assigned < slotCapacity s)
    (h : slotCapacity s ≤ s.cbf.assigned + bytes.length) :
    let room := slotCapacity s - s.cbf.assigned
    let r := crossing i (bytes.drop room) (assign i (bytes.take room) s)
    acceptData i bytes s = (r.1, room + r.2) := by
  intro room r
  have hlen : (bytes.take room).length = room := by
    rw [List.length_take]
    omega
  have hfull : slotCapacity (assign i (bytes.take room) s) ≤ (assign i (bytes.take room) s).cbf.assigned := by
    show slotCapacity s ≤ s.cbf.assigned + (bytes.take room).length
    omega
  simp only [acceptData, if_pos hfull, hlen, room, r]

/-! ## The crossing (R85) -/

/-- R85, 1: slot `i` has taken its last bytes and is CLOSING. -/
def filledSlot (i : Nat) (head : List Byte) (s : State) : State := setSlotState .closing i (assign i head s)

theorem filledSlot_eq (i : Nat) (head : List Byte) (s : State) :
    filledSlot i head s = { s with
      cbf := { s.cbf with
        segs := appendSeg i head s.cbf.segs
        assigned := s.cbf.assigned + head.length }
      sdr := { s.sdr with entries := rewritten i (fun e => { e with st := .closing }) s.sdr.entries } } :=
  modEntry_eq _ _ _

/-- The choice of the next slot reads the directory alone. -/
theorem chooseSlot_filledSlot (i : Nat) (head : List Byte) (s : State) :
    chooseSlot (filledSlot i head s) = chooseSlot (setSlotState .closing i s) := by
  have hsdr : (filledSlot i head s).sdr = (setSlotState .closing i s).sdr := by
    rw [filledSlot_eq, setSlotState, modEntry_eq]
  simp only [chooseSlot, hsdr]

/-- R101: a slot is chosen only while there is a next sequence. -/
theorem chooseSlot_nextSeq (h : chooseSlot s = some j) : ∃ q, s.sdr.nextSeq = some q := by
  cases hq : s.sdr.nextSeq with
  | none => simp [chooseSlot, hq] at h
  | some q => exact ⟨q, rfl⟩

/-- R85, 2 and 3: a payload that reaches the capacity, with a slot to choose, is taken whole. -/
theorem acceptData_to (hroom : s.cbf.assigned < slotCapacity s) (h : slotCapacity s ≤ s.cbf.assigned + bytes.length)
    (hc : chooseSlot (setSlotState .closing i s) = some j) (hq : s.sdr.nextSeq = some q) :
    let room := slotCapacity s - s.cbf.assigned
    acceptData i bytes s = (crossTo j q (bytes.drop room) (filledSlot i (bytes.take room) s), bytes.length) := by
  intro room
  have hchoice := (chooseSlot_filledSlot i (bytes.take room) s).trans hc
  have hseq : (filledSlot i (bytes.take room) s).sdr.nextSeq = some q := by rw [filledSlot_eq]; exact hq
  have hcross : crossing i (bytes.drop room) (assign i (bytes.take room) s) =
      (crossTo j q (bytes.drop room) (filledSlot i (bytes.take room) s), (bytes.drop room).length) := by
    rw [filledSlot] at hchoice hseq
    simp only [crossing, hchoice, hseq, filledSlot]
  have htaken : room + (bytes.drop room).length = bytes.length := by
    rw [List.length_drop]
    omega
  rw [acceptData_crosses i hroom h, hcross, htaken]

/-- R85, 4: with no slot to choose only what fills the slot is taken. -/
theorem acceptData_nowhere (hroom : s.cbf.assigned < slotCapacity s)
    (h : slotCapacity s ≤ s.cbf.assigned + bytes.length) (hc : chooseSlot (setSlotState .closing i s) = none) :
    let room := slotCapacity s - s.cbf.assigned
    acceptData i bytes s = (crossNowhere i (bytes.drop room) (filledSlot i (bytes.take room) s), room) := by
  intro room
  have hchoice := (chooseSlot_filledSlot i (bytes.take room) s).trans hc
  have hcross : crossing i (bytes.drop room) (assign i (bytes.take room) s) =
      (crossNowhere i (bytes.drop room) (filledSlot i (bytes.take room) s), 0) := by
    rw [filledSlot] at hchoice
    simp only [crossing, hchoice, filledSlot]
  rw [acceptData_crosses i hroom h, hcross, Nat.add_zero]

/-- R107, R138: with no request held the cursor alone is touched, and marked stale when it is on the slot. -/
theorem staleCursor_unheld (hr : s.lnk.req = none) (j : Nat) :
    staleCursor j s = { s with cwr := { s.cwr with
      cursor := s.cwr.cursor.map fun c => { c with stale := c.stale || c.slot == j } } } := by
  cases hc : s.cwr.cursor with
  | none =>
      simp only [staleCursor, hc, hr, Option.map_none]
      rw [← hc]
  | some c =>
      by_cases hj : c.slot = j
      · simp [staleCursor, hc, hr, hj]
      · simp only [staleCursor, hc, if_neg hj, hr, Option.map_some, beq_eq_false_iff_ne.mpr hj, Bool.or_false]
        rw [← hc]

theorem resetEntry_unheld (hr : s.lnk.req = none) (j q recId : Nat) :
    resetEntry j q recId s = { s with
      sdr := { s.sdr with
        entries := rewritten j (openedEntry q recId s.now) s.sdr.entries
        nextSeq := seqAfter q }
      cwr := { s.cwr with
        cursor := s.cwr.cursor.map fun c => { c with stale := c.stale || c.slot == j } } } := by
  rw [resetEntry, modEntry_eq, staleCursor_unheld (by exact hr)]

/-- R85, 2: slot `j` has opened with sequence `q` and the writer is ROLLING; the post-roll lock is still to come. -/
def rolledInto (j q : Nat) (s : State) : State :=
  let u := openTheSlot j q (s.cwr.recId.getD 0) s
  setWriter .rolling { u with cwr := { u.cwr with closeReason := some .full } }

theorem crossTo_eq (j q : Nat) (rest : List Byte) (s : State) :
    crossTo j q rest s = assign j rest (postRoll j (rolledInto j q s)) := rfl

theorem rolledInto_eq (hr : s.lnk.req = none) (j q : Nat) :
    rolledInto j q s = { s with
      cbf := { s.cbf with assigned := 0, admitted := setAdmitted j 0 s.cbf.admitted }
      sdr := { s.sdr with
        entries := rewritten j (openedEntry q (s.cwr.recId.getD 0) s.now) s.sdr.entries
        nextSeq := seqAfter q }
      cwr := { s.cwr with
        writer := .rolling
        closeReason := some .full
        units := 0
        lastSlot := some j
        cursor := s.cwr.cursor.map fun c => { c with stale := c.stale || c.slot == j } } } := by
  rw [rolledInto, openTheSlot, resetEntry_unheld hr]
  rfl

/-- R85, 4: slot `i` is CLOSING with no slot opened, the writer is STOPPING and the remainder counts as lost. -/
theorem crossNowhere_eq (i : Nat) (head rest : List Byte) (s : State) :
    crossNowhere i rest (filledSlot i head s) = { s with
      cbf := { s.cbf with
        segs := appendSeg i head s.cbf.segs
        assigned := s.cbf.assigned + head.length }
      sdr := { s.sdr with
        entries := rewritten i (fun e => { e with lostBytes := min 4294967295 (e.lostBytes + rest.length) })
          (rewritten i (fun e => { e with st := .closing }) s.sdr.entries)
        mark := none }
      cwr := { s.cwr with writer := .stopping, closeReason := some .noSlot, stopMark := none } } := by
  simp only [crossNowhere, addLost, modEntry_eq, filledSlot_eq]
  rfl

/-! ## The reply, and the settling after it (R82, R125) -/

theorem exec_data (h : Takes s) (tag : Byte) (bytes : List Byte) :
    exec (.data tag bytes) s = .next (dataReq tag bytes s) :=
  takeReq_takes h _

/-- R82: without a slot being recorded a payload is STATE. -/
theorem dataReq_state (hn : 1 ≤ bytes.length ∧ bytes.length ≤ 16384)
    (h : (s.cwr.writer ≠ .recording ∧ s.cwr.writer ≠ .rolling) ∨ openSlot s = none) :
    dataReq tag bytes s = dataReply tag .state 0 s := by
  have hlen : ¬ (bytes.length < 1 ∨ 16384 < bytes.length) := by omega
  rw [dataReq, if_neg hlen]
  obtain ⟨hrec, hrol⟩ | ho := h
  · simp [stopTaken, hrec, hrol]
  · simp [ho]

/-- R83: a payload that does not fit is FULL, and counted lost. -/
theorem dataReq_full (hn : 1 ≤ bytes.length ∧ bytes.length ≤ 16384)
    (hw : s.cwr.writer = .recording ∨ s.cwr.writer = .rolling) (ho : openSlot s = some i)
    (hf : ¬ dataFits bytes.length s = true) :
    dataReq tag bytes s = dataReply tag .full 0 (addLost i bytes.length s) := by
  have hlen : ¬ (bytes.length < 1 ∨ 16384 < bytes.length) := by omega
  have htaken : stopTaken s.cwr.writer = true := by simpa [stopTaken] using hw
  simp only [dataReq, if_neg hlen, if_pos htaken, ho, if_neg hf]

/-- R84, R85: a payload that fits is taken, and the port settled. -/
theorem dataReq_accepted (hn : 1 ≤ bytes.length ∧ bytes.length ≤ 16384)
    (hw : s.cwr.writer = .recording ∨ s.cwr.writer = .rolling) (ho : openSlot s = some i)
    (hf : dataFits bytes.length s = true) {r : State × Nat} (hr : acceptData i bytes s = r) :
    dataReq tag bytes s = settle (dataReply tag .ok r.2 r.1) := by
  have hlen : ¬ (bytes.length < 1 ∨ 16384 < bytes.length) := by omega
  have htaken : stopTaken s.cwr.writer = true := by simpa [stopTaken] using hw
  simp only [dataReq, if_neg hlen, if_pos htaken, ho, if_pos hf, hr]

/-- A DATA reply as of the state `t`. -/
def dataFrame (tag : Byte) (status : Status) (taken : Nat) (t : State) : Reply :=
  ⟨0xA4#8, tag, status, u16 taken ++ u32 (4194304 - fillOf t.cbf.segs) ++ u16 (optSlotCode (openSlot t))⟩

theorem dataReply_eq (tag : Byte) (status : Status) (taken : Nat) (s : State) :
    dataReply tag status taken s = { s with lnk := { s.lnk with reply := some (dataFrame tag status taken s) } } := rfl

/-- A payload has been taken and left `u`, where a slot is recorded or closed and no request is held: the reply is
placed and the port settled. -/
theorem dataReply_settles (tag : Byte) (status : Status) (taken : Nat) (hw : Records u.cwr.writer)
    (hr : u.lnk.req = none) :
    let t := settle (dataReply tag status taken u)
    KeepsOffCard (dataReply tag status taken u) t ∧ KeepsCardButPort u t ∧
      t.lnk.reply = some (dataFrame tag status taken t) ∧
      (u.cwr.port ≠ none → t.cwr.port = u.cwr.port ∧ t.sdr.queue = u.sdr.queue) ∧
      (u.cwr.port = none → ∀ v : State, v.sdr.queue = u.sdr.queue → v.cwr.run = u.cwr.run →
        v.cwr.offUnit = u.cwr.offUnit → v.cwr.offBlock = u.cwr.offBlock → v.cwr.blockFirst = u.cwr.blockFirst →
        ArbiterGrants (beforeGrant v t) t) := by
  intro t
  have hport : PortLaw (dataReply tag status taken u) := by
    refine portLaw_unheld ?_ fun tag ht => nomatch hr.symm.trans ht
    obtain h | h | h := hw <;> exact fun he => nomatch h.symm.trans he
  have hoff := settle_offCard hport
  obtain ⟨hcard, -⟩ := settle_keeps hport
  refine ⟨hoff, hcard, ?_, fun hp => ?_, fun hp v hq hrun hu hb hf =>
    settle_grants hport hp hw.arbitrating hq hrun hu hb hf rfl rfl rfl rfl rfl⟩
  · obtain ⟨-, -, -, -, hlnk⟩ := hoff
    obtain ⟨hcbf, -⟩ := id hcard
    rw [hlnk, dataReply_eq, dataFrame, dataFrame, hcbf, hcard.openSlot_eq]
    rfl
  · have ht : t = refreshOffers (dataReply tag status taken u) := settle_port hport hp
    rw [ht]
    exact ⟨rfl, rfl⟩

/-! ## The slots after a crossing (R85, R107, R112) -/

/-- R85, 1 and 2: the entries once slot `i` is CLOSING and slot `j` has opened with sequence `q`. -/
def crossedEntries (i j q : Nat) (s : State) : List Entry :=
  rewritten j (openedEntry q (s.cwr.recId.getD 0) s.now)
    (rewritten i (fun e => { e with st := .closing }) s.sdr.entries)

/-- The crossing from slot `i` to slot `j`, up to the post-roll lock. -/
theorem rolledInto_filledSlot (hr : s.lnk.req = none) (i j q : Nat) (head : List Byte) :
    rolledInto j q (filledSlot i head s) = { s with
      cbf := { s.cbf with
        segs := appendSeg i head s.cbf.segs
        assigned := 0
        admitted := setAdmitted j 0 s.cbf.admitted }
      sdr := { s.sdr with entries := crossedEntries i j q s, nextSeq := seqAfter q }
      cwr := { s.cwr with
        writer := .rolling
        closeReason := some .full
        units := 0
        lastSlot := some j
        cursor := s.cwr.cursor.map fun c => { c with stale := c.stale || c.slot == j } } } := by
  have hreq : (filledSlot i head s).lnk.req = none := by rw [filledSlot_eq]; exact hr
  rw [rolledInto_eq hreq, filledSlot_eq]
  rfl

theorem crossTo_cwr (hr : s.lnk.req = none) (i j q : Nat) (head rest : List Byte) :
    (crossTo j q rest (filledSlot i head s)).cwr = { s.cwr with
      writer := .rolling
      closeReason := some .full
      units := 0
      lastSlot := some j
      cursor := s.cwr.cursor.map fun c => { c with stale := c.stale || c.slot == j } } := by
  rw [crossTo_eq]
  simp [rolledInto_filledSlot hr]

theorem crossTo_cbf (hr : s.lnk.req = none) (i j q : Nat) (head rest : List Byte) :
    (crossTo j q rest (filledSlot i head s)).cbf = { s.cbf with
      segs := appendSeg j rest (appendSeg i head s.cbf.segs)
      assigned := rest.length
      admitted := setAdmitted j 0 s.cbf.admitted } := by
  rw [crossTo_eq]
  simp [assign, rolledInto_filledSlot hr]

theorem crossTo_directory (hr : s.lnk.req = none) (i j q : Nat) (head rest : List Byte) :
    (crossTo j q rest (filledSlot i head s)).sdr.mark = none ∧
      (crossTo j q rest (filledSlot i head s)).sdr.nextSeq = seqAfter q := by
  have hsdr : (crossTo j q rest (filledSlot i head s)).sdr =
    (postRoll j (rolledInto j q (filledSlot i head s))).sdr := rfl
  rw [hsdr]
  exact ⟨postRoll_mark .., by simp [rolledInto_filledSlot hr]⟩

/-- The state of each slot after the crossing: the post-roll lock changes none. -/
theorem crossTo_st (hr : s.lnk.req = none) (i j q k : Nat) (head rest : List Byte) :
    (entryAt (crossTo j q rest (filledSlot i head s)) k).map Entry.st =
      ((crossedEntries i j q s)[k]?).map Entry.st := by
  have hslots : slotsOf (crossTo j q rest (filledSlot i head s)) = slotsOf (rolledInto j q (filledSlot i head s)) :=
    (slotsOf_assign j rest _).trans (postRoll_kept j _).1
  have hkeys := congrArg (fun v => (v.keys[k]?).map Prod.fst) hslots
  simpa [slotsOf, keysOf_getElem?, entryAt, rolledInto_filledSlot hr, Function.comp_def] using hkeys

/-- R112: the locks of the crossing from slot `i` to slot `j`, `v` being what they leave before SLOT(locked). -/
theorem crossTo_locks (hr : s.lnk.req = none) (i : Nat) (hj : j < s.sdr.entries.length) (q : Nat)
    (head rest : List Byte) (h : markInForce s = none ∨ LocksSequenced (crossedEntries i j q s)) :
    let t := crossTo j q rest (filledSlot i head s)
    let es := crossedEntries i j q s
    let on := impactAfter (quotaOf s) (postRollCands j s) (postRollWant j s) es
    (∀ k, (entryAt t k).map unqueued = (es[k]?).map fun e => unqueued (withImpact (on k) e)) ∧
      Enqueued (fun k => on k != holdsImpact es k) s.sdr.queue t.sdr.queue ∧
      (s.lnk.recordMask.getLsbD 1 = true →
        ∃ y, ReleasesReported (releaseCount (quotaOf s) (postRollCands j s) (postRollWant j s) es)
            (releasable (postRollCands j s) es) es s.lnk.events.slot y ∧
          (∀ m, markInForce s = some m → on j = true → t.lnk.events.slot = countEvent y (.slotLocked j m.time)) ∧
          (markInForce s = none ∨ on j = false → t.lnk.events.slot = y)) := by
  obtain ⟨w, hw⟩ : ∃ w, rolledInto j q (filledSlot i head s) = w := ⟨_, rfl⟩
  have heq := hw.symm.trans (rolledInto_filledSlot hr i j q head)
  have hlen : j < w.sdr.entries.length := by simpa [heq, crossedEntries, rewritten] using hj
  have hnone : holdsImpact w.sdr.entries j = false := by
    simp only [heq, holdsImpact, crossedEntries, getElem?_rewritten]
    cases s.sdr.entries[j]? with
    | none => rfl
    | some e =>
        simp only [Option.map_some, if_true, Option.getD_some]
        rfl
  obtain ⟨v, ⟨himpacts, hevents, hqueue⟩, hsdr, hlocked⟩ := postRoll_locks hlen hnone (by subst heq; exact h)
  rw [crossTo_eq, hw]
  subst heq
  refine ⟨fun k => ?_, ?_, fun hm => ⟨v.lnk.events.slot, hevents hm, hlocked hm⟩⟩
  · refine Eq.trans ?_ (himpacts k)
    rw [entryAt, entryAt, ← hsdr]
    rfl
  · rw [← hsdr] at hqueue
    exact hqueue

end Sys2Proof.Machine
end

section
/-! O44: DATA is STATE, FULL, taken, or the crossing into the next slot (R82 to R85, R107, R112). -/

namespace Sys2Proof.Machine

variable {s t : State} {e : Entry} {i j k n q : Nat} {bytes : List Byte} {tag : Byte}

/-- Off the card side an accepted payload leaves all but the link as it was. -/
theorem accepted_frame {status : Status} {r : State × Nat} (hr : acceptData i bytes s = r)
    (h : KeepsOffCard (dataReply tag status n r.1) t) :
    KeepsClock s t ∧ KeepsMotion s t ∧ KeepsPower s t ∧ t.adu = s.adu := by
  subst hr
  obtain ⟨hclock, hmotion, hpower, hadu, -⟩ := h
  exact ⟨by simpa [KeepsClock] using hclock, by simpa [KeepsMotion] using hmotion, by simpa [KeepsPower] using hpower,
    by simpa using hadu⟩

/-- R106: the slot opened is another than the one that is closed for it. -/
theorem chooseSlot_ne (ho : openSlot s = some i) (hc : chooseSlot (setSlotState .closing i s) = some j) :
    j < s.sdr.entries.length ∧ j ≠ i := by
  obtain ⟨hlen, hnot⟩ := chooseSlot_isIn hc
  rw [slotsOf_setSlotState] at hlen hnot
  refine ⟨by simpa [Slots.mark, length_view] using hlen, fun hji => hnot ?_⟩
  rw [Slots.isIn_mark, if_pos hji.symm, length_view]
  exact ⟨openSlot_lt ho, rfl⟩

/-- R83, R85: bytes counted lost for a slot. -/
theorem entryAt_addLost (he : entryAt s i = some e) (n k : Nat) :
    entryAt (addLost i n s) k =
      if k = i then some { e with lostBytes := min 4294967295 (e.lostBytes + n) } else entryAt s k := by
  rw [addLost, modEntry_eq]
  refine (getElem?_rewritten ..).trans ?_
  by_cases hk : k = i
  · subst hk
    rw [show s.sdr.entries[k]? = some e from he]
    simp [satAdd32]
  · simp [hk, entryAt]

/-- R85, 4: with no slot to choose, settled: the filled slot is CLOSING, and what did not fit it is lost. -/
theorem crossNowhere_settles (hr : s.lnk.req = none) (he : entryAt s i = some e) (tag : Byte) (n : Nat)
    (head rest : List Byte) :
    let u := crossNowhere i rest (filledSlot i head s)
    let t := settle (dataReply tag .ok n u)
    KeepsOffCard (dataReply tag .ok n u) t ∧ t.lnk.reply = some (dataFrame tag .ok n t) ∧
      t.cwr = { s.cwr with
        writer := .stopping
        closeReason := some .noSlot
        stopMark := none
        port := t.cwr.port
        run := t.cwr.run
        offUnit := t.cwr.offUnit
        offBlock := t.cwr.offBlock
        blockFirst := t.cwr.blockFirst } ∧
      t.cbf = { s.cbf with
        segs := appendSeg i head s.cbf.segs
        assigned := s.cbf.assigned + head.length } ∧
      t.sdr.mark = none ∧ (entryAt t i).map Entry.st = some .closing ∧
      (entryAt t i).map Entry.lostBytes = some (min 4294967295 (e.lostBytes + rest.length)) ∧
      (s.cwr.port ≠ none → t.cwr.port = s.cwr.port) ∧ (s.cwr.port = none → ArbiterGrants (beforeGrant s t) t) := by
  intro u t
  have hueq := crossNowhere_eq i head rest s
  have hcwr : u.cwr = _ := congrArg State.cwr hueq
  have hentry : entryAt u i = some { e with
      st := .closing
      lostBytes := min 4294967295 (e.lostBytes + rest.length) } := by
    simp [u, hueq, entryAt, show s.sdr.entries[i]? = some e from he]
  have hport : u.cwr.port = s.cwr.port := by rw [hcwr]
  obtain ⟨hoff, hcard, hreply, hbusy, hgrants⟩ := dataReply_settles (u := u) tag .ok n
    (.inr (.inr (by rw [hcwr]))) (by simpa [u, hueq] using hr)
  obtain ⟨kcbf, ksdr, -, -⟩ := id hcard
  refine ⟨hoff, hreply, hcard.cwr_eq hcwr, kcbf.trans (congrArg State.cbf hueq), ?_, ?_, ?_,
    fun hp => (hbusy (hport ▸ hp)).1.trans hport, fun hp => ?_⟩
  · exact (congrArg Sdr.mark ksdr).trans (congrArg (fun x => x.sdr.mark) hueq)
  · rw [hcard.entryAt_map Entry.st (fun _ => rfl), hentry]
    rfl
  · rw [hcard.entryAt_map Entry.lostBytes (fun _ => rfl), hentry]
    rfl
  · exact hgrants (hport.trans hp) s (congrArg (fun x => x.sdr.queue) hueq).symm (by rw [hcwr]) (by rw [hcwr])
      (by rw [hcwr]) (by rw [hcwr])

/-- R85, 2 and 3: with slot `j` to choose, settled: the filled slot is CLOSING and slot `j` has the remainder. -/
theorem crossTo_settles (hr : s.lnk.req = none) (hi : i < s.sdr.entries.length) (hne : j ≠ i) (tag : Byte) (n q : Nat)
    (head rest : List Byte) :
    let u := crossTo j q rest (filledSlot i head s)
    let t := settle (dataReply tag .ok n u)
    KeepsOffCard (dataReply tag .ok n u) t ∧ t.lnk.reply = some (dataFrame tag .ok n t) ∧
      t.lnk.events = u.lnk.events ∧
      t.cwr = { s.cwr with
        writer := .rolling
        closeReason := some .full
        units := 0
        lastSlot := some j
        cursor := s.cwr.cursor.map fun c => { c with stale := c.stale || c.slot == j }
        port := t.cwr.port
        run := t.cwr.run
        offUnit := t.cwr.offUnit
        offBlock := t.cwr.offBlock
        blockFirst := t.cwr.blockFirst } ∧
      t.cbf = { s.cbf with
        segs := appendSeg j rest (appendSeg i head s.cbf.segs)
        assigned := rest.length
        admitted := setAdmitted j 0 s.cbf.admitted } ∧
      t.sdr.mark = none ∧ t.sdr.nextSeq = seqAfter q ∧ (entryAt t i).map Entry.st = some .closing ∧
      (∀ k, (entryAt t k).map unqueued = (entryAt u k).map unqueued) ∧
      (s.cwr.port ≠ none → t.cwr.port = s.cwr.port ∧ t.sdr.queue = u.sdr.queue) ∧
      (s.cwr.port = none →
        ArbiterGrants (beforeGrant { s with sdr := { s.sdr with queue := u.sdr.queue } } t) t) := by
  intro u t
  have hcwr : u.cwr = _ := crossTo_cwr hr i j q head rest
  obtain ⟨hmark, hseq⟩ := crossTo_directory hr i j q head rest
  have hport : u.cwr.port = s.cwr.port := by rw [hcwr]
  have hst : (entryAt u i).map Entry.st = some .closing := by
    refine (crossTo_st hr i j q i head rest).trans ?_
    simp [crossedEntries, hne.symm, List.getElem?_eq_getElem hi]
  obtain ⟨hoff, hcard, hreply, hbusy, hgrants⟩ := dataReply_settles (u := u) tag .ok n
    (.inr (.inl (by rw [hcwr]))) (by simpa [u, crossTo_eq, rolledInto_filledSlot hr] using hr)
  obtain ⟨kcbf, ksdr, -, -⟩ := id hcard
  obtain ⟨-, -, -, -, hlnk⟩ := id hoff
  refine ⟨hoff, hreply, (congrArg Lnk.events hlnk).trans rfl, hcard.cwr_eq hcwr, kcbf.trans (crossTo_cbf hr ..),
    (congrArg Sdr.mark ksdr).trans hmark, (congrArg Sdr.nextSeq ksdr).trans hseq,
    (hcard.entryAt_map Entry.st (fun _ => rfl) i).trans hst, hcard.entryAt_unqueued, fun hp => ?_, fun hp => ?_⟩
  · obtain ⟨hp', hq⟩ := hbusy (hport ▸ hp)
    exact ⟨hp'.trans hport, hq⟩
  · exact hgrants (hport.trans hp) _ rfl (by rw [hcwr]) (by rw [hcwr]) (by rw [hcwr]) (by rw [hcwr])

/-- Settles O44, by the payload's outcome: STATE and FULL settle no port; a payload taken is its part of the card side
(`assign`, `crossTo`, `crossNowhere`) and the settling of the port, and the locks of a crossing are `crossTo_locks`. -/
theorem dataIsTaken : Obligations.DataIsTaken := by
  unfold Obligations.DataIsTaken
  intro tag bytes s htakes hport hmin hmax n free cap held reply frame
  obtain ⟨-, hreq, -⟩ := id htakes
  have hn : 1 ≤ bytes.length ∧ bytes.length ≤ 16384 := ⟨hmin, hmax⟩
  refine ⟨fun h => ?state, fun i e hw ho he => ⟨fun h => ?full, fun hfree hshort => ?joins,
    fun hfree hclosing hroom hreach => ?crosses⟩⟩
  case state =>
    rw [exec_data htakes, dataReq_state hn h]
    rfl
  case full =>
    have hf : ¬ dataFits bytes.length s = true := by
      rw [dataFits_iff]
      rintro ⟨hfree, hc⟩
      obtain h | ⟨h, hcap⟩ := h
      · exact absurd hfree (Nat.not_le.mpr h)
      · exact hc.elim h fun hlt => absurd hcap (Nat.not_le.mpr hlt)
    refine ⟨dataReply tag .full 0 (addLost i n s), ?_, ?_, ?_, ?_, ?_, fun j => ?_⟩
    · rw [exec_data htakes, dataReq_full hn hw ho hf]
    · simp [frame, KeepsClock, KeepsMotion, KeepsPower]
    · simp
    · simp
    · rfl
    · exact entryAt_addLost he n j
  case joins =>
    have hf : dataFits bytes.length s = true := (dataFits_iff ..).mpr ⟨hfree, .inr hshort⟩
    have haccept := acceptData_joins i hshort
    have hrec : Records (assign i bytes s).cwr.writer := hw.elim .inl fun h => .inr (.inl h)
    obtain ⟨hoff, hcard, hreply, hbusy, hgrants⟩ := dataReply_settles tag .ok n hrec hreq
    obtain ⟨kcbf, ksdr, kentries, kcwr⟩ := id hcard
    refine ⟨_, ?_, accepted_frame haccept hoff, hreply, by rw [kcwr]; rfl, by rw [kcbf]; rfl, by rw [kcbf]; rfl,
      fun j hj => ?_, fun hone => ?_, fun hp => (hbusy hp).1, fun hp => hgrants hp s rfl rfl rfl rfl rfl, kentries⟩
    · rw [exec_data htakes, dataReq_accepted hn hw ho hf haccept]
    · exact (congrArg (fun c => heldBytes j c.segs) kcbf).trans (heldBytes_appendSeg_other hj bytes _)
    · exact (congrArg (fun c => heldBytes i c.segs) kcbf).trans (heldBytes_appendSeg_self i bytes _ hone)
  case crosses =>
    intro room
    have hf : dataFits bytes.length s = true := (dataFits_iff ..).mpr ⟨hfree, .inl hclosing⟩
    have hrest : (bytes.drop room).length = n - room := List.length_drop
    cases hc : chooseSlot (setSlotState .closing i s) with
    | none =>
        have haccept := acceptData_nowhere hroom hreach hc
        obtain ⟨hoff, hreply, hcwr, hcbf, hmark, hst, hlost, hbusy, hgrants⟩ :=
          crossNowhere_settles hreq he tag room (bytes.take room) (bytes.drop room)
        refine ⟨_, (exec_data htakes ..).trans (congrArg _ (dataReq_accepted hn hw ho hf haccept)),
          accepted_frame haccept hoff, hst, by rw [hcbf], hmark, hbusy, fun j hj => absurd hj (by simp),
          fun _ => ⟨hreply, by rw [hcwr], by rw [hcwr], by rw [hcwr], fun hone => ?_, fun k hk => ?_, hgrants,
            by rw [hlost, hrest]⟩⟩
        · exact (congrArg (fun c => heldBytes i c.segs) hcbf).trans (heldBytes_appendSeg_self i _ _ hone)
        · exact (congrArg (fun c => heldBytes k c.segs) hcbf).trans (heldBytes_appendSeg_other hk _ _)
    | some j =>
        obtain ⟨q, hq⟩ := chooseSlot_nextSeq hc
        have hq' : s.sdr.nextSeq = some q := by simpa using hq
        have haccept := acceptData_to hroom hreach hc hq'
        obtain ⟨hlen, hne⟩ := chooseSlot_ne ho hc
        obtain ⟨hoff, hreply, hevents, hcwr, hcbf, hmark, hseq, hst, hentries, hbusy, hgrants⟩ :=
          crossTo_settles hreq (openSlot_lt ho) hne tag n q (bytes.take room) (bytes.drop room)
        refine ⟨_, (exec_data htakes ..).trans (congrArg _ (dataReq_accepted hn hw ho hf haccept)),
          accepted_frame haccept hoff, hst, by rw [hcbf], hmark, fun hp => (hbusy hp).1, ?_,
          fun hnone => absurd hnone (by simp)⟩
        rintro _ ⟨⟩ opens es rolls cands want on
        have hes : es = crossedEntries i j q s := by
          simp only [es, opens, hq']
          rfl
        have hon : on = impactAfter (quotaOf s) (postRollCands j s) (postRollWant j s) (crossedEntries i j q s) :=
          congrArg (impactAfter (quotaOf s) cands want) hes
        refine ⟨hreply, by rw [hcwr], by rw [hcwr], by rw [hcwr], by rw [hcwr], by rw [hcbf, hrest],
          by rw [hseq, hq']; rfl, fun hone => ⟨?_, ?_, fun k hki hkj => ?_⟩, fun hlocks => ?_⟩
        · refine (congrArg (fun c => heldBytes i c.segs) hcbf).trans ?_
          exact (heldBytes_appendSeg_other hne.symm _ _).trans (heldBytes_appendSeg_self i _ _ (hone i))
        · refine (congrArg (fun c => heldBytes j c.segs) hcbf).trans ?_
          have hone' := (countP_appendSeg_other hne (bytes.take room) s.cbf.segs).trans_le (hone j)
          exact (heldBytes_appendSeg_self j _ _ hone').trans
            (congrArg (· ++ _) (heldBytes_appendSeg_other hne _ _))
        · refine (congrArg (fun c => heldBytes k c.segs) hcbf).trans ?_
          exact (heldBytes_appendSeg_other hkj _ _).trans (heldBytes_appendSeg_other hki _ _)
        · obtain ⟨himpacts, hqueue, hreports⟩ :=
            crossTo_locks hreq i hlen q (bytes.take room) (bytes.drop room) (hes ▸ hlocks)
          rw [hon, hes, hevents]
          exact ⟨fun k => (hentries k).trans (himpacts k), hreports, _, hqueue, fun hp => (hbusy hp).2, hgrants⟩

end Sys2Proof.Machine
end

section
/-! Fifth law (R102, R110): what keeps the IMPACT locks within the quota. -/

namespace Sys2Proof.Machine

variable {s t u : State} {es xs : List Entry} {e : Entry} {i : Nat}

/-! ## States with no more locks than another -/

/-- A transfer of the mount (R124). -/
def isMount : Xfer → Bool
  | .identify => true
  | .formatHeader _ => true
  | .scanRead _ => true
  | _ => false

/-- The transfer under way, where it is the mount's. -/
def mountWork (s : State) : Option Xfer := (workOf s.cwr.port).filter isMount

theorem mountLaw_iff (s : State) : MountLaw s ↔ (mountWork s ≠ none → s.cwr.writer = .mounting) := by
  simp only [MountLaw, mountWork, workOf]
  cases s.cwr.port with
  | none => simp
  | some x =>
      simp only [Option.some.injEq, forall_eq', Option.map_some]
      cases x.op <;> simp [Option.filter, bound, isMount]

/-- IMPACT stands on `x` only where it stands on `e`, and a sequence then where `e` has one. -/
def EntryEases (e x : Entry) : Prop :=
  x.locks.impact = true → e.locks.impact = true ∧ (e.sequence ≠ none → x.sequence ≠ none)

theorem EntryEases.refl (e : Entry) : EntryEases e e := fun h => ⟨h, id⟩

theorem EntryEases.trans {e x y : Entry} (h : EntryEases e x) (k : EntryEases x y) : EntryEases e y := fun hy =>
  have ⟨hx, hxy⟩ := k hy
  have ⟨he, hex⟩ := h hx
  ⟨he, hxy ∘ hex⟩

/-- From `s` to `t` no IMPACT lock has come and no locked slot has lost its sequence; the region stands, and so does the
writer's side of the directory. -/
structure Eases (s t : State) : Prop where
  geo : t.sdr.geo = s.sdr.geo
  writer : t.cwr.writer = s.cwr.writer ∨ (directoryUp s.cwr.writer = true ∧ directoryUp t.cwr.writer = true)
  work : mountWork t = none ∨ mountWork t = mountWork s
  locks : List.Forall₂ EntryEases s.sdr.entries t.sdr.entries

theorem Eases.trans (h : Eases s t) (k : Eases t u) : Eases s u where
  geo := k.geo.trans h.geo
  writer := by
    rcases h.writer with hw | ⟨hs, ht⟩ <;> rcases k.writer with kw | ⟨kt, ku⟩
    · exact .inl (kw.trans hw)
    · exact .inr ⟨hw ▸ kt, ku⟩
    · exact .inr ⟨hs, kw ▸ ht⟩
    · exact .inr ⟨hs, ku⟩
  work := by
    rcases k.work with kw | kw
    · exact .inl kw
    · rw [kw]; exact h.work
  locks := by
    have hk := h.locks
    have kk := k.locks
    rw [List.forall₂_iff_get] at hk kk ⊢
    exact ⟨hk.1.trans kk.1, fun j hj hj' => (hk.2 j hj (hk.1 ▸ hj)).trans (kk.2 j (hk.1 ▸ hj) hj')⟩

/-- A change that leaves the writer, the purpose of the transfer and the region. -/
theorem Eases.of_entries (hg : t.sdr.geo = s.sdr.geo) (hw : t.cwr.writer = s.cwr.writer)
    (hp : workOf t.cwr.port = workOf s.cwr.port) (hl : List.Forall₂ EntryEases s.sdr.entries t.sdr.entries) :
    Eases s t := ⟨hg, .inl hw, .inr (by rw [mountWork, mountWork, hp]), hl⟩

theorem entriesEase_refl (es : List Entry) : List.Forall₂ EntryEases es es :=
  List.forall₂_same.mpr fun e _ => EntryEases.refl e

/-- A change that leaves the entries too. -/
theorem Eases.of_same (he : t.sdr.entries = s.sdr.entries) (hg : t.sdr.geo = s.sdr.geo)
    (hw : t.cwr.writer = s.cwr.writer) (hp : workOf t.cwr.port = workOf s.cwr.port) : Eases s t :=
  .of_entries hg hw hp (he ▸ entriesEase_refl _)

/-- A change off the card side. -/
theorem Eases.of_kept (k : t.sdr = s.sdr ∧ t.cwr.writer = s.cwr.writer ∧ t.cwr.port = s.cwr.port) : Eases s t :=
  .of_same (by rw [k.1]) (by rw [k.1]) k.2.1 (by rw [k.2.2])

theorem Eases.refl (s : State) : Eases s s := .of_kept ⟨rfl, rfl, rfl⟩

theorem raise_eases (d : Detail) (s : State) : Eases s (raise d s) := .of_kept ⟨rfl, rfl, rfl⟩

theorem impactLocks_le (h : List.Forall₂ EntryEases es xs) : impactLocks xs ≤ impactLocks es := by
  induction h with
  | nil => exact Nat.le_refl 0
  | @cons e x es xs hex _ ih =>
      simp only [impactLocks, List.filter_cons] at ih ⊢
      by_cases hx : x.locks.impact = true
      · simpa [hx, (hex hx).1] using ih
      · simp only [hx, Bool.false_eq_true, if_false]
        split
        · exact ih.trans (Nat.le_succ _)
        · exact ih

theorem quotaOf_congr (h : t.sdr.geo = s.sdr.geo) : quotaOf t = quotaOf s := by
  simp only [quotaOf, h]

/-- What `Eases` says of one entry. -/
theorem Eases.entry (h : Eases s t) {x : Entry} (hx : x ∈ t.sdr.entries) : ∃ e ∈ s.sdr.entries, EntryEases e x := by
  obtain ⟨j, hj⟩ := List.mem_iff_getElem?.mp hx
  have hl := h.locks
  rw [List.forall₂_iff_get] at hl
  obtain ⟨hjt, rfl⟩ := List.getElem?_eq_some_iff.mp hj
  have hjs : j < s.sdr.entries.length := by omega
  exact ⟨_, List.getElem_mem hjs, hl.2 j hjs hjt⟩

/-- The law is kept where no lock comes. -/
theorem QuotaLaw.eases (h : QuotaLaw s) (k : Eases s t) : QuotaLaw t := by
  obtain ⟨hmount, hquota, hseq⟩ := h
  rw [mountLaw_iff] at hmount
  have not_mounting {w : Writer} (hup : directoryUp w = true) : w ≠ .mounting := by
    rintro rfl
    simp [directoryUp] at hup
  refine ⟨(mountLaw_iff t).mpr fun hw => ?_, fun hup => ?_, fun hm x hx hi => ?_⟩
  · have hms : mountWork t = mountWork s := k.work.resolve_left hw
    have hs := hmount (hms ▸ hw)
    rcases k.writer with kw | ⟨ks, -⟩
    · exact kw.trans hs
    · exact absurd hs (not_mounting ks)
  · rw [quotaOf_congr k.geo]
    refine (impactLocks_le k.locks).trans (hquota ?_)
    rcases k.writer with kw | ⟨ks, -⟩
    · exact kw ▸ hup
    · exact ks
  · have hs : s.cwr.writer = .mounting := by
      rcases k.writer with kw | ⟨-, kt⟩
      · exact kw ▸ hm
      · exact absurd hm (not_mounting kt)
    obtain ⟨e, he, hex⟩ := k.entry hx
    exact (hex hi).2 (hseq hs e he (hex hi).1)

/-! ## One entry rewritten -/

theorem entriesEase_rewritten (i : Nat) {f : Entry → Entry} (hf : ∀ e, EntryEases e (f e)) (es : List Entry) :
    List.Forall₂ EntryEases es (rewritten i f es) := by
  rw [List.forall₂_iff_get]
  refine ⟨by simp [rewritten], fun j hj hj' => ?_⟩
  simp only [rewritten, List.get_eq_getElem, List.getElem_mapIdx]
  split
  · exact hf _
  · exact EntryEases.refl _

theorem modEntry_eases (i : Nat) {f : Entry → Entry} (hf : ∀ e, EntryEases e (f e)) (s : State) :
    Eases s (modEntry i f s) :=
  .of_entries (by simp) (by simp) (by simp) (by rw [modEntry_rewritten]; exact entriesEase_rewritten i hf _)

/-- A rewriting that leaves an entry's lock and sequence. -/
theorem modEntry_eases_same (i : Nat) {f : Entry → Entry}
    (hf : ∀ e, (f e).locks.impact = e.locks.impact ∧ (f e).sequence = e.sequence) (s : State) :
    Eases s (modEntry i f s) :=
  modEntry_eases i (fun e hx => ⟨(hf e).1 ▸ hx, by rw [(hf e).2]; exact id⟩) s

theorem setSlotState_eases (st : SlotState) (i : Nat) (s : State) : Eases s (setSlotState st i s) :=
  modEntry_eases_same i (f := fun e => { e with st := st }) (fun _ => ⟨rfl, rfl⟩) s

theorem enqueue_eases (i : Nat) (s : State) : Eases s (enqueue i s) := by
  simp only [enqueue]
  split
  · exact .refl s
  · exact (modEntry_eases_same i (f := fun e => { e with queued := true }) (fun _ => ⟨rfl, rfl⟩) s).trans
      (.of_same rfl rfl rfl rfl)

theorem dequeue_eases (i : Nat) (rest : List Nat) (s : State) : Eases s (dequeue i rest s) :=
  (modEntry_eases_same i (f := fun e => { e with queued := false }) (fun _ => ⟨rfl, rfl⟩) s).trans
    (.of_same rfl rfl rfl rfl)

theorem skipQueue_eases : ∀ (q : List Nat) (s : State), Eases s (skipQueue q s)
  | [], s => .refl s
  | i :: rest, s => by
      simp only [skipQueue]
      split
      · exact .refl s
      · exact (dequeue_eases i rest s).trans (skipQueue_eases rest _)

/-- IMPACT counted after one entry has been rewritten. -/
theorem impactLocks_rewritten (f : Entry → Entry) (h : es[i]? = some e) :
    impactLocks (rewritten i f es) + (if e.locks.impact then 1 else 0) =
      impactLocks es + (if (f e).locks.impact then 1 else 0) := by
  have hmod : rewritten i f es = es.modify i f := by
    apply List.ext_getElem?
    intro j
    simp [List.getElem?_modify, eq_comm (a := i)]
  rw [hmod]
  clear hmod
  induction es generalizing i with
  | nil => simp at h
  | cons x xs ih =>
      cases i with
      | zero =>
          simp only [List.getElem?_cons_zero, Option.some.injEq] at h
          subst h
          simp only [impactLocks, List.modify_zero_cons, List.filter_cons]
          by_cases hx : x.locks.impact = true <;> by_cases hy : (f x).locks.impact = true <;> simp [hx, hy]
      | succ i =>
          have := ih (i := i) (by simpa using h)
          simp only [impactLocks] at this
          simp only [impactLocks, List.modify_succ_cons, List.filter_cons]
          by_cases hx : x.locks.impact = true
          · simp only [hx, if_true, List.length_cons]
            omega
          · simpa only [hx, Bool.false_eq_true, if_false] using this

/-! ## Locks set and released (R102, R110) -/

theorem enqueue_impactLocks (i : Nat) (s : State) :
    impactLocks (enqueue i s).sdr.entries ≤ impactLocks s.sdr.entries := impactLocks_le (enqueue_eases i s).locks

theorem setImpact_entries (b : Bool) (i : Nat) (s : State) :
    (setImpact b i s).sdr.entries = rewritten i (withImpact b) s.sdr.entries := modEntry_rewritten i _ s

theorem lockSlot_impactLocks (i : Nat) (s : State) :
    impactLocks (lockSlot i s).sdr.entries ≤ impactLocks s.sdr.entries + 1 := by
  refine (enqueue_impactLocks i _).trans ?_
  rw [setImpact_entries]
  cases he : s.sdr.entries[i]? with
  | none =>
      have hsame : rewritten i (withImpact true) s.sdr.entries = s.sdr.entries := by
        apply List.ext_getElem?
        intro j
        by_cases hj : j = i <;> simp [hj, he]
      rw [hsame]
      exact Nat.le_succ _
  | some e =>
      have := impactLocks_rewritten (withImpact true) he
      simp only [withImpact, if_true] at this
      exact (Nat.le_add_right _ _).trans this.le

theorem releaseSlot_impactLocks (he : s.sdr.entries[i]? = some e) (hi : e.locks.impact = true) :
    impactLocks (releaseSlot i s).sdr.entries + 1 ≤ impactLocks s.sdr.entries := by
  have h := impactLocks_rewritten (withImpact false) he
  rw [if_pos hi, if_neg (by simp [withImpact]), ← setImpact_entries] at h
  exact (Nat.succ_le_succ (enqueue_impactLocks i (raise (.slotReleased i) (setImpact false i s)))).trans h.le

theorem setImpact_false_eases (i : Nat) (s : State) : Eases s (setImpact false i s) :=
  modEntry_eases i (f := withImpact false) (fun e h => by simp [withImpact] at h) s

theorem releaseSlot_eases (i : Nat) (s : State) : Eases s (releaseSlot i s) :=
  (setImpact_false_eases i s).trans ((raise_eases (.slotReleased i) _).trans (enqueue_eases i _))

/-- The slot found for a release carries IMPACT. -/
theorem lowestSeq_impact {p : Nat → Entry → Bool} {q j : Nat} (h : lowestSeq p 0 es = some (q, j))
    (hp : ∀ e, p j e = true → e.locks.impact = true) : ∃ e, es[j]? = some e ∧ e.locks.impact = true := by
  obtain ⟨e, he, -, hpe⟩ := ((lowestSeq_spec p es 0).2 q j h).getElem?
  exact ⟨e, he, hp e hpe⟩

/-- R110: locks applied leave no more than the quota. -/
theorem lockList_within (cands : List Nat) : ∀ (l : List Nat) (s : State), impactLocks s.sdr.entries ≤ quotaOf s →
    impactLocks (lockList cands l s).sdr.entries ≤ quotaOf s
  | [], _, h => h
  | i :: rest, s, h => by
      have again (v : State) (hv : slotsOf v = slotsOf s) (hle : impactLocks v.sdr.entries ≤ quotaOf s) :
          impactLocks (lockList cands rest v).sdr.entries ≤ quotaOf s := by
        have hq : quotaOf v = quotaOf s := quotaOf_congr (congrArg Slots.geo hv)
        exact hq ▸ lockList_within cands rest v (hq ▸ hle)
      simp only [lockList]
      repeat' split
      · exact again s rfl h
      · exact h
      · next hroom => exact again _ (by simp) ((lockSlot_impactLocks i s).trans hroom)
      · exact h
      · next q j hlow =>
        obtain ⟨e, he, hi⟩ := lowestSeq_impact hlow (by simp +contextual)
        have hrel := releaseSlot_impactLocks he hi
        exact again _ (by simp) ((lockSlot_impactLocks i _).trans (hrel.trans h))

/-- Every IMPACT lock stands on an entry with a sequence. -/
def LocksNumbered (es : List Entry) : Prop := ∀ e ∈ es, e.locks.impact = true → e.sequence ≠ none

theorem Eases.numbered (h : Eases s t) (hs : LocksNumbered s.sdr.entries) : LocksNumbered t.sdr.entries := by
  intro x hx hi
  obtain ⟨e, he, hex⟩ := h.entry hx
  exact (hex hi).2 (hs e he (hex hi).1)

/-- Where numbered locks exist the search finds one. -/
theorem lowestSeq_numbered (hs : LocksNumbered es) (h : lowestSeq (fun _ e => e.locks.impact) 0 es = none) :
    impactLocks es = 0 := by
  rw [impactLocks, List.length_eq_zero_iff, List.filter_eq_nil_iff]
  intro e he hi
  obtain ⟨j, hj⟩ := List.mem_iff_getElem?.mp he
  obtain ⟨q, hq⟩ := Option.ne_none_iff_exists'.mp (hs e he hi)
  exact Bool.noConfusion (hi.symm.trans ((lowestSeq_spec (fun _ e => e.locks.impact) es 0).1 h j e q hj hq))

/-- R102: as many releases as there are entries leave no excess of numbered locks. -/
theorem releaseExcess_within : ∀ (n : Nat) (s : State), impactLocks s.sdr.entries ≤ quotaOf s + n →
    LocksNumbered s.sdr.entries → impactLocks (releaseExcess n s).1.sdr.entries ≤ quotaOf s
  | 0, _, h, _ => h
  | n + 1, s, h, hs => by
      simp only [releaseExcess]
      by_cases hover : quotaOf s < impactLocks s.sdr.entries
      · rw [if_pos hover]
        cases hlow : lowestSeq (fun _ e => e.locks.impact) 0 s.sdr.entries with
        | none => exact (lowestSeq_numbered hs hlow).trans_le (Nat.zero_le _)
        | some found =>
            obtain ⟨q, j⟩ := found
            obtain ⟨e, he, hi⟩ := lowestSeq_impact hlow fun _ h => h
            have hrel := releaseSlot_impactLocks he hi
            have hq : quotaOf (releaseSlot j s) = quotaOf s := quotaOf_congr (releaseSlot_eases j s).geo
            have := releaseExcess_within n (releaseSlot j s) (by omega) ((releaseSlot_eases j s).numbered hs)
            exact hq ▸ this
      · rw [if_neg hover]
        exact Nat.le_of_not_lt hover

end Sys2Proof.Machine
end

section
/-! Fifth law (R102, R110): the card's operations, the settling of the port, and the moves of a recording. -/

namespace Sys2Proof.Machine

variable {s t u : State} {c : EmergencyClose} {i j k n : Nat}

/-! ## The writer's moves and the port -/

theorem setWriter_eases {w : Writer} (hs : directoryUp s.cwr.writer = true) (hw : directoryUp w = true) :
    Eases s (setWriter w s) := ⟨rfl, .inr ⟨hs, hw⟩, .inr rfl, entriesEase_refl _⟩

theorem freePort_eases (s : State) : Eases s (setPort none s) := ⟨rfl, .inl rfl, .inl rfl, entriesEase_refl _⟩

/-- A transfer that is none of the mount's begins. -/
theorem MayBegin.eases {op : Xfer} (h : MayBegin op s t) (hop : isMount op = false)
    (he : t.sdr.entries = s.sdr.entries) : Eases s t := by
  obtain hs | hs := h
  · exact .of_same he (congrArg Slots.geo hs) (congrArg Slots.writer hs) (congrArg Slots.work hs)
  · refine ⟨congrArg Slots.geo hs, .inl (congrArg Slots.writer hs), .inl ?_, he ▸ entriesEase_refl _⟩
    have hw : workOf t.cwr.port = (some op).filter bound := congrArg Slots.work hs
    rw [mountWork, hw, Option.filter_eq_none_iff]
    intro x hx
    rw [Option.filter_eq_some_iff] at hx
    cases hx.1
    simp [hop]

/-- The card is given up: no directory, and no transfer. -/
theorem giveUpCard_quota {w : Writer} (hw : directoryUp w = false) (hm : w ≠ .mounting) (s : State) :
    QuotaLaw (giveUpCard w s) := by
  refine ⟨fun x hx => ?_, fun hup => ?_, fun hwm => absurd hwm hm⟩
  · rw [giveUpCard_port] at hx
    cases hx
  · rw [giveUpCard_writer, hw] at hup
    cases hup

theorem writerFault_quota (slot addr : Nat) (kind : WriteKind) (s : State) : QuotaLaw (writerFault slot addr kind s) :=
  (giveUpCard_quota (w := .fault) rfl (by simp) (endUnmount .state (endMotionRead .state s))).eases
    (.of_same (by simp [writerFault]) (by simp [writerFault]) (by simp [writerFault]) (by simp [writerFault]))

theorem mountFailed_quota (cause : CardCause) (s : State) : QuotaLaw (mountFailed cause s) :=
  (giveUpCard_quota (w := .unmounted) rfl (by simp) s).eases (.of_kept ⟨rfl, rfl, rfl⟩)

theorem finishUnmount_quota (h : QuotaLaw s) : QuotaLaw (finishUnmount s) := by
  simp only [finishUnmount]
  split
  · split
    · exact (giveUpCard_quota (w := .unmounted) rfl (by simp) s).eases (.of_kept (by simp))
    · exact h
  · exact h

theorem endMotionRead_eases (status : Status) (s : State) : Eases s (endMotionRead status s) :=
  .of_same (by simp) (by simp) (by simp) (by simp)

/-! ## The arbiter (R125) -/

theorem grantRead_eases (s : State) : Eases s (grantRead s) := by
  simp only [grantRead]
  split
  · exact ((beginHostRead_begins _ _ _ s).before (slotsOf_clearRun _)).eases rfl (by simp)
  · exact .refl s

theorem grantUnit_eases (o : Offer) (s : State) : Eases s (grantUnit o s) :=
  ((beginUnit_begins (.streamUnit o.slot o.real) o s).before (slotsOf_countRun _)).eases rfl (by simp)

theorem grantBlock_eases (o : Offer) (s : State) : Eases s (grantBlock o s) :=
  ((beginBlock_begins (.motionBlock o.slot o.real) o s).before (slotsOf_countRun _)).eases rfl (by simp)

theorem grantData_eases (s : State) : Eases s (grantData s) := by
  simp only [grantData]
  repeat' split
  · exact grantBlock_eases _ s
  · exact grantUnit_eases _ s
  · exact grantUnit_eases _ s
  · exact grantBlock_eases _ s
  · exact grantRead_eases s
  · exact .refl s

theorem grantUpdate_eases {op : Xfer} (hop : isMount op = false) (i : Nat) (s : State) :
    Eases s (grantUpdate op i s) :=
  (dequeue_eases i _ s).trans ((beginHeader_begins op i _ _).eases hop (by simp))

theorem grantPort_eases (s : State) : Eases s (grantPort s) := by
  refine (skipQueue_eases s.sdr.queue s).trans ?_
  simp only [grantPort]
  generalize skipQueue s.sdr.queue s = u
  repeat' split
  · exact grantUpdate_eases rfl _ u
  · exact (beginHeader_begins _ _ _ u).eases rfl (by simp)
  · exact (beginHeader_begins _ _ _ u).eases rfl (by simp)
  · exact grantRead_eases u
  · exact grantData_eases u

/-! ## The emergency close (R173 to R181) -/

theorem modClose_eases (f : EmergencyClose → EmergencyClose) (s : State) : Eases s (modClose f s) :=
  .of_kept ⟨rfl, rfl, rfl⟩

theorem addLost_eases (slot n : Nat) (s : State) : Eases s (addLost slot n s) :=
  modEntry_eases_same slot (f := fun e => { e with lostBytes := satAdd32 e.lostBytes n }) (fun _ => ⟨rfl, rfl⟩) s

theorem loseSegment_eases (slot : Nat) (s : State) : Eases s (loseSegment slot s) :=
  Eases.trans (t := { s with cbf := { s.cbf with segs := s.cbf.segs.filter fun g => g.slot != slot } })
    (.of_kept ⟨rfl, rfl, rfl⟩) (addLost_eases slot _ _)

theorem loseRecords_eases (slot : Nat) (s : State) : Eases s (loseRecords slot s) :=
  Eases.trans (t := { s with cbf := { s.cbf with pend := s.cbf.pend.filter fun r => r.slot != slot } })
    (.of_kept ⟨rfl, rfl, rfl⟩) (modEntry_eases_same slot
      (f := fun e => { e with motionDropped := satAdd32 e.motionDropped (pendingOf slot s.cbf.pend) })
      (fun _ => ⟨rfl, rfl⟩) _)

theorem closeHeader_eases (k : Nat) (s : State) : Eases s (closeHeader k s) :=
  (modClose_eases _ s).trans (((beginHeader_begins (.emClosed k) k _ (setPart .header s)).eases rfl (by simp)).trans
    (modClose_eases _ _))

theorem closeMotion_eases (c : EmergencyClose) (k : Nat) (s : State) : Eases s (closeMotion c k s) := by
  have hend : Eases s (closeHeader k (loseRecords k s)) := (loseRecords_eases k s).trans (closeHeader_eases k _)
  simp only [closeMotion]
  repeat' split
  · next o _ _ =>
    exact (modClose_eases _ s).trans (((beginBlock_begins (.emBlock k o.real) o (setPart .motion s)).eases rfl
      (by simp)).trans (modClose_eases _ _))
  · exact hend
  · exact hend

theorem closeStream_eases (c : EmergencyClose) (k : Nat) (s : State) : Eases s (closeStream c k s) := by
  have hend : Eases s (closeMotion c k (loseSegment k s)) := (loseSegment_eases k s).trans (closeMotion_eases c k _)
  simp only [closeStream]
  repeat' split
  · next o _ _ =>
    exact (modClose_eases _ s).trans (((beginUnit_begins (.emUnit k o.real) o (setPart .stream s)).eases rfl
      (by simp)).trans (modClose_eases _ _))
  · exact hend
  · exact hend

theorem closeEnd_eases (hw : s.cwr.writer = .emergencyClose) : Eases s (closeEnd s) := by
  simp only [closeEnd]
  split
  · exact .refl s
  · exact Eases.trans (t := setWriter .ready s) (setWriter_eases (by simp [hw, directoryUp]) rfl)
      (.of_same (by simp) (by simp) (by simp) (by simp))

theorem closeSlots_eases (c : EmergencyClose) (hw : s.cwr.writer = .emergencyClose) : Eases s (closeSlots c s) := by
  simp only [closeSlots]
  split
  · exact closeEnd_eases hw
  · exact closeStream_eases c _ s

theorem closeUpdates_eases (c : EmergencyClose) (hw : s.cwr.writer = .emergencyClose) :
    Eases s (closeUpdates c s) := by
  have hskip := skipQueue_eases s.sdr.queue s
  have hws : (skipQueue s.sdr.queue s).cwr.writer = .emergencyClose := by simpa using hw
  simp only [closeUpdates]
  repeat' split
  · exact closeSlots_eases c hw
  · exact hskip.trans (closeSlots_eases c hws)
  · exact hskip.trans ((modClose_eases _ _).trans ((grantUpdate_eases rfl _ _).trans (modClose_eases _ _)))
  · exact hskip.trans (closeSlots_eases c hws)

theorem closeAdvance_eases (hw : s.cwr.writer = .emergencyClose) : Eases s (closeAdvance s) := by
  simp only [closeAdvance]
  repeat' split
  · exact .refl s
  · exact closeUpdates_eases _ hw
  · exact closeUpdates_eases _ hw
  · exact closeMotion_eases _ _ s
  · exact closeSlots_eases _ hw

/-- Settling the port keeps the law. -/
theorem settle_quota (h : QuotaLaw s) : QuotaLaw (settle s) := by
  have h1 : QuotaLaw (refreshOffers s) := h.eases (.of_kept ⟨rfl, rfl, rfl⟩)
  have h2 : QuotaLaw (if (refreshOffers s).cwr.port.isNone && (refreshOffers s).cwr.writer == .emergencyClose
      then closeAdvance (refreshOffers s) else refreshOffers s) := by
    split
    · next hc =>
      simp only [Bool.and_eq_true, beq_iff_eq] at hc
      exact h1.eases (closeAdvance_eases hc.2)
    · exact h1
  simp only [settle]
  generalize (if (refreshOffers s).cwr.port.isNone && (refreshOffers s).cwr.writer == .emergencyClose
      then closeAdvance (refreshOffers s) else refreshOffers s) = u at h2
  refine finishUnmount_quota ?_
  split
  · exact h2.eases (grantPort_eases u)
  · exact h2

theorem QuotaLaw.settles (h : QuotaLaw s) (k : Eases s t) : QuotaLaw (settle t) := settle_quota (h.eases k)

/-! ## A recording's moves -/

theorem askStop_eases (reason : CloseReason) (s : State) : Eases s (askStop reason s) := by
  simp only [askStop]
  split
  · next hw =>
    split
    · exact .refl s
    · exact (setSlotState_eases .closing _ s).trans ((setWriter_eases (by simp [hw, directoryUp]) rfl).trans
        (.of_kept ⟨rfl, rfl, rfl⟩))
  · exact .of_kept ⟨rfl, rfl, rfl⟩
  · exact .refl s

theorem startClose_eases (hw : closable s.cwr.writer = true) : Eases s (startClose s) := by
  have hfirst (u : State) : Eases u (closeFirst u) := by
    simp only [closeFirst]
    split
    · exact setSlotState_eases .closing _ u
    · exact .refl u
  have hup : directoryUp (closeFirst (endMotionRead .state s)).cwr.writer = true := by
    simp only [closeFirst_frame, endMotionRead_frame]
    cases hx : s.cwr.writer <;> simp [hx, closable] at hw <;> rfl
  exact (endMotionRead_eases .state s).trans ((hfirst _).trans ((setWriter_eases hup rfl).trans
    (.of_kept ⟨rfl, rfl, rfl⟩)))

theorem staleCursor_eases (i : Nat) (s : State) : Eases s (staleCursor i s) := by
  have hs := slotsOf_staleCursor i s
  exact .of_same (by simp) (congrArg Slots.geo hs) (congrArg Slots.writer hs) (congrArg Slots.work hs)

theorem openTheSlot_eases (i q recId : Nat) (s : State) : Eases s (openTheSlot i q recId s) := by
  obtain ⟨u, hu⟩ : ∃ u, u = modEntry i (openedEntry q recId s.now) s := ⟨_, rfl⟩
  have hentry : Eases s u := hu ▸ modEntry_eases i (fun e h => by simp [openedEntry, freeEntry, noLocks] at h) s
  have hnumber : Eases u { u with sdr := { u.sdr with nextSeq := seqAfter q } } := .of_same rfl rfl rfl rfl
  have hcursor := staleCursor_eases i { u with sdr := { u.sdr with nextSeq := seqAfter q } }
  have hopen : Eases s (resetEntry i q recId s) := by
    simp only [resetEntry, ← hu]
    exact hentry.trans (hnumber.trans hcursor)
  exact hopen.trans (.of_kept ⟨rfl, rfl, rfl⟩)

theorem startRecording_eases (i q : Nat) (hw : s.cwr.writer = .ready) : Eases s (startRecording i q s) := by
  have hempty : Eases s { s with cbf := { s.cbf with admitted := [] } } := .of_kept ⟨rfl, rfl, rfl⟩
  have hopen := openTheSlot_eases i q s.sdr.nextRec { s with cbf := { s.cbf with admitted := [] } }
  have hx : (openTheSlot i q s.sdr.nextRec { s with cbf := { s.cbf with admitted := [] } }).cwr.writer = .ready := by
    simpa using hw
  simp only [startRecording]
  generalize openTheSlot i q s.sdr.nextRec { s with cbf := { s.cbf with admitted := [] } } = x at hopen hx
  have hnumber : Eases x { x with
      sdr := { x.sdr with nextRec := recAfter s.sdr.nextRec }
      cwr := { x.cwr with recId := some s.sdr.nextRec, stopMark := none, closeReason := none } } :=
    .of_same rfl rfl rfl rfl
  exact hempty.trans (hopen.trans (hnumber.trans (setWriter_eases (by simp [hx, directoryUp]) rfl)))

theorem recStartReq_quota (h : QuotaLaw s) (tag : Byte) : QuotaLaw (recStartReq tag s) := by
  simp only [recStartReq]
  split
  · next hw =>
    split
    · next i q _ _ =>
      have hs : Eases s (answer 0x22 tag .accepted (u16 i ++ u32 q ++ u16 s.sdr.nextRec) (startRecording i q s)) :=
        (startRecording_eases i q hw).trans (.of_kept ⟨rfl, rfl, rfl⟩)
      simp only [recStartWith]
      split
      · exact h.settles (hs.trans (startClose_eases (by simp [answer, startRecording, setWriter, closable])))
      · exact h.settles hs
    · exact h.eases (.of_kept ⟨rfl, rfl, rfl⟩)
  · exact h.eases (.of_kept ⟨rfl, rfl, rfl⟩)

/-- Locks applied by a change of the slots' other fields alone keep the law of a directory that is up. -/
theorem QuotaLaw.within (h : QuotaLaw s) (hs : slotsOf t = slotsOf s) (hup : directoryUp s.cwr.writer = true)
    (hle : impactLocks t.sdr.entries ≤ quotaOf s) : QuotaLaw t := by
  obtain ⟨hmount, -, -⟩ := h
  have hw : t.cwr.writer = s.cwr.writer := congrArg Slots.writer hs
  have hx : mountWork t = mountWork s := congrArg (fun v => v.work.filter isMount) hs
  refine ⟨?_, fun _ => ?_, fun hm => ?_⟩
  · rw [mountLaw_iff] at hmount ⊢
    rw [hx, hw]
    exact hmount
  · rw [quotaOf_congr (t := t) (s := s) (congrArg Slots.geo hs)]
    exact hle
  · rw [hw] at hm
    simp [hm, directoryUp] at hup

theorem QuotaLaw.le (h : QuotaLaw s) (hup : directoryUp s.cwr.writer = true) :
    impactLocks s.sdr.entries ≤ quotaOf s := by
  obtain ⟨-, hle, -⟩ := h
  exact hle hup

theorem lockList_quota (h : QuotaLaw s) (hup : directoryUp s.cwr.writer = true) (cands l : List Nat) :
    QuotaLaw (lockList cands l s) :=
  h.within (slotsOf_lockList cands l s) hup (lockList_within cands l s (h.le hup))

theorem lockRequest_quota (h : QuotaLaw s) (hup : directoryUp s.cwr.writer = true) (time : Word) (pre post : Nat) :
    QuotaLaw (lockRequest time pre post s).1 := by
  have hmark (cands : List Nat) : Eases s (setMark time cands post s) := by
    simp only [setMark]
    split
    · exact .of_same rfl rfl rfl rfl
    · exact .refl s
  simp only [lockRequest]
  repeat' split
  · exact h
  · exact h
  · next i _ _ e _ =>
    have hm := h.eases (hmark (i :: beforeAnchor time pre e s))
    exact (lockList_quota hm (by simpa using hup) _ _).eases
      (modEntry_eases_same i (f := fun x => { x with impactCount := min 255 (x.impactCount + 1) })
        (fun _ => ⟨rfl, rfl⟩) _)

theorem postRoll_quota (h : QuotaLaw s) (hup : directoryUp s.cwr.writer = true) (i : Nat) :
    QuotaLaw (postRoll i s) := by
  have hm : QuotaLaw { s with sdr := { s.sdr with mark := none } } := h.eases (.of_same rfl rfl rfl rfl)
  simp only [postRoll]
  repeat' split
  · exact h
  · exact (lockList_quota hm hup _ _).eases (.of_kept ⟨rfl, rfl, rfl⟩)
  · exact lockList_quota hm hup _ _
  · exact hm

/-- R85: the crossing. -/
theorem crossing_quota (h : QuotaLaw s) (hw : stopTaken s.cwr.writer = true) (i : Nat) (rest : List Byte) :
    QuotaLaw (crossing i rest s).1 := by
  have hup : directoryUp (setSlotState .closing i s).cwr.writer = true := by
    have hsame : (setSlotState .closing i s).cwr.writer = s.cwr.writer := by simp
    rw [hsame]
    cases hx : s.cwr.writer <;> simp [hx, stopTaken] at hw <;> rfl
  have hclosing := setSlotState_eases .closing i s
  simp only [crossing]
  generalize setSlotState .closing i s = u at hup hclosing
  split
  · next j q _ _ =>
    have hopen := openTheSlot_eases j q (u.cwr.recId.getD 0) u
    have hx : (openTheSlot j q (u.cwr.recId.getD 0) u).cwr.writer = u.cwr.writer := by simp
    simp only [crossTo]
    generalize openTheSlot j q (u.cwr.recId.getD 0) u = x at hopen hx
    have hroll : Eases x (setWriter .rolling { x with cwr := { x.cwr with closeReason := some .full } }) :=
      Eases.trans (t := { x with cwr := { x.cwr with closeReason := some .full } }) (.of_kept ⟨rfl, rfl, rfl⟩)
        (setWriter_eases (by simpa [hx] using hup) rfl)
    exact (postRoll_quota (h.eases (hclosing.trans (hopen.trans hroll))) rfl j).eases (.of_kept ⟨rfl, rfl, rfl⟩)
  · have hlost := addLost_eases i rest.length u
    exact h.eases (hclosing.trans (hlost.trans ((setWriter_eases (by simpa using hup) rfl).trans
      (.of_kept ⟨rfl, rfl, rfl⟩))))

theorem dataReq_quota (h : QuotaLaw s) (tag : Byte) (bytes : List Byte) : QuotaLaw (dataReq tag bytes s) := by
  have haccept (hw : stopTaken s.cwr.writer = true) (i : Nat) : QuotaLaw (acceptData i bytes s).1 := by
    have hassign : QuotaLaw (assign i (bytes.take (slotCapacity s - s.cbf.assigned)) s) :=
      h.eases (.of_kept ⟨rfl, rfl, rfl⟩)
    simp only [acceptData]
    split
    · exact crossing_quota hassign hw i _
    · exact hassign
  simp only [dataReq]
  repeat' split
  · exact h.eases (.of_kept ⟨rfl, rfl, rfl⟩)
  · exact h.eases (.of_kept ⟨rfl, rfl, rfl⟩)
  · next hw _ _ _ _ => exact (haccept hw _).settles (.of_kept ⟨rfl, rfl, rfl⟩)
  · exact h.eases ((addLost_eases _ _ s).trans (.of_kept ⟨rfl, rfl, rfl⟩))
  · exact h.eases (.of_kept ⟨rfl, rfl, rfl⟩)

end Sys2Proof.Machine
end

section
/-! Fifth law (R102, R110): the mount, the transfers' ends, and every row. -/

namespace Sys2Proof.Machine

variable {s t u : State} {i n : Nat} {e : Entry}

/-! ## The mount (R97 to R102) -/

theorem QuotaLaw.numbered (h : QuotaLaw s) (hw : s.cwr.writer = .mounting) : LocksNumbered s.sdr.entries := by
  obtain ⟨-, -, hs⟩ := h
  exact hs hw

/-- A mount's law with the port free. -/
theorem quotaLaw_mounting (hw : s.cwr.writer = .mounting) (hs : LocksNumbered s.sdr.entries) : QuotaLaw s := by
  refine ⟨(mountLaw_iff s).mpr fun _ => hw, fun hup => ?_, fun _ => hs⟩
  simp [hw, directoryUp] at hup

/-- R102: the completed mount has released what was over the quota. -/
theorem completeMount_quota (hp : s.cwr.port = none) (hs : LocksNumbered s.sdr.entries) (conflicts : Nat) :
    QuotaLaw (completeMount conflicts s) := by
  have hwithin : impactLocks (releaseExcess s.sdr.entries.length s).1.sdr.entries ≤ quotaOf s :=
    releaseExcess_within _ s ((List.length_filter_le _ _).trans (Nat.le_add_left _ _)) hs
  have hport : (releaseExcess s.sdr.entries.length s).1.cwr.port = none := by simpa using hp
  have hgeo : quotaOf (releaseExcess s.sdr.entries.length s).1 = quotaOf s :=
    quotaOf_congr (congrArg Slots.geo (releaseExcess_kept s.sdr.entries.length s).1)
  simp only [completeMount]
  generalize releaseExcess s.sdr.entries.length s = r at hwithin hport hgeo
  refine settle_quota ⟨fun x hx => ?_, fun _ => ?_, fun hm => ?_⟩
  · exact nomatch hport.symm.trans hx
  · exact (quotaOf_congr (t := setWriter .ready r.1) (s := r.1) rfl).symm ▸ hgeo ▸ hwithin
  · cases hm

theorem completeScan_quota (hp : s.cwr.port = none) (hs : LocksNumbered s.sdr.entries) : QuotaLaw (completeScan s) := by
  obtain ⟨-, hmem, -, -⟩ := dropConflicts_spec s.sdr.entries []
  refine completeMount_quota (s := { s with sdr := { s.sdr with
    entries := (dropConflicts [] s.sdr.entries).1
    nextSeq := (nextNumbers (dropConflicts [] s.sdr.entries).1).1
    nextRec := (nextNumbers (dropConflicts [] s.sdr.entries).1).2 } }) hp (fun e he hi => ?_) _
  obtain hold | rfl := hmem e he
  · exact hs e hold hi
  · simp [freeEntry, noLocks] at hi

theorem mountStep_quota (hw : s.cwr.writer = .mounting) (hp : s.cwr.port = none) (hs : LocksNumbered s.sdr.entries)
    (i : Nat) : QuotaLaw (mountStep i s) := by
  simp only [mountStep]
  repeat' split
  · exact quotaLaw_mounting hw hs
  · exact quotaLaw_mounting hw hs
  · exact quotaLaw_mounting hw hs
  · exact completeMount_quota (s := { s with sdr := { s.sdr with nextSeq := some 1, nextRec := 1 } }) hp hs 0
  · exact completeScan_quota hp hs

theorem mountEntry_quota (h : QuotaLaw s) (hw : s.cwr.writer = .mounting) (i : Nat)
    (he : e.locks.impact = true → e.sequence ≠ none) : QuotaLaw (mountEntry i e s) := by
  refine mountStep_quota (s := { s with
    sdr := { s.sdr with entries := s.sdr.entries ++ [e] }
    cwr := { s.cwr with port := none } }) hw rfl (fun x hx hi => ?_) (i + 1)
  rcases List.mem_append.mp hx with hx | hx
  · exact h.numbered hw x hx hi
  · rw [List.mem_singleton.mp hx] at hi ⊢
    exact he hi

/-- R205: a locked slot read at a mount has a sequence. -/
theorem classify_numbered (g : Geometry) (block : List Byte) :
    (classify g block).locks.impact = true → (classify g block).sequence ≠ none := by
  simp only [classify]
  (repeat' split) <;> simp [freeEntry, noLocks]

theorem broughtUp_quota (h : QuotaLaw s) (hw : s.cwr.writer = .mounting) (capacity : Nat) :
    QuotaLaw (broughtUp capacity s) := by
  simp only [broughtUp]
  repeat' split
  · exact h
  · exact mountFailed_quota _ _
  · exact mountStep_quota (s := setPort none s) hw rfl (h.numbered hw) 0

/-- A mount's transfer has the port in MOUNTING alone (R124). -/
theorem QuotaLaw.mounting (h : QuotaLaw s) {x : Xfer} (hp : portOp s = some x) (hx : isMount x = true) :
    s.cwr.writer = .mounting := by
  obtain ⟨hm, -, -⟩ := h
  rw [mountLaw_iff] at hm
  refine hm ?_
  have hb : bound x = true := by cases x <;> simp_all [isMount, bound]
  have hwork : workOf s.cwr.port = some x := by
    simp only [workOf, show s.cwr.port.map Transfer.op = some x from hp, Option.filter, hb, if_true]
  simp [mountWork, hwork, Option.filter, hx]

theorem startMount_quota (g : Geometry) (s : State) : QuotaLaw (startMount g s) :=
  quotaLaw_mounting rfl fun _ he => absurd he List.not_mem_nil

/-! ## The transfers' ends -/

theorem unitWritten_eases (i n : Nat) (s : State) : Eases s (unitWritten i n s) :=
  Eases.trans (t := { s with cbf := { s.cbf with segs := dropBytes n s.cbf.segs } }) (.of_kept ⟨rfl, rfl, rfl⟩)
    (modEntry_eases_same i (f := fun e => { e with streamBytes := e.streamBytes + n }) (fun _ => ⟨rfl, rfl⟩) _)

theorem blockWritten_eases (i n : Nat) (s : State) : Eases s (blockWritten i n s) :=
  Eases.trans (t := { s with cbf := { s.cbf with pend := s.cbf.pend.drop n } }) (.of_kept ⟨rfl, rfl, rfl⟩)
    (modEntry_eases_same i (f := fun e => { e with motionRecords := e.motionRecords + n }) (fun _ => ⟨rfl, rfl⟩) _)

theorem countUnit_eases (i : Nat) (s : State) : Eases s (countUnit i s) := by
  simp only [countUnit]
  split
  · have hcount : Eases s { s with cwr := { s.cwr with units := s.cwr.units + 1 } } := .of_kept ⟨rfl, rfl, rfl⟩
    split
    · exact hcount.trans (enqueue_eases i _)
    · exact hcount
  · exact .refl s

theorem unitDone_quota (h : QuotaLaw s) (i n : Nat) : QuotaLaw (unitDone i n s) := by
  refine h.settles ((freePort_eases s).trans ((unitWritten_eases i n _).trans ?_))
  exact Eases.trans (t := unitTaken (unitWritten i n (setPort none s))) (.of_kept ⟨rfl, rfl, rfl⟩) (countUnit_eases i _)

theorem blockDone_quota (h : QuotaLaw s) (i n : Nat) : QuotaLaw (blockDone i n s) :=
  h.settles ((freePort_eases s).trans ((blockWritten_eases i n _).trans (.of_kept ⟨rfl, rfl, rfl⟩)))

theorem unitCompletion_quota (h : QuotaLaw s) : QuotaLaw (unitCompletion s) := by
  simp only [unitCompletion]
  split
  · exact unitDone_quota h _ _
  · exact h

theorem commitSlot_eases (i : Nat) (reason : CloseReason) (spent : Nat) (unsaved : List Nat) (s : State) :
    Eases s (commitSlot i reason spent unsaved s) := by
  have hclosed : Eases s (modEntry i (fun e => { e with st := .closed, reason := some reason }) (loseRecords i s)) :=
    (loseRecords_eases i s).trans
      (modEntry_eases_same i (f := fun e => { e with st := .closed, reason := some reason }) (fun _ => ⟨rfl, rfl⟩) _)
  simp only [commitSlot]
  split
  · exact hclosed
  · exact hclosed.trans (raise_eases _ _)

theorem closeNext_eases (i : Nat) (s : State) : Eases s (closeNext i s) := by
  simp only [closeNext]
  split
  · exact .refl s
  · split
    · exact modClose_eases _ s
    · exact (modClose_eases _ s).trans (setSlotState_eases .closing _ _)

theorem closedDone_quota (h : QuotaLaw s) (i : Nat) (reason : CloseReason) : QuotaLaw (closedDone i reason s) := by
  have hcommit := (freePort_eases s).trans (commitSlot_eases i reason 0 [] _)
  simp only [closedDone]
  generalize commitSlot i reason 0 [] (setPort none s) = u at hcommit
  have hreason : Eases u { u with cwr := { u.cwr with closeReason := none } } := .of_kept ⟨rfl, rfl, rfl⟩
  refine h.settles (hcommit.trans ?_)
  split
  · next hw =>
    exact hreason.trans ((setWriter_eases (w := .ready) (by simp [hw, directoryUp]) rfl).trans
      (.of_same (by simp) (by simp) (by simp) (by simp)))
  · exact closeNext_eases i u
  · exact hreason

theorem openingDone_quota (h : QuotaLaw s) (i : Nat) : QuotaLaw (openingDone i s) := by
  have hwritten := (freePort_eases s).trans
    (modEntry_eases_same i (f := fun e => { e with headerWritten := true }) (fun _ => ⟨rfl, rfl⟩) _)
  simp only [openingDone]
  generalize modEntry i (fun e => { e with headerWritten := true }) (setPort none s) = u at hwritten
  have hevent : Eases u (openedEvent i u) := .of_kept (by simp)
  refine h.settles (hwritten.trans (hevent.trans ?_))
  generalize openedEvent i u = x
  split
  · next hr =>
    have hup : directoryUp x.cwr.writer = true := by simp [hr.1, directoryUp]
    simp only [endRollover]
    split
    · exact Eases.trans (t := { x with cwr := { x.cwr with closeReason := none } }) (.of_kept ⟨rfl, rfl, rfl⟩)
        (setWriter_eases hup rfl)
    · next reason _ =>
      refine Eases.trans (t := { x with cwr := { x.cwr with closeReason := some reason, stopMark := none } })
        (.of_kept ⟨rfl, rfl, rfl⟩) ((setSlotState_eases .closing i _).trans (setWriter_eases (by simpa using hup) rfl))
  · exact .refl x

theorem emDone_quota (h : QuotaLaw s) : QuotaLaw (emDone s) := by
  simp only [emDone]
  repeat' split
  · exact h
  · exact h.settles (freePort_eases s)
  · exact unitDone_quota h _ _
  · exact blockDone_quota h _ _
  · exact h.settles ((freePort_eases s).trans ((commitSlot_eases _ _ _ _ _).trans (closeNext_eases _ _)))
  · exact h

theorem emUpdateFailed_quota (h : QuotaLaw s) (i : Nat) : QuotaLaw (emUpdateFailed i s) :=
  h.settles ((freePort_eases s).trans ((enqueue_eases i _).trans (modClose_eases _ _)))

theorem emWriteFailed_quota (h : QuotaLaw s) : QuotaLaw (emWriteFailed s) :=
  h.settles ((freePort_eases s).trans (modClose_eases _ _))

theorem transferFailed_quota (h : QuotaLaw s) {x : Transfer} (hp : s.cwr.port = some x) :
    QuotaLaw (transferFailed x s) := by
  have hop : portOp s = some x.op := by simp [portOp, hp]
  have hbad : badEntry.locks.impact = true → badEntry.sequence ≠ none := by simp [badEntry, freeEntry, noLocks]
  have hwrite (kind : WriteKind) (i : Nat) : QuotaLaw (if s.cwr.writer == .emergencyClose then emWriteFailed s
      else writerFault i x.addr kind s) := by
    split
    · exact emWriteFailed_quota h
    · exact writerFault_quota _ _ _ _
  simp only [transferFailed]
  split
  · exact mountFailed_quota _ _
  · next ho => exact mountEntry_quota h (h.mounting (hop.trans (congrArg some ho)) rfl) _ hbad
  · next ho => exact mountEntry_quota h (h.mounting (hop.trans (congrArg some ho)) rfl) _ hbad
  · split
    · exact emUpdateFailed_quota h _
    · exact writerFault_quota _ _ _ _
  · exact hwrite .header _
  · exact writerFault_quota _ _ _ _
  · exact hwrite .streamUnit _
  · exact hwrite .motionBlock _
  · split
    · exact h.settles ((endMotionRead_eases .notReady s).trans (freePort_eases _))
    · exact h.settles (freePort_eases s)
  · exact emUpdateFailed_quota h _
  · exact emWriteFailed_quota h
  · exact emWriteFailed_quota h
  · exact writerFault_quota _ _ _ _

theorem attemptFailed_quota (h : QuotaLaw s) : QuotaLaw (attemptFailed s) := by
  simp only [attemptFailed]
  split
  · exact h
  · next x hp =>
    split
    · exact h.eases (.of_same rfl rfl rfl (by simp [setPort, workOf, hp]))
    · exact transferFailed_quota h hp

theorem attemptTimeout_quota (h : QuotaLaw s) : QuotaLaw (attemptTimeout s) := by
  simp only [attemptTimeout]
  repeat' split
  · exact h
  · exact attemptFailed_quota h
  · exact h

theorem emFailed_quota (h : QuotaLaw s) : QuotaLaw (emFailed s) := by
  simp only [emFailed]
  split
  · exact h
  · next x hp =>
    repeat' split
    · exact transferFailed_quota h hp
    · exact transferFailed_quota h hp
    · exact transferFailed_quota h hp
    · exact transferFailed_quota h hp
    · exact h

theorem readDone_quota (h : QuotaLaw s) (wanted : Bool) (blocks : List Byte) : QuotaLaw (readDone wanted blocks s) := by
  simp only [readDone]
  split
  · exact h.settles ((freePort_eases s).trans (.of_kept ⟨rfl, rfl, rfl⟩))
  · exact h.settles (freePort_eases s)

theorem removed_quota (h : QuotaLaw s) : QuotaLaw (removed s) := by
  simp only [removed]
  repeat' split
  · exact h.eases (.of_kept ⟨rfl, rfl, rfl⟩)
  · exact (giveUpCard_quota (w := .unmounted) rfl (by simp)
      (endUnmount .state (endMotionRead .noCard (setPresent false s)))).eases
      (.of_same (by simp) (by simp) (by simp) (by simp))
  · exact h

/-! ## Frames, the tick, the guard and the rail -/

theorem takeSample_quota (h : QuotaLaw s) (frame : Word) : QuotaLaw (takeSample frame s) := by
  obtain ⟨u, hu⟩ : ∃ u, u = { s with csu := { s.csu with
      ring := pushRing s.csu.ring (recordOf frame s), carried := Carried.empty, sample := none } } := ⟨_, rfl⟩
  have hring : Eases s u := hu ▸ .of_kept ⟨rfl, rfl, rfl⟩
  have hintake : Eases u (intake (recordOf frame s) u) := by
    simp only [intake]
    repeat' split
    · exact .refl u
    · exact modEntry_eases_same _ (f := fun e => { e with motionDropped := satAdd32 e.motionDropped 1 })
        (fun _ => ⟨rfl, rfl⟩) u
    · simp only [admitRecord]
      split
      · exact (modEntry_eases_same _ (f := fun e => { e with firstFrame := some (recordOf frame s).frame })
          (fun _ => ⟨rfl, rfl⟩) u).trans (.of_kept ⟨rfl, rfl, rfl⟩)
      · exact .of_kept ⟨rfl, rfl, rfl⟩
    · exact .refl u
  simp only [takeSample, produce, ← hu]
  exact h.settles (hring.trans (hintake.trans (.of_kept (by simp))))

theorem forceSample_quota (h : QuotaLaw s) : QuotaLaw (forceSample s) := by
  simp only [forceSample]
  split
  · exact h
  · exact takeSample_quota h _

theorem countFrame_quota (h : QuotaLaw s) : QuotaLaw (countFrame s) := by
  simp only [countFrame]
  have hcount : QuotaLaw { s with csu := { s.csu with frame := s.csu.frame + 1 } } :=
    h.eases (.of_kept ⟨rfl, rfl, rfl⟩)
  repeat' split
  · exact hcount
  · exact takeSample_quota hcount _
  · exact h.eases (.of_kept ⟨rfl, rfl, rfl⟩)

theorem cropStep_quota (h : QuotaLaw s) : QuotaLaw (cropStep s) := by
  simp only [cropStep]
  repeat' split
  · exact h
  · exact takeSample_quota h _
  · exact h

theorem requestLocks_quota (h : QuotaLaw s) : QuotaLaw (requestLocks s).1 := by
  simp only [requestLocks]
  split
  · next hw =>
    refine lockRequest_quota h ?_ _ _ _
    cases hx : s.cwr.writer <;> simp [hx, locksImpacts] at hw <;> rfl
  · exact h

theorem impact_quota (h : QuotaLaw s) : QuotaLaw (impact s) := by
  have hpark : QuotaLaw (startPark { s with msu := holdRearm s.msu s.now }) := h.eases (.of_kept (by simp))
  simp only [impact]
  exact (requestLocks_quota hpark).settles (.of_kept (by simp))

theorem tickStep_quota (h : QuotaLaw s) : QuotaLaw (tickStep s) := by
  have hwork : QuotaLaw (tickWork s) := by
    simp only [tickWork]
    generalize hu : learnBias (carry _ _) = u
    have h1 : QuotaLaw u := h.eases (.of_kept (by simp [← hu]))
    have h2 : QuotaLaw (if impactNow s.msu = true then impact u else u) := by
      split
      · exact impact_quota h1
      · exact h1
    generalize (if impactNow s.msu = true then impact u else u) = x at h2
    exact h2.eases (.of_kept (by (repeat' split) <;> simp))
  have hread : QuotaLaw (if s.msu.read = .idle then s else tickWork s) := by
    split
    · exact h
    · exact hwork
  simp only [tickStep]
  exact hread.eases (.of_kept (by simp))

theorem tripGuard_quota (h : QuotaLaw s) (cause : Trip) : QuotaLaw (tripGuard cause s) := by
  have hpark : Eases s (addParkAll .guard (setGuard .tripped (some cause) none s)) := .of_kept (by simp)
  simp only [tripGuard]
  exact h.settles (hpark.trans ((askStop_eases .guard _).trans (.of_kept (by simp))))

theorem checkIn_quota (h : QuotaLaw s) : QuotaLaw (checkIn s) := by
  simp only [checkIn]
  split
  · exact h
  · exact tripGuard_quota h _
  · exact h.eases (.of_kept (by simp))
  · exact h.eases (.of_kept (by simp))

theorem windowExpiry_quota (h : QuotaLaw s) : QuotaLaw (windowExpiry s) := by
  simp only [windowExpiry]
  split
  · exact tripGuard_quota h _
  · exact h

theorem rideExpiry_quota (h : QuotaLaw s) : QuotaLaw (rideExpiry s) := by
  simp only [rideExpiry]
  repeat' split
  · next hw =>
    refine QuotaLaw.settles (s := supplyEvent .emergency s.ssv.st true _
      { s with ssv := { s.ssv with st := .emergency, timerEnd := none } }) (h.eases (.of_kept (by simp)))
      (by simpa [hw] using startClose_eases (by simpa using hw))
  · exact h.eases (.of_kept (by simp))
  · exact h

/-! ## The requests -/

theorem setLocks_eases (i : Nat) {l : LockSet} (hl : ∀ e, entryAt s i = some e → l.impact = true →
    e.locks.impact = true) : Eases s (setLocks i l s) := by
  simp only [setLocks]
  split
  · exact .refl s
  · next e he =>
    split
    · exact .refl s
    · refine Eases.trans (t := modEntry i (fun e => { e with locks := l }) s)
        (.of_entries (by simp) (by simp) (by simp) ?_) (enqueue_eases i _)
      rw [modEntry_rewritten, List.forall₂_iff_get]
      refine ⟨by simp [rewritten], fun j hj hj' => ?_⟩
      simp only [rewritten, List.get_eq_getElem, List.getElem_mapIdx]
      split
      · next hji =>
        subst hji
        exact fun hi => ⟨hl _ (List.getElem?_eq_getElem hj) hi, id⟩
      · exact EntryEases.refl _

theorem slotLockReq_quota (h : QuotaLaw s) (code tag : Byte) (on : Bool) (slot : Half) (kind : Byte) :
    QuotaLaw (slotLockReq code tag on slot kind s) := by
  simp only [slotLockReq]
  repeat' split
  · exact h.eases (.of_kept ⟨rfl, rfl, rfl⟩)
  · exact h.eases (.of_kept ⟨rfl, rfl, rfl⟩)
  · exact h.eases (.of_kept ⟨rfl, rfl, rfl⟩)
  · exact h.eases (.of_kept ⟨rfl, rfl, rfl⟩)
  · exact h.eases (.of_kept ⟨rfl, rfl, rfl⟩)
  · next k _ _ _ e he hon _ =>
    refine h.settles ((setLocks_eases slot.toNat fun x hx hi => ?_).trans (.of_kept ⟨rfl, rfl, rfl⟩))
    cases he.symm.trans hx
    cases k <;> simp_all [locksAfter]

theorem mountReq_quota (h : QuotaLaw s) (tag : Byte) (base len regionId : Word) (units motion : Half)
    (quota format : Byte) : QuotaLaw (mountReq tag base len regionId units motion quota format s) := by
  simp only [mountReq]
  repeat' split
  · exact h.eases (.of_kept ⟨rfl, rfl, rfl⟩)
  · exact h.eases (.of_kept ⟨rfl, rfl, rfl⟩)
  · exact (startMount_quota _ s).eases (.of_kept ⟨rfl, rfl, rfl⟩)

theorem beginRead_quota (h : QuotaLaw s) (tag : Byte) (i k n : Nat) : QuotaLaw (beginRead tag i k n s) :=
  h.settles (.of_kept ⟨rfl, rfl, rfl⟩)

theorem answer_quota (h : QuotaLaw s) (kind tag : Byte) (st : Status) (data : List Byte) :
    QuotaLaw (answer kind tag st data s) :=
  h.eases (.of_kept ⟨rfl, rfl, rfl⟩)

theorem setCursor_quota (h : QuotaLaw s) (c : Option Cursor) : QuotaLaw (setCursor c s) :=
  h.eases (.of_kept ⟨rfl, rfl, rfl⟩)

theorem readStart_quota (h : QuotaLaw s) (tag : Byte) (i n : Nat) (e : Entry) : QuotaLaw (readStart tag i n e s) := by
  simp only [readStart]
  repeat' split
  · exact answer_quota h _ _ _ _
  · exact answer_quota (setCursor_quota h none) _ _ _ _
  · exact beginRead_quota (setCursor_quota h (some ⟨i, 0, false⟩)) _ _ _ _

theorem readContinue_quota (h : QuotaLaw s) (tag : Byte) (i n : Nat) (e : Entry) :
    QuotaLaw (readContinue tag i n e s) := by
  simp only [readContinue]
  repeat' split
  · exact answer_quota h _ _ _ _
  · exact answer_quota h _ _ _ _
  · exact answer_quota (setCursor_quota h none) _ _ _ _
  · exact beginRead_quota h _ _ _ _

theorem motionReadReq_quota (h : QuotaLaw s) (tag : Byte) (slot : Half) (mode count : Byte) :
    QuotaLaw (motionReadReq tag slot mode count s) := by
  simp only [motionReadReq]
  repeat' split
  · exact answer_quota h _ _ _ _
  · exact answer_quota h _ _ _ _
  · exact answer_quota h _ _ _ _
  · exact answer_quota h _ _ _ _
  · exact readContinue_quota h _ _ _ _
  · exact readStart_quota h _ _ _ _

theorem runRequest_quota (i : Instr) (h : QuotaLaw s) : QuotaLaw (runRequest i s) := by
  cases i
  case checkin tag => exact (checkIn_quota h).eases (.of_kept (by simp [runRequest, checkinReq]))
  case mount => exact mountReq_quota h _ _ _ _ _ _ _ _
  case unmount =>
    simp only [runRequest, unmountReq]
    split
    · exact h.settles (.of_kept ⟨rfl, rfl, rfl⟩)
    · exact h.eases (.of_kept ⟨rfl, rfl, rfl⟩)
  case recStart => exact recStartReq_quota h _
  case recStop =>
    simp only [runRequest, recStopReq]
    split
    · exact h.settles ((askStop_eases .stop s).trans (.of_kept ⟨rfl, rfl, rfl⟩))
    · exact h.eases (.of_kept ⟨rfl, rfl, rfl⟩)
  case data => exact dataReq_quota h _ _
  case slotLockOn | slotLockOff => exact slotLockReq_quota h _ _ _ _ _
  case motionRead => exact motionReadReq_quota h _ _ _ _
  all_goals exact h.eases (.of_kept (by simp [runRequest]))

theorem takeFrame_quota (bytes : List Byte) (h : QuotaLaw s) : QuotaLaw (takeFrame bytes s) := by
  simp only [takeFrame]
  split
  · exact runRequest_quota _ h
  all_goals exact h.eases (.of_kept ⟨rfl, rfl, rfl⟩)

/-! ## Resets (R197 to R201) -/

theorem beginReset_eases (c : ResetCause) (s : State) : Eases s (beginReset c s) := by
  simp only [beginReset]
  split
  · exact .of_kept ⟨rfl, rfl, rfl⟩
  · exact ⟨rfl, .inl rfl, .inl rfl, entriesEase_refl _⟩

/-- R103: a reset leaves no directory. -/
theorem quotaLaw_unmounted (hw : s.cwr.writer = .unmounted) (hp : s.cwr.port = none) : QuotaLaw s := by
  refine ⟨fun x hx => ?_, fun hup => ?_, fun hm => ?_⟩
  · exact nomatch hp.symm.trans hx
  · simp [hw, directoryUp] at hup
  · exact nomatch hw.symm.trans hm

theorem finishReset_quota (h : QuotaLaw s) : QuotaLaw (finishReset s) := by
  have hpow : QuotaLaw (powerOnState s) := quotaLaw_unmounted rfl rfl
  simp only [finishReset, rideAtStart]
  repeat' split
  · exact hpow.eases (.of_kept (by simp))
  · exact hpow
  · exact quotaLaw_unmounted rfl rfl
  · exact h

theorem requestReset_quota (h : QuotaLaw s) : QuotaLaw (requestReset s) :=
  finishReset_quota (h.eases (beginReset_eases .request s))

theorem readTransaction_quota (n : Nat) (h : QuotaLaw s) : QuotaLaw (readTransaction n s) := by
  have hl : QuotaLaw { s with lnk := linkAfterRead n s.lnk } := h.eases (.of_kept ⟨rfl, rfl, rfl⟩)
  simp only [readTransaction]
  split
  · exact (requestReset_quota hl).eases (.of_kept ⟨rfl, rfl, rfl⟩)
  · exact hl

/-! ## The rows -/

theorem rowEffect_quota (i : Instr) (h : QuotaLaw s) : QuotaLaw (rowEffect i s) := by
  cases i
  case brownout =>
    simp only [rowEffect, brownout]
    split
    · exact h
    · exact h.eases ((beginReset_eases .brownout s).trans (.of_kept ⟨rfl, rfl, rfl⟩))
  case railBelowPowerOnLevel =>
    simp only [rowEffect, belowPowerOnLevel]
    split
    · exact h.eases ((beginReset_eases .powerOn s).trans (.of_kept ⟨rfl, rfl, rfl⟩))
    · exact h
  case powerOnResetEnd =>
    simp only [rowEffect, supplyBack]
    repeat' split
    · exact finishReset_quota (h.eases (.of_kept ⟨rfl, rfl, rfl⟩))
    · exact h
    · exact h.eases (.of_kept (by simp only [riseToWarn]; split <;> simp))
    · exact h
  case rstnLow =>
    simp only [rowEffect, lineFalls]
    split
    · exact h
    · exact h.eases ((beginReset_eases .line s).trans (.of_kept ⟨rfl, rfl, rfl⟩))
  case rstnHigh =>
    simp only [rowEffect, lineRises]
    split
    · exact finishReset_quota (h.eases (.of_kept ⟨rfl, rfl, rfl⟩))
    · exact h
  case resetWaitExpiry =>
    simp only [rowEffect, waitExpiry]
    repeat' split
    · exact h
    · exact requestReset_quota h
    · exact h
  case readTransaction => exact readTransaction_quota _ h
  case railBelowWarn | railRecover | railBelowRecover =>
    simp only [rowEffect]
    (repeat' split) <;> exact h.eases (.of_kept (by simp))
  case writeTransaction =>
    simp only [rowEffect]
    repeat' split
    · exact h
    · exact readTransaction_quota _ h
    · exact takeFrame_quota _ h
  case tick => exact tickStep_quota h
  case sensorLost | sensorRestored | biasLearned | impactQualify => exact stepThat_keeps h (tickStep_quota h)
  case batteryAbsent | batteryPresent | sourcePresent | sourceLost | iEffRaise | chargeDone =>
    exact stepThat_keeps h (h.eases (.of_kept (by simp)))
  case fsyncEdge => exact countFrame_quota ((forceSample_quota h).eases (.of_kept (by simp)))
  case cropSample => exact cropStep_quota h
  case checkpoint => exact stepThat_keeps h (unitCompletion_quota h)
  case unitWriteDone => exact unitCompletion_quota h
  case bringUpDone capacity =>
    simp only [rowEffect]
    split
    · next hp => exact broughtUp_quota h (h.mounting hp rfl) _
    · exact h
  case formatHeaderDone =>
    simp only [rowEffect]
    split
    · next hp => exact mountEntry_quota h (h.mounting hp rfl) _ (by simp [freeEntry, noLocks])
    · exact h
  case scanReadDone =>
    simp only [rowEffect]
    split
    · next hp _ =>
      split
      · exact mountEntry_quota h (h.mounting hp rfl) _ (classify_numbered _ _)
      · exact h
    · exact h
  case blockWriteDone =>
    simp only [rowEffect]
    split
    · exact blockDone_quota h _ _
    · exact h
  case headerUpdateDone =>
    simp only [rowEffect]
    split
    · exact h.settles (freePort_eases s)
    · exact h
  case openingHeaderDone =>
    simp only [rowEffect]
    split
    · exact openingDone_quota h _
    · exact h
  case closedHeaderDone =>
    simp only [rowEffect]
    split
    · exact closedDone_quota h _ _
    · exact h
  case hostReadDone =>
    simp only [rowEffect]
    repeat' split
    · exact h
    · exact readDone_quota h _ _
    · exact h
    · exact h
  case cardAttemptFailed => exact attemptFailed_quota h
  case cardAttemptTimeout => exact attemptTimeout_quota h
  case motionReadTimeout =>
    simp only [rowEffect, motionTimeout]
    repeat' split
    · exact h.eases (endMotionRead_eases _ s)
    · exact h
    · exact h
  case cardRemoved => exact removed_quota h
  case rideThroughExpiry => exact rideExpiry_quota h
  case emergencyWriteDone => exact emDone_quota h
  case emergencyWriteFailed => exact emFailed_quota h
  case windowTimerExpiry => exact windowExpiry_quota h
  case cdetChange | ocComparatorChange | sensorReadDone | rearmHoldExpiry | impactParkExpiry | frameGetTimeout |
      pwmPeriodStart | overcurrentFault | retryDelayExpiry | cleanRunExpiry | cardInserted | stableTimeReached |
      quietTimerExpiry | scanConversion =>
    exact h.eases (.of_kept (by simp [rowEffect]))
  all_goals exact runRequest_quota _ h

/-- Settles O56: every row's effect keeps the fifth law. -/
theorem quotaLawIsKept : Obligations.QuotaLawIsKept := fun _ _ =>
  step_keeps (fun _ _ h => h.eases (.of_kept ⟨rfl, rfl, rfl⟩)) (fun _ h => h.eases (.of_kept ⟨rfl, rfl, rfl⟩))
    fun i _ _ h => rowEffect_quota i h

end Sys2Proof.Machine
end

section
/-! PROOFS. Every command answers a next state (O3): a gate always answers one, and the two completions that bring card
data look at its length. -/

namespace Sys2Proof.Machine

/-- A transaction passes one gate or the other. -/
theorem transaction_answers (bytes : List Byte) (s : State) : ∃ t, transaction bytes s = .next t := by
  cases bytes with
  | nil => exact ⟨_, rfl⟩
  | cons b rest =>
      simp only [transaction]
      split
      · exact ⟨_, rfl⟩
      · exact ⟨_, rfl⟩

/-- R99: only a header of another length than one block stops the mount's scan. -/
theorem scanReadDone_answers (block : List Byte) (s : State) :
    (∃ t, execScanReadDone block s = .next t) ∨
      (execScanReadDone block s = .fault .badBlockLength ∧ Awake s ∧ block.length ≠ 512 ∧
        ∃ x k, s.cwr.port = some x ∧ x.op = .scanRead k) := by
  simp only [execScanReadDone]
  split
  · exact .inl ⟨_, rfl⟩
  · next ha =>
    split
    · next k g hp hg =>
      split
      · exact .inl ⟨_, rfl⟩
      · next hl =>
        obtain ⟨x, hx, hop⟩ := Option.map_eq_some_iff.mp hp
        exact .inr ⟨rfl, eq_false_of_ne_true ha, hl, x, k, hx, hop⟩
    · exact .inl ⟨_, rfl⟩

/-- R139: only data that is not the blocks asked for stops a host read. -/
theorem hostReadDone_answers (blocks : List Byte) (s : State) :
    (∃ t, execHostReadDone blocks s = .next t) ∨
      (execHostReadDone blocks s = .fault .badBlockLength ∧ Awake s ∧
        ∃ x w, s.cwr.port = some x ∧ x.op = .hostRead w ∧ blocks.length ≠ 512 * x.blocks) := by
  simp only [execHostReadDone]
  split
  · exact .inl ⟨_, rfl⟩
  · next ha =>
    split
    · exact .inl ⟨_, rfl⟩
    · next x hx =>
      split
      · next w hop =>
        split
        · exact .inl ⟨_, rfl⟩
        · next hl => exact .inr ⟨rfl, eq_false_of_ne_true ha, x, w, hx, hop, hl⟩
      · exact .inl ⟨_, rfl⟩

/-- Settles O3: the gates and the pins answer a next state whatever the operation, so only the two completions that
carry card data remain. -/
theorem commandsAnswer : Obligations.CommandsAnswer := by
  unfold Obligations.CommandsAnswer
  intro i s
  cases i
  case writeTransaction clocks => exact .inl (transaction_answers _ s)
  case scanReadDone b =>
    refine (scanReadDone_answers b s).imp_right fun ⟨hf, ha, hl, x, k, hx, hop⟩ => ?_
    exact ⟨hf, ha, x, hx, .inl ⟨k, b, hop, rfl, hl⟩⟩
  case hostReadDone b =>
    refine (hostReadDone_answers b s).imp_right fun ⟨hf, ha, x, w, hx, hop, hl⟩ => ?_
    exact ⟨hf, ha, x, hx, .inr ⟨w, b, hop, rfl, hl⟩⟩
  all_goals exact .inl ⟨_, rfl⟩

end Sys2Proof.Machine
end

section
/-! What an emergency close does on a free port, said once (R173 to R181): the equation of each of its writes, the
parts it goes through, and what settling the port then makes of it. -/

namespace Sys2Proof.Machine

/-! ## A write of the close -/

/-- The close's record `c` has charged `n` units for the transfer `x` of part `p`. -/
def closeCharged (c : EmergencyClose) (n : Nat) (p : ClosePart) (x : Option Transfer) (s : State) : State :=
  { s with
    cwr := { s.cwr with port := x }
    ssv := { s.ssv with close := some { c with left := c.left - n, part := p } } }

/-- A write that is begun pays, and says its part. -/
theorem charge_begin {c : EmergencyClose} {s : State} (hc : s.ssv.close = some c) (n : Nat) (p : ClosePart) (op : Xfer)
    (addr blocks : Nat) (bytes : List Byte) :
    charge n (begin op addr blocks bytes (setPart p s)) =
      closeCharged c n p (some ⟨op, addr, blocks, bytes, 1, s.now⟩) s := by
  simp [charge, begin, setPort, setPart, modClose, closeCharged, hc]

theorem charge_beginUnit {c : EmergencyClose} {s : State} {g : Geometry} (hc : s.ssv.close = some c)
    (hg : s.sdr.geo = some g) (n : Nat) (p : ClosePart) (op : Xfer) (o : Offer) :
    charge n (beginUnit op o (setPart p s)) = closeCharged c n p (some (unitTransfer op g o s)) s := by
  have hg' : (setPart p s).sdr.geo = some g := hg
  simp only [beginUnit, withGeo, hg']
  exact charge_begin hc n p op _ _ _

theorem charge_beginBlock {c : EmergencyClose} {s : State} {g : Geometry} (hc : s.ssv.close = some c)
    (hg : s.sdr.geo = some g) (n : Nat) (p : ClosePart) (op : Xfer) (o : Offer) :
    charge n (beginBlock op o (setPart p s)) = closeCharged c n p (some (blockTransfer op g o s)) s := by
  have hg' : (setPart p s).sdr.geo = some g := hg
  simp only [beginBlock, withGeo, hg']
  exact charge_begin hc n p op _ _ _

/-- A header write of a slot without an entry is charged and leaves the port free. -/
theorem charge_beginHeader {c : EmergencyClose} {s : State} {g : Geometry} (hc : s.ssv.close = some c)
    (hg : s.sdr.geo = some g) (hp : s.cwr.port = none) (n : Nat) (p : ClosePart) (op : Xfer) (i : Nat)
    (bytes : Geometry → Entry → List Byte) :
    charge n (beginHeader op i bytes (setPart p s)) =
      closeCharged c n p (headerTransfer op (bytes g) g i s) s := by
  have hg' : (setPart p s).sdr.geo = some g := hg
  have he : entryAt (setPart p s) i = entryAt s i := rfl
  simp only [beginHeader, withGeo, hg', headerTransfer, he]
  cases entryAt s i with
  | none =>
      simp only [charge, setPart, modClose, closeCharged, hc, Option.map_some, Option.map_none, ← hp]
  | some e => exact charge_begin hc n p op _ _ _

/-! ## The parts of the close -/

section
variable {c : EmergencyClose} {s : State} {g : Geometry} {k : Nat}

/-- R178: the CLOSED header. -/
theorem closeHeader_eq (hc : s.ssv.close = some c) (hg : s.sdr.geo = some g) (hp : s.cwr.port = none) :
    closeHeader k s = closeCharged c 2 .header
      (headerTransfer (.emClosed k) (closedHeader g.regionId (reasonCode .emergency)) g k s) s :=
  charge_beginHeader hc hg hp 2 .header (.emClosed k) k fun g e => closedHeader g.regionId (reasonCode .emergency) e

/-- R175: the header update of the slot at the head of the queue. -/
theorem closeUpdate_eq (hc : s.ssv.close = some c) (hg : s.sdr.geo = some g) (hp : s.cwr.port = none) (i : Nat) :
    charge 2 (grantUpdate (.emUpdate i) i (setPart .updates s)) =
      closeCharged c 2 .updates (headerTransfer (.emUpdate i) (updateHeader g) g i s)
        (dequeue i (s.sdr.queue.drop 1) s) := by
  have hcomm : dequeue i (s.sdr.queue.drop 1) (setPart .updates s) =
      setPart .updates (dequeue i (s.sdr.queue.drop 1) s) := by
    simp only [dequeue, modEntry_eq]; rfl
  have hsame : headerTransfer (.emUpdate i) (updateHeader g) g i (dequeue i (s.sdr.queue.drop 1) s) =
      headerTransfer (.emUpdate i) (updateHeader g) g i s := by
    obtain ⟨hcbf, -, hentries, hcwr⟩ := dequeue_keeps i (s.sdr.queue.drop 1) s
    exact SlotsAlike.headerTransfer_eq ⟨hentries, hcbf, by simp, by simp, by simp, by simp⟩ _ _ (fun _ => rfl) g i
  calc charge 2 (grantUpdate (.emUpdate i) i (setPart .updates s))
      = charge 2 (beginHeader (.emUpdate i) i updateHeader (setPart .updates (dequeue i (s.sdr.queue.drop 1) s))) := by
        rw [← hcomm]; rfl
    _ = closeCharged c 2 .updates _ (dequeue i (s.sdr.queue.drop 1) s) :=
        charge_beginHeader (by simpa using hc) (by simpa using hg) (by simpa using hp) 2 .updates _ i updateHeader
    _ = _ := by rw [hsame]

/-- Figure 10.4: a write fits above the reserve. -/
theorem closeMay_iff {n : Nat} (hn : 0 < n) : closeMay c n = true ↔ c.failed = false ∧ reserveOf c + n ≤ c.left := by
  simp only [closeMay, reserveOf, Bool.and_eq_true, Bool.not_eq_true', decide_eq_true_eq]
  exact and_congr_right fun _ => by omega

/-- Whether an offer is written: its slot is the one being closed, and the write fits. -/
theorem closeOffer_iff {o : Offer} {n : Nat} (hn : 0 < n) :
    (o.slot = k ∧ c.failed = false ∧ reserveOf c + n ≤ c.left) ↔ (o.slot == k && closeMay c n) = true := by
  simp [closeMay_iff hn]

/-- R177: the motion part writes the ready block of its slot, or gives its records up for the CLOSED header. -/
theorem closeMotion_eq (hc : s.ssv.close = some c) (hg : s.sdr.geo = some g) :
    closeMotion c k s =
      match (readyBlock s).filter fun o => o.slot == k && closeMay c 1 with
      | some o => closeCharged c 1 .motion (some (blockTransfer (.emBlock o.slot o.real) g o s)) s
      | none => closeHeader k (loseRecords k s) := by
  simp only [closeMotion]
  cases readyBlock s with
  | none => rfl
  | some o =>
      by_cases ho : (o.slot == k && closeMay c 1) = true
      · have hk := (closeOffer_iff (by decide)).mpr ho
        simp only [if_pos hk, Option.filter, if_pos ho, charge_beginBlock hc hg]
        obtain ⟨rfl, -⟩ := hk
        rfl
      · have hk := mt (closeOffer_iff (by decide)).mp ho
        simp only [if_neg hk, Option.filter, if_neg ho]

/-- R176: the stream part writes the ready unit of its slot, or counts what is left of it lost. -/
theorem closeStream_eq (hc : s.ssv.close = some c) (hg : s.sdr.geo = some g) :
    closeStream c k s =
      match (readyUnit s).filter fun o => o.slot == k && closeMay c 7 with
      | some o => closeCharged c 6 .stream (some (unitTransfer (.emUnit o.slot o.real) g o s)) s
      | none => closeMotion c k (loseSegment k s) := by
  simp only [closeStream]
  cases readyUnit s with
  | none => rfl
  | some o =>
      by_cases ho : (o.slot == k && closeMay c 7) = true
      · have hk := (closeOffer_iff (by decide)).mpr ho
        simp only [if_pos hk, Option.filter, if_pos ho, charge_beginUnit hc hg]
        obtain ⟨rfl, -⟩ := hk
        rfl
      · have hk := mt (closeOffer_iff (by decide)).mp ho
        simp only [if_neg hk, Option.filter, if_neg ho]

end

end Sys2Proof.Machine
end

section
/-! Where an emergency close goes on (R173 to R181): what it finds, and what it then does, as `CloseGoesOn` says. -/

namespace Sys2Proof.Machine

/-! ## What a lost segment leaves -/

/-- What the offered block is formed from, of an entry. -/
def blockView (e : Entry) : SlotState × Bool × Nat := (e.st, e.headerWritten, e.motionRecords)

/-- The ready block rests on the list and on those of the entries' fields. -/
theorem readyBlock_congr {u v : State} (he : ∀ i, (entryAt u i).map blockView = (entryAt v i).map blockView)
    (hp : u.cbf.pend = v.cbf.pend) : readyBlock u = readyBlock v := by
  have hclosing : isClosing u = isClosing v := by
    funext i
    have := he i
    simp only [isClosing]
    cases hu : entryAt u i <;> cases hv : entryAt v i <;> simp_all [blockView]
  have hwritten : headerWritten u = headerWritten v := by
    funext i
    have := he i
    simp only [headerWritten]
    cases hu : entryAt u i <;> cases hv : entryAt v i <;> simp_all [blockView]
  have hoffer : blockOffer u = blockOffer v := by
    funext i n
    have := he i
    simp only [blockOffer, hclosing, hp]
    cases hu : entryAt u i <;> cases hv : entryAt v i <;> simp_all [blockView]
  simp only [readyBlock, offeredBlock, hp, hclosing, hwritten, hoffer]

/-- A slot's lost segment, written out. -/
theorem loseSegment_eq (k : Nat) (s : State) :
    loseSegment k s = { s with
      cbf := { s.cbf with segs := s.cbf.segs.filter fun g => g.slot != k }
      sdr := { s.sdr with
        entries := rewritten k (fun e => { e with lostBytes := satAdd32 e.lostBytes (bytesOf k s.cbf.segs) })
          s.sdr.entries } } := by
  simp only [loseSegment, addLost, modEntry_eq]

/-- A slot's lost records, written out. -/
theorem loseRecords_eq (k : Nat) (s : State) :
    loseRecords k s = { s with
      cbf := { s.cbf with pend := s.cbf.pend.filter fun r => r.slot != k }
      sdr := { s.sdr with
        entries := rewritten k (fun e => { e with motionDropped := satAdd32 e.motionDropped (pendingOf k s.cbf.pend) })
          s.sdr.entries } } := by
  simp only [loseRecords, modEntry_eq]

theorem loseSegment_readyBlock (k : Nat) (s : State) : readyBlock (loseSegment k s) = readyBlock s := by
  refine readyBlock_congr (fun i => ?_) (by simp)
  simp only [loseSegment_eq, entryAt, getElem?_rewritten, Option.map_map]
  congr 1
  funext e
  by_cases hi : i = k <;> simp [hi, blockView]

/-! ## What the close finds -/

/-- The close `c` of `u` finds `v`: the port still free, the queue served as far as its part goes. -/
structure CloseFinds (c : EmergencyClose) (u v : State) : Prop where
  alike : SlotsAlike v u
  queue : v.sdr.queue = closeQueue c u
  port : v.cwr.port = none
  writer : v.cwr.writer = u.cwr.writer
  recording : v.cwr.recId = u.cwr.recId ∧ v.cwr.lastSlot = u.cwr.lastSlot
  geo : v.sdr.geo = u.sdr.geo
  ssv : v.ssv = u.ssv
  lnk : v.lnk = u.lnk
  drive : v.adu = u.adu ∧ v.chg = u.chg

/-- The state a close finds once the first part is over. -/
def afterUpdates (c : EmergencyClose) (s : State) : State :=
  if closeInUpdates c then skipQueue s.sdr.queue s else s

theorem afterUpdates_finds (c : EmergencyClose) {u : State} (hp : u.cwr.port = none) :
    CloseFinds c u (afterUpdates c (refreshOffers u)) := by
  by_cases hin : closeInUpdates c = true
  · have hk := (refreshOffers_keeps u).trans (skipQueue_keeps (refreshOffers u).sdr.queue (refreshOffers u))
    obtain ⟨hcbf, -, hentries, -⟩ := hk
    have hq := skipQueue_queue (refreshOffers u).sdr.queue (refreshOffers u) rfl
    simp only [afterUpdates, hin, if_true]
    have hcwr : (skipQueue (refreshOffers u).sdr.queue (refreshOffers u)).cwr = (refreshOffers u).cwr := by simp
    refine ⟨⟨hentries, hcbf, (congrArg Cwr.run hcwr :), (congrArg Cwr.closeReason hcwr :), by simp, by simp⟩, ?_,
      by simp [hp],
      by simp, ⟨by simp, (congrArg Cwr.lastSlot hcwr :)⟩, by simp, by simp, by simp, by simp⟩
    rw [hq, closeQueue, if_pos hin]
    rfl
  · simp only [afterUpdates, hin]
    refine ⟨⟨rfl, rfl, rfl, rfl, rfl, rfl⟩, ?_, hp, rfl, ⟨rfl, rfl⟩, rfl, rfl, rfl, ⟨rfl, rfl⟩⟩
    simp [closeQueue, hin]

/-- The close `c` of `u` has ended the stream part of slot `k` in `w`. -/
structure StreamOver (c : EmergencyClose) (k : Nat) (u w : State) : Prop where
  cbf : w.cbf = { u.cbf with segs := streamGone c u k }
  entries : ∀ j, (entryAt w j).map unqueued =
    (entryAt u j).map fun e => unqueued (if j = k then streamLost c u j e else e)
  block : readyBlock w = readyBlock u
  now : w.now = u.now
  queue : w.sdr.queue = closeQueue c u
  port : w.cwr.port = none
  writer : w.cwr.writer = u.cwr.writer
  geo : w.sdr.geo = u.sdr.geo
  ssv : w.ssv = u.ssv
  lnk : w.lnk = u.lnk
  drive : w.adu = u.adu ∧ w.chg = u.chg

section
variable {c : EmergencyClose} {u v w : State} {k : Nat}

/-- A close that is in the motion part has no stream part to end. -/
theorem CloseFinds.inMotion (h : CloseFinds c u v) (hm : c.part = .motion) : StreamOver c k u v where
  cbf := by simpa [streamGone, hm] using h.alike.cbf
  entries j := by
    have := entryAt_congr h.alike.entries unqueued (fun _ => rfl) j
    simpa [streamLost, hm] using this
  block := h.alike.readyBlock_eq
  now := h.alike.now
  queue := h.queue
  port := h.port
  writer := h.writer
  geo := h.geo
  ssv := h.ssv
  lnk := h.lnk
  drive := h.drive

/-- R176: what is left in the ring counts as lost. -/
theorem CloseFinds.streamEnds (h : CloseFinds c u v) (hm : c.part ≠ .motion) : StreamOver c k u (loseSegment k v) where
  cbf := by simp [loseSegment_eq, streamGone, hm, h.alike.cbf]
  entries j := by
    have he := entryAt_congr h.alike.entries
      (fun e => unqueued (if j = k then streamLost c u j e else e))
      (fun e => by by_cases hj : j = k <;> simp [hj, streamLost, hm, unqueued]) j
    rw [← he]
    simp only [loseSegment_eq, entryAt, getElem?_rewritten, Option.map_map, h.alike.cbf]
    congr 1
    funext e
    by_cases hj : j = k <;> simp [hj, streamLost, hm, unqueued, satAdd32]
  block := (loseSegment_readyBlock k v).trans h.alike.readyBlock_eq
  now := by simpa using h.alike.now
  queue := by simpa using h.queue
  port := by simpa using h.port
  writer := by simpa using h.writer
  geo := by simpa using h.geo
  ssv := by simpa using h.ssv
  lnk := by simpa using h.lnk
  drive := by simpa using h.drive

end

end Sys2Proof.Machine
end

section
/-! The emergency close goes on: each of its steps, and the settling of a port that it has (R173 to R181). -/

namespace Sys2Proof.Machine

/-! ## The steps for one slot -/

section
variable {c : EmergencyClose} {u v w : State} {k : Nat}

/-- The step for the slot `k`, of a block and then the CLOSED header. -/
theorem StreamOver.goesOn (h : StreamOver c k u w) (hc : u.ssv.close = some c)
    (hs : closeStep c u = match (readyBlock u).filter fun o => o.slot == k && closeMay c 1 with
      | some o => .block o
      | none => .header k) : CloseGoesOn c u (closeMotion c k w) := by
  intro g hg
  have hcw : w.ssv.close = some c := by rw [h.ssv, hc]
  have hgw : w.sdr.geo = some g := by rw [h.geo, hg]
  rw [hs, closeMotion_eq hcw hgw, h.block]
  cases hb : (readyBlock u).filter fun o => o.slot == k && closeMay c 1 with
  | some o =>
      obtain ⟨-, ho⟩ := Option.filter_eq_some_iff.mp hb
      have hk : o.slot = k := (closeOffer_iff (by decide)).mpr ho |>.1
      subst hk
      have hx : blockTransfer (.emBlock o.slot o.real) g o w = blockTransfer (.emBlock o.slot o.real) g o u := by
        simp only [blockTransfer, h.cbf, h.now, blockData]
      refine ⟨⟨?_, congrArg some hx, h.writer, h.lnk, h.drive.1, h.drive.2⟩, h.cbf, h.queue, h.entries⟩
      simp only [closeCharged, h.ssv]
  | none =>
      have hcl : (loseRecords k w).ssv.close = some c := by simpa using hcw
      have hgl : (loseRecords k w).sdr.geo = some g := by simpa using hgw
      have hpl : (loseRecords k w).cwr.port = none := by simpa using h.port
      simp only [closeHeader_eq hcl hgl hpl]
      refine ⟨⟨?_, ?_, ?_, ?_, ?_, ?_⟩, ?_, ?_, fun j => ?_⟩
      · simp [closeCharged, h.ssv]
      · rfl
      · simpa [closeCharged] using h.writer
      · simpa [closeCharged] using h.lnk
      · simpa [closeCharged] using h.drive.1
      · simpa [closeCharged] using h.drive.2
      · simp [closeCharged, loseRecords_eq, h.cbf]
      · simpa [closeCharged] using h.queue
      · have he := congrArg (Option.map fun e => if j = k then
          { e with motionDropped := satAdd32 e.motionDropped (pendingOf k u.cbf.pend) } else e) (h.entries j)
        simp only [closeCharged, loseRecords_eq, entryAt, getElem?_rewritten, Option.map_map, h.cbf] at he ⊢
        convert he using 2
        · funext e
          by_cases hj : j = k <;> simp [hj, unqueued]
        · funext e
          by_cases hj : j = k
          · simp only [hj, Function.comp, if_true, unqueued, streamLost, satAdd32]
            split <;> rfl
          · simp [hj]

/-- R176 to R178: the step for the slot `k`, of a unit, a block and then the CLOSED header. -/
theorem CloseFinds.goesOn (h : CloseFinds c u v) (hc : u.ssv.close = some c) {rest : List Nat} (ht : c.todo = k :: rest)
    (hs : closeStep c u = closeSlotStep c u) :
    CloseGoesOn c u (if c.part = .motion then closeMotion c k v else closeStream c k v) := by
  have hstep : closeStep c u = match (readyUnit u).filter fun o => o.slot == k && c.part != .motion && closeMay c 7 with
      | some o => .unit o
      | none => match (readyBlock u).filter fun o => o.slot == k && closeMay c 1 with
        | some o => .block o
        | none => .header k := by
    rw [hs]
    simp only [closeSlotStep, ht]
    cases (readyUnit u).filter fun o => o.slot == k && c.part != .motion && closeMay c 7 with
    | some o => rfl
    | none => cases (readyBlock u).filter fun o => o.slot == k && closeMay c 1 <;> rfl
  by_cases hm : c.part = .motion
  · rw [if_pos hm]
    refine (h.inMotion hm).goesOn hc (hstep.trans ?_)
    have hnone : ((readyUnit u).filter fun o => o.slot == k && c.part != .motion && closeMay c 7) = none := by
      simp [hm]
    rw [hnone]
  · rw [if_neg hm]
    intro g hg
    have hcv : v.ssv.close = some c := by rw [h.ssv, hc]
    have hgv : v.sdr.geo = some g := by rw [h.geo, hg]
    rw [closeStream_eq hcv hgv, h.alike.readyUnit_eq]
    have hpart : (fun o : Offer => o.slot == k && c.part != .motion && closeMay c 7) =
        fun o => o.slot == k && closeMay c 7 := by
      have hne : (c.part != .motion) = true := bne_iff_ne.mpr hm
      simp [hne]
    rw [hpart] at hstep
    cases hu : (readyUnit u).filter fun o => o.slot == k && closeMay c 7 with
    | none =>
        rw [hu] at hstep
        exact (h.streamEnds hm).goesOn hc hstep g hg
    | some o =>
        rw [hu] at hstep
        rw [hstep]
        have hx : unitTransfer (.emUnit o.slot o.real) g o v = unitTransfer (.emUnit o.slot o.real) g o u := by
          simp only [unitTransfer, h.alike.cbf, h.alike.now, unitData]
        refine ⟨⟨?_, congrArg some hx, h.writer, h.lnk, h.drive.1, h.drive.2⟩, h.alike.cbf, h.queue, h.alike.entries⟩
        simp only [closeCharged, h.ssv]

/-- R175: the step of a header update. -/
theorem closeUpdate_goesOn (hc : u.ssv.close = some c) (hp : u.cwr.port = none) (hin : closeInUpdates c = true)
    {i : Nat} (hs : closeStep c u = .update i) :
    let v := afterUpdates c (refreshOffers u)
    CloseGoesOn c u (charge 2 (grantUpdate (.emUpdate i) i (setPart .updates v))) := by
  intro v g hg
  have h : CloseFinds c u v := afterUpdates_finds c hp
  have hcv : v.ssv.close = some c := by rw [h.ssv, hc]
  have hgv : v.sdr.geo = some g := by rw [h.geo, hg]
  have hx := h.alike.headerTransfer_eq (.emUpdate i) (updateHeader g) (fun _ => rfl) g i
  rw [hs, closeUpdate_eq hcv hgv h.port, hx]
  obtain ⟨hcbf, -, hentries, -⟩ := dequeue_keeps i (v.sdr.queue.drop 1) v
  refine ⟨⟨?_, rfl, ?_, ?_, ?_, ?_⟩, hcbf.trans h.alike.cbf, ?_, hentries.trans h.alike.entries⟩
  · simp [closeCharged, h.ssv]
  · simpa [closeCharged] using h.writer
  · simpa [closeCharged] using h.lnk
  · simpa [closeCharged] using h.drive.1
  · simpa [closeCharged] using h.drive.2
  · simp [closeCharged, dequeue, queueAfter, h.queue, closeQueue, hin]

end

/-! ## The close as a whole -/

/-- The close's next header update, where its first part writes one. -/
def closeUpdateDue (c : EmergencyClose) (s : State) : Option Nat :=
  if closeInUpdates c && closeMay c 2 then nextUpdate s else none

/-- R175: the first part writes the next header update that it can pay, or is over. -/
theorem closeUpdates_eq {c : EmergencyClose} (hp : c.part = .inherited ∨ c.part = .updates) (s : State) :
    closeUpdates c s =
      match closeUpdateDue c s with
      | some i => charge 2 (grantUpdate (.emUpdate i) i (setPart .updates (afterUpdates c s)))
      | none => closeSlots c (afterUpdates c s) := by
  have hpart : (c.part == .inherited || c.part == .updates) = true := by simpa using hp
  simp only [closeUpdates, closeUpdateDue, afterUpdates, closeInUpdates, hpart, Bool.and_true]
  cases hf : c.failed with
  | true => simp
  | false =>
      have hnext : nextUpdate s = (skipQueue s.sdr.queue s).sdr.queue.head? := by
        rw [nextUpdate, find?_eq_head?_dropWhile, skipQueue_queue _ s rfl]
      have hmay : closeMay c 2 = decide (reserveOf c + 2 ≤ c.left) := by
        rw [Bool.eq_iff_iff, closeMay_iff (by decide)]
        simp [hf]
      simp only [hnext, hmay, Bool.false_eq_true, if_false, Bool.not_false, Bool.true_and, if_true]
      cases (skipQueue s.sdr.queue s).sdr.queue with
      | nil => simp
      | cons i rest => by_cases hl : reserveOf c + 2 ≤ c.left <;> simp [hl]

/-- Past the first part nothing is left of it to do. -/
theorem closeInUpdates_past {c : EmergencyClose} (h1 : c.part ≠ .inherited) (h2 : c.part ≠ .updates) :
    closeInUpdates c = false := by
  simp [closeInUpdates, h1, h2]

/-- R173 to R178: the close writes the next header update while its first part lasts, and then goes on with its first
slot, or ends. -/
theorem closeAdvance_eq {c : EmergencyClose} {s : State} (hc : s.ssv.close = some c) :
    closeAdvance s =
      match closeUpdateDue c s with
      | some i => charge 2 (grantUpdate (.emUpdate i) i (setPart .updates (afterUpdates c s)))
      | none =>
          match c.todo with
          | [] => closeEnd (afterUpdates c s)
          | k :: _ =>
              if c.part = .motion then closeMotion c k (afterUpdates c s) else closeStream c k (afterUpdates c s) := by
  have past (h1 : c.part ≠ .inherited) (h2 : c.part ≠ .updates) :
      closeUpdateDue c s = none ∧ afterUpdates c s = s := by
    simp [closeUpdateDue, afterUpdates, closeInUpdates_past h1 h2]
  simp only [closeAdvance, hc]
  cases hpart : c.part with
  | inherited | updates =>
      rw [closeUpdates_eq (by simp [hpart])]
      cases closeUpdateDue c s with
      | some i => rfl
      | none => cases ht : c.todo <;> simp [closeSlots, ht]
  | stream | header =>
      obtain ⟨h1, h2⟩ := past (by simp [hpart]) (by simp [hpart])
      rw [h1, h2]
      cases ht : c.todo <;> simp [closeSlots, ht]
  | motion =>
      obtain ⟨h1, h2⟩ := past (by simp [hpart]) (by simp [hpart])
      rw [h1, h2]
      cases ht : c.todo <;> simp [closeSlots, ht]

end Sys2Proof.Machine
end

section
/-! The end of an emergency close, and the settling of a port that a close has (R173 to R181). -/

namespace Sys2Proof.Machine

/-! ## The arbiter on refreshed offers -/

/-- The arbiter grants `u` from a state like it whose offers are those of `u` brought up to date, whatever of the queue
that needs no write has left it. -/
theorem grantPort_refreshed {u w : State} (h : SlotsAlike w u) (hg : w.sdr.geo = u.sdr.geo) (hp : w.cwr.port = none)
    (hu : w.cwr.offUnit = (refreshOffers u).cwr.offUnit) (hb : w.cwr.offBlock = (refreshOffers u).cwr.offBlock)
    (hf : w.cwr.blockFirst = (refreshOffers u).cwr.blockFirst)
    (hq : w.sdr.queue.dropWhile (fun j => !needsUpdate u j) = u.sdr.queue.dropWhile fun j => !needsUpdate u j) :
    ArbiterGrants u (grantPort w) := by
  let w0 : State := { w with cwr := { w.cwr with
    offUnit := u.cwr.offUnit
    offBlock := u.cwr.offBlock
    blockFirst := u.cwr.blockFirst } }
  have h0 : SlotsAlike w0 u := ⟨h.entries, h.cbf, h.run, h.closeReason, h.req, h.now⟩
  have hrefresh : refreshOffers w0 = w := by
    have h1 : (offeredUnit w0).isSome = w.cwr.offUnit := by rw [h0.offeredUnit_eq, hu]; rfl
    have h2 : (offeredBlock w0).isSome = w.cwr.offBlock := by rw [h0.offeredBlock_eq, hb]; rfl
    have h3 : (refreshOffers w0).cwr.blockFirst = w.cwr.blockFirst := by
      rw [hf]
      simp only [refreshOffers, h0.offeredUnit_eq, h0.offeredBlock_eq, w0]
    calc refreshOffers w0 = { w0 with cwr := { w0.cwr with
            offUnit := (offeredUnit w0).isSome
            offBlock := (offeredBlock w0).isSome
            blockFirst := (refreshOffers w0).cwr.blockFirst } } := rfl
      _ = w := by rw [h1, h2, h3]
  have hdrop : w0.sdr.queue.dropWhile (fun j => !needsUpdate w0 j) =
      u.sdr.queue.dropWhile fun j => !needsUpdate u j := by
    rw [SlotsAlike.needsUpdate_eq h0.entries]; exact hq
  have hnext : nextUpdate w0 = nextUpdate u := by
    rw [nextUpdate, nextUpdate, find?_eq_head?_dropWhile, find?_eq_head?_dropWhile, hdrop]
  have hafter : queueAfter w0 = queueAfter u := congrArg (List.drop 1) hdrop
  intro g hgu
  have hgrant : grantOf g w0 = grantOf g u := by
    simp only [grantOf, hnext, h0.closedTransfer_eq, h0.openingTransfer_eq, h0.readTransfer_eq, h0.run,
      h0.dataTransfer_eq g (fun _ _ _ _ => rfl), h0.headerTransfer_eq _ (updateHeader g) (fun _ => rfl)]
  have := grantPort_grants w0 hp g (hg.trans hgu)
  rwa [hrefresh, hgrant, hafter, h0.run] at this

/-! ## The end of the close -/

/-- R168: what a stable time that has been reached makes of the supply state. -/
theorem checkStable_st (s : State) (hw : s.cwr.writer ≠ .emergencyClose) :
    (checkStable s).ssv.st = if s.ssv.st = .emergency ∧ stableReached s = true then .normal else s.ssv.st := by
  simp only [checkStable, hw, ne_eq, not_false_eq_true, and_true]
  split
  · have h := (toNormal_spec .normal s).1
    rw [h]
  · rfl

/-- R168: it raises no event but SUPPLY's. -/
theorem checkStable_otherClass {k : EvClass} (hk : k ≠ .supply) (s : State) :
    eventGet (checkStable s).lnk.events k = eventGet s.lnk.events k := by
  simp only [checkStable]
  split
  · have h := (toNormal_spec .normal s).1
    rw [h]
    exact raise_otherClass (d := .supply .normal s.ssv.st .normal s.scn.vSys.latest s.now false 0) s hk
  · rfl

/-- The recording that ends is reported with its last slot, and is forgotten. -/
theorem endRecording_spec (reason : CloseReason) (budget spent : Nat) (s : State) :
    let t := endRecording reason budget spent s
    t.cwr = { s.cwr with recId := none, lastSlot := t.cwr.lastSlot } ∧
      ∀ r, s.cwr.recId = some r → s.lnk.recordMask.getLsbD 2 = true →
        t.lnk.events.record = ⟨min 255 (s.lnk.events.record.count + 1),
          some (.recordStopped r reason s.now s.cwr.lastSlot budget spent)⟩ := by
  simp only [endRecording]
  cases h : s.cwr.recId with
  | none => exact ⟨by simp [← h], fun r hr => nomatch hr⟩
  | some r =>
      refine ⟨rfl, fun r' hr hm => ?_⟩
      cases hr
      exact raise_recorded
        (s := { s with cwr := { s.cwr with recId := none, lastSlot := none } })
        (d := .recordStopped r reason s.now s.cwr.lastSlot budget spent) hm

/-- The writer has left the close for READY. -/
def closeLeft (s : State) : State :=
  { setWriter .ready s with
    cwr := { s.cwr with writer := .ready, closeReason := none }
    ssv := { s.ssv with close := none } }

/-- R181: the close ends in READY, its recording reported with what it spent, and NORMAL follows a stable time that has
been reached (R168). -/
theorem closeEnd_spec {c : EmergencyClose} {s : State} (hc : s.ssv.close = some c) :
    let t := closeEnd s
    t.cwr = { s.cwr with writer := .ready, closeReason := none, recId := none, lastSlot := t.cwr.lastSlot } ∧
      t.ssv.close = none ∧
      t.ssv.st = (if s.ssv.st = .emergency ∧ stableReached s = true then .normal else s.ssv.st) ∧
      ∀ r, s.cwr.recId = some r → s.lnk.recordMask.getLsbD 2 = true →
        t.lnk.events.record = ⟨min 255 (s.lnk.events.record.count + 1),
          some (.recordStopped r .emergency s.now s.cwr.lastSlot c.budget (c.budget - c.left))⟩ := by
  let v := endRecording .emergency c.budget (spentOf c) (closeLeft s)
  have ht : closeEnd s = checkStable v := by simp only [closeEnd, hc]; rfl
  obtain ⟨hcwr, hrecord⟩ := endRecording_spec .emergency c.budget (spentOf c) (closeLeft s)
  have hv : v.ssv = (closeLeft s).ssv := by simp [v]
  have hw : v.cwr.writer ≠ .emergencyClose := by simp [v, closeLeft]
  have hcv : (checkStable v).cwr = v.cwr := by simp
  rw [ht]
  refine ⟨?_, ?_, ?_, fun r hr hm => ?_⟩
  · rw [hcv]
    exact hcwr
  · simp [hv, closeLeft]
  · rw [checkStable_st v hw, stableReached, hv]
    rfl
  · exact (checkStable_otherClass (k := .record) (by decide) v).trans (hrecord r hr hm)

/-- R181: the step that ends the close, the port then granted. -/
theorem CloseFinds.over {c : EmergencyClose} {u v : State} (h : CloseFinds c u v) (hc : u.ssv.close = some c)
    (hs : closeStep c u = .over) (hu : v.cwr.offUnit = (refreshOffers u).cwr.offUnit)
    (hb : v.cwr.offBlock = (refreshOffers u).cwr.offBlock) (hf : v.cwr.blockFirst = (refreshOffers u).cwr.blockFirst) :
    CloseGoesOn c u (grantPort (closeEnd v)) := by
  intro g hg
  rw [hs]
  obtain ⟨hcwr, hclose, hst, hrecord⟩ := closeEnd_spec (s := v) (by rw [h.ssv, hc])
  have hk := grantPort_keeps (closeEnd v)
  obtain ⟨-, -, hentries, -⟩ := id hk
  have hcw := hk.cwr_eq hcwr
  have hslots : SlotsAlike (closeEnd v) { u with cwr := { u.cwr with closeReason := none } } :=
    ⟨by simpa using h.alike.entries, by simpa using h.alike.cbf, by rw [hcwr]; exact h.alike.run, by rw [hcwr],
      by simpa using h.alike.req, by simpa using h.alike.now⟩
  refine ⟨?_, ?_, ?_, ?_, ?_, ?_, ?_, ?_, fun r hr hm => ?_⟩
  · rw [hcw]
  · simp [hclose]
  · rw [hcw]
  · rw [hcw]
  · simp [h.alike.cbf]
  · simpa [h.alike.entries] using hentries
  · refine grantPort_refreshed hslots (by simpa using h.geo) (by simpa using h.port) ?_ ?_ ?_ ?_
    · rw [hcwr]; exact hu
    · rw [hcwr]; exact hb
    · rw [hcwr]; exact hf
    · have hq : (closeEnd v).sdr.queue = closeQueue c u := by simpa using h.queue
      rw [hq, closeQueue]
      split
      · exact List.dropWhile_idempotent _ _
      · rfl
  · have hreached : stableReached v = stableReached u := by rw [stableReached, h.ssv]; rfl
    simpa [h.ssv, hreached] using hst
  · have := hrecord r (by rw [h.recording.1, hr]) (by rw [h.lnk, hm])
    simpa [h.lnk, h.alike.now, h.recording.2] using this

/-! ## Settling a port that a close has -/

/-- What settling makes of what the close has done. -/
theorem settle_closes {s t : State} (hw : s.cwr.writer = .emergencyClose) (hp : s.cwr.port = none)
    (hr : ∀ tag, s.lnk.req ≠ some (.unmount tag)) (ht : closeAdvance (refreshOffers s) = t) :
    settle s = if t.cwr.port.isNone && arbitrating t.cwr.writer then grantPort t else t := by
  have h1 : (refreshOffers s).cwr.port = none := hp
  have h2 : (refreshOffers s).cwr.writer = .emergencyClose := hw
  have hreq : t.lnk.req = s.lnk.req := by rw [← ht]; simp
  simp only [settle, h1, h2, Option.isNone_none, beq_self_eq_true, Bool.and_self, if_true, ht]
  refine finishUnmount_none fun tag => ?_
  split
  · simpa [hreq] using hr tag
  · simpa [hreq] using hr tag

/-- A close that goes on keeps the port for its write. -/
theorem settle_closing {s t : State} (hw : s.cwr.writer = .emergencyClose) (hp : s.cwr.port = none)
    (hr : ∀ tag, s.lnk.req ≠ some (.unmount tag)) (ht : closeAdvance (refreshOffers s) = t)
    (htw : t.cwr.writer = .emergencyClose) : settle s = t := by
  simp [settle_closes hw hp hr ht, htw, arbitrating]

/-- A close that is over leaves the port to the arbiter. -/
theorem settle_closed {s t : State} (hw : s.cwr.writer = .emergencyClose) (hp : s.cwr.port = none)
    (hr : ∀ tag, s.lnk.req ≠ some (.unmount tag)) (ht : closeAdvance (refreshOffers s) = t)
    (htw : t.cwr.writer = .ready) (htp : t.cwr.port = none) : settle s = grantPort t := by
  simp [settle_closes hw hp hr ht, htw, htp, arbitrating]

/-- The close's next step is a header update that is due, or a step for its first slot. -/
theorem closeStep_eq (c : EmergencyClose) (u : State) :
    closeStep c u = ((closeUpdateDue c u).map CloseStep.update).getD (closeSlotStep c u) := by
  simp only [closeStep, closeUpdateDue]
  by_cases hm : (closeInUpdates c && closeMay c 2) = true
  · cases nextUpdate u <;> simp [hm]
  · cases nextUpdate u <;> simp [hm]

/-- R173 to R181: the port of an emergency close goes to its next write; with none left the close ends and the arbiter
has it. -/
theorem settle_goesOn {c : EmergencyClose} {s : State} (hw : s.cwr.writer = .emergencyClose) (hp : s.cwr.port = none)
    (hr : ∀ tag, s.lnk.req ≠ some (.unmount tag)) (hc : s.ssv.close = some c) : CloseGoesOn c s (settle s) := by
  have hfind := afterUpdates_finds c hp
  have hwv : (afterUpdates c (refreshOffers s)).cwr.writer = .emergencyClose := hfind.writer.trans hw
  have hdue : closeUpdateDue c (refreshOffers s) = closeUpdateDue c s := rfl
  have hs := closeStep_eq c s
  have hadv := closeAdvance_eq (s := refreshOffers s) hc
  rw [hdue] at hadv
  cases hup : closeUpdateDue c s with
  | some i =>
      rw [hup] at hs hadv
      have hin : closeInUpdates c = true := by
        simp only [closeUpdateDue] at hup
        by_contra hn
        simp [hn] at hup
      rw [settle_closing hw hp hr hadv (by simpa using hwv)]
      exact closeUpdate_goesOn hc hp hin hs
  | none =>
      rw [hup] at hs hadv
      cases ht : c.todo with
      | nil =>
          have hover : closeStep c s = .over := by rw [hs]; simp [closeSlotStep, ht]
          have hcv : (afterUpdates c (refreshOffers s)).cwr = (refreshOffers s).cwr := by
            simp only [afterUpdates]
            split <;> simp
          obtain ⟨hcwr, -⟩ := closeEnd_spec (s := afterUpdates c (refreshOffers s)) (c := c) (by rw [hfind.ssv, hc])
          simp only [ht] at hadv
          rw [settle_closed hw hp hr hadv (by rw [hcwr]) (by simp [hfind.port])]
          exact hfind.over hc hover (congrArg Cwr.offUnit hcv) (congrArg Cwr.offBlock hcv) (congrArg Cwr.blockFirst hcv)
      | cons k rest =>
          simp only [ht] at hadv
          rw [settle_closing hw hp hr hadv (by split <;> simpa using hwv)]
          exact hfind.goesOn hc ht hs

end Sys2Proof.Machine
end

section
/-! A held UNMOUNT, and what follows when a transfer leaves the port (R116, R124, R173). -/

namespace Sys2Proof.Machine

/-- R190: an event added to the same set under the same mask gives the same set. -/
theorem eventsWith_congr {s t : State} (d : Detail) (he : s.lnk.events = t.lnk.events)
    (hm : s.lnk.recordMask = t.lnk.recordMask) : eventsWith d s = eventsWith d t := by
  simp only [eventsWith, raiseIn, he, hm]
  split <;> simp [he]

/-! ## A held UNMOUNT (R116) -/

section
variable {s t : State} {tag : Byte}

/-- R116: in READY, with nothing left in the queue and no header write under way, a held UNMOUNT ends. -/
theorem finishUnmount_over (hr : t.lnk.req = some (.unmount tag)) (hw : t.cwr.writer = .ready) (hq : t.sdr.queue = [])
    (hh : headerUnderWay t = false) : UnmountOver tag t (finishUnmount t) := by
  have hf : finishUnmount t = raise .cardUnmounted (endUnmount .ok (giveUpCard .unmounted t)) := by
    simp [finishUnmount, hr, hw, hq, hh]
  have he : endUnmount .ok (giveUpCard .unmounted t) = endHold (.unmount tag) .ok [] (giveUpCard .unmounted t) := by
    simp [endUnmount, hr]
  rw [hf, he]
  refine ⟨rfl, rfl, rfl, rfl, rfl, rfl, ?_, ?_, ?_⟩
  · simp [endHold]
  · simp [endHold, heldKind, heldTag]
  · exact eventsWith_congr (s := endHold (.unmount tag) .ok [] (giveUpCard .unmounted t)) .cardUnmounted
      (by simp [endHold, answer]) (by simp [endHold])

/-- R116: until then it waits. -/
theorem finishUnmount_waits (h : t.sdr.queue ≠ [] ∨ headerUnderWay t = true) : finishUnmount t = t := by
  simp only [finishUnmount]
  split
  · obtain hq | hh := h
    · have : t.sdr.queue.isEmpty = false := by simpa using hq
      simp [this]
    · simp [hh]
  · rfl

/-- In READY under a held UNMOUNT, settling grants a free port and then looks whether the UNMOUNT can end. -/
theorem settle_ready (hw : s.cwr.writer = .ready) :
    settle s = finishUnmount (if s.cwr.port.isNone then grantPort (refreshOffers s) else refreshOffers s) := by
  have h1 : ((refreshOffers s).cwr.writer == .emergencyClose) = false := by
    rw [show (refreshOffers s).cwr.writer = .ready from hw]; rfl
  have h2 : arbitrating (refreshOffers s).cwr.writer = true := by
    rw [show (refreshOffers s).cwr.writer = .ready from hw]; rfl
  simp only [settle, h1, h2, Bool.and_false, Bool.and_true, Bool.false_eq_true, if_false]
  rfl

/-- With no slot open or closing, an empty clip buffer, no MOTION_READ held and no update left to write, the queue is
emptied and the port stays free. -/
theorem grantPort_idle (hi : CardIdle s) (hr : s.lnk.req = some (.unmount tag))
    (hn : ∀ j ∈ s.sdr.queue, needsUpdate s j = false) :
    grantPort s = skipQueue s.sdr.queue s ∧ (skipQueue s.sdr.queue s).sdr.queue = [] := by
  have hq : (skipQueue s.sdr.queue s).sdr.queue = [] := by
    rw [skipQueue_queue _ s rfl]
    exact List.dropWhile_eq_nil_iff.mpr fun j hj => by simp [hn j hj]
  have hk := skipQueue_keeps s.sdr.queue s
  have hreq : (skipQueue s.sdr.queue s).lnk.req = some (.unmount tag) := by simpa using hr
  refine ⟨?_, hq⟩
  simp only [grantPort, hq]
  generalize skipQueue s.sdr.queue s = x at hk hreq
  obtain ⟨ho, hc, hsegs, hpend⟩ := hi
  obtain ⟨hcbf, -, hentries, -⟩ := hk
  have hcx : closingSlot x = none := (SlotsAlike.closingSlot_eq hentries).trans hc
  have hox : openSlot x = none := (SlotsAlike.openSlot_eq hentries).trans ho
  have hunit : readyUnit x = none := by simp [readyUnit, offeredUnit, hcbf, hsegs]
  have hblock : readyBlock x = none := by simp [readyBlock, offeredBlock, hcbf, hpend]
  have hread : readWaits x = false := by simp [readWaits, hreq]
  simp [readyClosing, readyOpening, grantData, hcx, hox, hunit, hblock, hread]

/-- With an update left to write, the header of the next one has the port, and the UNMOUNT waits for it. -/
theorem settle_unmount_waits (hw : s.cwr.writer = .ready) (hp : s.cwr.port = none) (hg : s.sdr.geo ≠ none)
    (hn : ∃ j ∈ s.sdr.queue, needsUpdate s j = true) :
    settle s = grantPort (refreshOffers s) ∧ KeepsOffCard s (settle s) ∧ KeepsCardButPort s (settle s) ∧
      ArbiterGrants s (settle s) := by
  obtain ⟨g, hg⟩ := Option.ne_none_iff_exists'.mp hg
  have hgrants := grantPort_grants s hp
  obtain ⟨hport, -, -⟩ := hgrants g hg
  have hup : headerUnderWay (grantPort (refreshOffers s)) = true := by
    obtain ⟨i, hi⟩ : ∃ i, nextUpdate s = some i := by
      obtain ⟨j, hj, hjn⟩ := hn
      exact Option.isSome_iff_exists.mp (List.find?_isSome.mpr ⟨j, hj, hjn⟩)
    obtain ⟨e, he⟩ := needsUpdate_entry (List.find?_some hi)
    have hx : grantOf g s = some ⟨.headerUpdate i, headerBlock g i, 1, updateHeader g e, 1, s.now⟩ := by
      simp [grantOf, hi, headerTransfer, he]
    simp [headerUnderWay, hport, hx]
  have hs : settle s = grantPort (refreshOffers s) := by
    rw [settle_ready hw, hp]
    exact finishUnmount_waits (.inr hup)
  have hk := (refreshOffers_keeps s).trans (grantPort_keeps (refreshOffers s))
  rw [hs]
  exact ⟨rfl, ⟨⟨by simp, by simp, by simp⟩, ⟨by simp, by simp, by simp⟩, ⟨by simp, by simp, by simp, by simp⟩, by simp,
    by simp⟩, hk, hgrants⟩

/-- With no update left to write, the UNMOUNT ends. -/
theorem settle_unmount_over (hw : s.cwr.writer = .ready) (hp : s.cwr.port = none)
    (hr : s.lnk.req = some (.unmount tag)) (hi : CardIdle s) (hn : ∀ j ∈ s.sdr.queue, needsUpdate s j = false) :
    UnmountOver tag s (settle s) := by
  obtain ⟨hgrant, hqueue⟩ := grantPort_idle (s := refreshOffers s) hi hr hn
  have hl : (grantPort (refreshOffers s)).lnk = s.lnk := by simp
  have hport : (grantPort (refreshOffers s)).cwr.port = none := by
    rw [hgrant]
    simp [hp]
  have hover := finishUnmount_over (t := grantPort (refreshOffers s)) (tag := tag) (by simpa using hr)
    (by simpa using hw) (by rw [hgrant, hqueue]) (by simp [headerUnderWay, hport])
  rw [settle_ready hw, hp]
  obtain ⟨h1, h2, h3, h4, h5, h6, h7, h8, h9⟩ := hover
  exact ⟨h1, h2, h3, h4, h5, h6, h7, h8, h9.trans (by simp only [eventsWith, hl])⟩

end

/-- What the arbiter granted `u` it granted the state before the grant, whatever else led from `s` to `u`. -/
theorem ArbiterGrants.before {s u t : State} (h : ArbiterGrants u t) (hk : KeepsCardButPort u t) (hn : t.now = u.now)
    (hr : t.lnk.req = u.lnk.req) (hq : s.sdr.queue = u.sdr.queue) (hrun : s.cwr.run = u.cwr.run)
    (hu : s.cwr.offUnit = u.cwr.offUnit) (hb : s.cwr.offBlock = u.cwr.offBlock)
    (hf : s.cwr.blockFirst = u.cwr.blockFirst) : ArbiterGrants (beforeGrant s t) t := by
  obtain ⟨hcbf, hsdr, hentries, hcwr⟩ := hk
  have hreason : t.cwr.closeReason = u.cwr.closeReason := by rw [hcwr]
  have hgeo : t.sdr.geo = u.sdr.geo := by rw [hsdr]
  exact h.congr ⟨⟨hentries.symm, hcbf.symm, hrun.symm, hreason.symm, hr.symm, hn.symm⟩,
    hq.symm, hu.symm, hb.symm, hf.symm⟩
    hgeo.symm

/-! ## When a transfer leaves the port (R124) -/

/-- A free port is settled: to the arbiter, to the end of a held UNMOUNT, or to the emergency close. -/
theorem settle_freed (s : State) : PortFreed s (settle (setPort none s)) := by
  refine ⟨fun ha hr => ?_, fun tag hw hr hg hi => ⟨fun hn => ?_, fun hn => ?_⟩, fun c hw hc hr => ?_⟩
  · have hne : s.cwr.writer ≠ .emergencyClose := fun h => by simp [h, arbitrating] at ha
    have hlaw : PortLaw (setPort none s) := portLaw_unheld hne hr
    obtain ⟨-, -, hpower, hadu, hlnk⟩ := settle_offCard hlaw
    obtain ⟨hcard, -⟩ := settle_keeps hlaw
    exact ⟨hpower, hadu, hlnk, .trans ⟨rfl, rfl, rfl, rfl⟩ hcard, settle_arbitrates hlaw rfl ha⟩
  · obtain ⟨-, ⟨-, -, hpower, hadu, hlnk⟩, hcard, hgrants⟩ := settle_unmount_waits (s := setPort none s) hw rfl hg hn
    exact ⟨hpower, hadu, hlnk, .trans ⟨rfl, rfl, rfl, rfl⟩ hcard, hgrants⟩
  · exact settle_unmount_over (s := setPort none s) hw rfl hr hi hn
  · exact settle_goesOn (s := setPort none s) hw rfl hr hc

end Sys2Proof.Machine
end

section
/-! O42: MOUNT and UNMOUNT (R95 to R97, R116). -/

namespace Sys2Proof.Machine

/-! ## MOUNT (R96) -/

/-- R96: an accepted MOUNT leaves the new region and its bring-up alone. -/
theorem startMount_eq (g : Geometry) (s : State) :
    startMount g s = { s with
      sdr := { Sdr.reset with geo := some g }
      cwr := { s.cwr with writer := .mounting, port := some ⟨.identify, 0, 0, [], 1, s.now⟩ } } := rfl

/-- R96: the region is none that the card can hold, or too small. -/
def MountBad (base len : Word) (units motion : Half) (g : Geometry) : Prop :=
  units = 0#16 ∨ motion = 0#16 ∨ 4096 < motion.toNat ∨ 4294967296 < base.toNat + len.toNat ∨ g.slotCount < 2

section
variable {base len : Word} {units motion : Half} {g : Geometry} {s : State}

theorem mountRefusal_state (h1 : s.cwr.writer ≠ .unmounted) (h2 : s.cwr.writer ≠ .fault) :
    mountRefusal base len units motion g s = some .state := by
  simp [mountRefusal, h1, h2]

theorem mountRefusal_noCard (h : s.cwr.writer = .unmounted ∨ s.cwr.writer = .fault) (hp : s.cwr.present = false) :
    mountRefusal base len units motion g s = some .noCard := by
  have : ¬ (s.cwr.writer ≠ .unmounted ∧ s.cwr.writer ≠ .fault) := by tauto
  simp only [mountRefusal, if_neg this, hp, if_true]

theorem mountRefusal_range (h : s.cwr.writer = .unmounted ∨ s.cwr.writer = .fault) (hp : s.cwr.present = true) :
    (MountBad base len units motion g → mountRefusal base len units motion g s = some .range) ∧
      (¬ MountBad base len units motion g → mountRefusal base len units motion g s = none) := by
  have : ¬ (s.cwr.writer ≠ .unmounted ∧ s.cwr.writer ≠ .fault) := by tauto
  simp only [mountRefusal, if_neg this, hp, MountBad]
  constructor
  · intro hb
    split_ifs <;> simp_all
  · intro hb
    split_ifs <;> simp_all
    omega

theorem mountReq_refused {tag quota format : Byte} {regionId : Word} {on : Bool} {status : Status}
    (ho : onOff format = some on)
    (hm : mountRefusal base len units motion (geometryOf base len regionId units motion quota on) s = some status) :
    mountReq tag base len regionId units motion quota format s = answer 0x20 tag status [] s := by
  simp [mountReq, ho, hm]

theorem mountReq_accepted {tag quota format : Byte} {regionId : Word} {on : Bool} (ho : onOff format = some on)
    (hg : geometryOf base len regionId units motion quota on = g) (hm : mountRefusal base len units motion g s = none) :
    mountReq tag base len regionId units motion quota format s =
      answer 0x20 tag .accepted (u16 g.slotCount ++ u32 g.slotSize ++ u8 g.quota) (startMount g s) := by
  simp [mountReq, ho, hg, hm]

end

/-! ## UNMOUNT (R116) -/

section
variable {s : State} {tag : Byte}

theorem unmount_taken (ht : Takes s) : exec (.unmount tag) s = .next (unmountReq tag s) :=
  takeReq_takes ht _

/-- R116: an UNMOUNT in READY is held and the port settled. -/
theorem unmountReq_ready (hw : s.cwr.writer = .ready) : unmountReq tag s = settle (hold (.unmount tag) s) :=
  if_pos hw

/-- R116: an UNMOUNT that need not wait ends at once. -/
theorem UnmountOver.ofHold {t : State} (h : UnmountOver tag (hold (.unmount tag) s) t) : UnmountOver tag s t := by
  obtain ⟨h1, h2, h3, h4, h5, h6, h7, h8, h9⟩ := h
  exact ⟨h1, h2, h3, h4, h5, h6, h7, h8, h9.trans (eventsWith_congr _ rfl rfl)⟩

/-- R116: with updates to write, the first of them has the port. -/
theorem unmount_waits (hw : s.cwr.writer = .ready) (hg : s.sdr.geo ≠ none) (hp : s.cwr.port = none)
    (hn : ∃ j ∈ s.sdr.queue, needsUpdate s j = true) :
    let t := settle (hold (.unmount tag) s)
    t.lnk = { s.lnk with req := some (.unmount tag) } ∧ KeepsCardButPort s t ∧ ArbiterGrants (hold (.unmount tag) s) t ∧
      ArbiterGrants (beforeGrant s t) t := by
  obtain ⟨-, ⟨-, -, -, -, hlnk⟩, hcard, hgrants⟩ :=
    settle_unmount_waits (s := hold (.unmount tag) s) hw hp hg hn
  exact ⟨hlnk, hcard, hgrants, hgrants.before hcard (by simp) (by rw [hlnk]) rfl rfl rfl rfl rfl⟩

/-- Any transfer but a host's read keeps an UNMOUNT waiting. -/
theorem headerUnderWay_eq {u : State} {x : Transfer} (hp : u.cwr.port = some x) :
    ((∃ w, x.op = .hostRead w) → headerUnderWay u = false) ∧ ((∀ w, x.op ≠ .hostRead w) → headerUnderWay u = true) := by
  simp only [headerUnderWay, hp]
  refine ⟨fun ⟨w, hx⟩ => by rw [hx], fun hx => ?_⟩
  split
  · next w hw => exact absurd hw (hx w)
  · rfl

/-- R116: a transfer under way keeps the port; a host's read does not keep an UNMOUNT with an empty queue waiting. -/
theorem unmount_busy {x : Transfer} (hw : s.cwr.writer = .ready) (hp : s.cwr.port = some x) :
    (s.sdr.queue = [] → (∃ w, x.op = .hostRead w) → UnmountOver tag s (settle (hold (.unmount tag) s))) ∧
      (s.sdr.queue ≠ [] ∨ (∀ w, x.op ≠ .hostRead w) →
        settle (hold (.unmount tag) s) = refreshOffers (hold (.unmount tag) s)) := by
  have hport : (refreshOffers (hold (.unmount tag) s)).cwr.port = some x := hp
  have hs : settle (hold (.unmount tag) s) = finishUnmount (refreshOffers (hold (.unmount tag) s)) := by
    rw [settle_ready (s := hold (.unmount tag) s) hw, show (hold (.unmount tag) s).cwr.port = some x from hp]
    rfl
  rw [hs]
  refine ⟨fun hq hx => ?_, fun h => finishUnmount_waits (h.imp_right (headerUnderWay_eq hport).2)⟩
  have hover := finishUnmount_over (t := refreshOffers (hold (.unmount tag) s)) (tag := tag) rfl hw hq
      ((headerUnderWay_eq hport).1 hx)
  obtain ⟨h1, h2, h3, h4, h5, h6, h7, h8, h9⟩ := hover
  exact ⟨h1, h2, h3, h4, h5, h6, h7, h8, h9.trans (eventsWith_congr _ rfl rfl)⟩

/-- R114: the slot at the head of the queue that needs its header written is the one whose header is. -/
theorem grantOf_head {g : Geometry} {i : Nat} {rest : List Nat} {e : Entry} (hq : s.sdr.queue = i :: rest)
    (he : entryAt s i = some e) (hst : e.st = .closed ∨ e.st = .recovered) :
    grantOf g s = some ⟨.headerUpdate i, g.base + i * g.slotSize, 1,
        closedHeader g.regionId (optReasonCode e.reason) e, 1, s.now⟩ ∧ queueAfter s = rest := by
  have hn : needsUpdate s i = true := by
    obtain hst | hst := hst <;> simp [needsUpdate, he, hst]
  have ho : e.st ≠ .opened := by
    obtain hst | hst := hst <;> simp [hst]
  have hnext : nextUpdate s = some i := by simp [nextUpdate, hq, hn]
  exact ⟨by simp [grantOf, hnext, headerTransfer, he, updateHeader, ho, headerBlock], by simp [queueAfter, hq, hn]⟩

/-- Settling in READY leaves the channels and the charger. -/
theorem settle_ready_keeps (hw : s.cwr.writer = .ready) : (settle s).adu = s.adu ∧ (settle s).chg = s.chg := by
  rw [settle_ready hw]
  split <;> simp

end

/-- Settles O42: MOUNT by its cases in order, UNMOUNT by what the settled port makes of one that is held. -/
theorem mountAndUnmount : Obligations.MountAndUnmount := by
  unfold Obligations.MountAndUnmount
  refine ⟨fun tag base len regionId units motion quota format s ht => ?_, fun tag s ht => ?_,
    fun tag s x i ha hw hr hp hx hg hidle => ?_⟩
  · intro size count q g does
    have hexec : exec (.mount tag base len regionId units motion quota format) s =
        .next (mountReq tag base len regionId units motion quota format s) := takeReq_takes ht _
    have hg : geometryOf base len regionId units motion quota (format == 1#8) = g := by
      simp only [geometryOf, g, clampNat_eq (Nat.zero_le _), Nat.zero_max]
      rfl
    refine ⟨fun hf => ?_, fun hf => ?_⟩
    · simp only [does, hexec, mountReq, onOff_none hf]
      rfl
    · simp only [does, hexec]
      refine ⟨fun h1 h2 => ?_, fun h => ⟨fun hp => ?_, fun hp => ⟨fun hb => ?_, fun hb => ?_⟩⟩⟩
      · exact congrArg _ (mountReq_refused (onOff_some hf) (mountRefusal_state h1 h2))
      · exact congrArg _ (mountReq_refused (onOff_some hf) (mountRefusal_noCard h hp))
      · exact congrArg _ (mountReq_refused (onOff_some hf) ((mountRefusal_range h hp).1 (by rw [hg]; exact hb)))
      · exact congrArg _ (mountReq_accepted (onOff_some hf) hg ((mountRefusal_range h hp).2 hb))
  · intro held
    simp only [unmount_taken ht]
    refine ⟨fun hw => ?_, fun hw hi hg => ⟨fun hp hn => ?_, fun hp hn => ?_,
      fun x hp => ⟨fun hq hx => ?_, fun hx => ?_⟩⟩,
      fun hw hq hp ho hc hs hd => ?_, fun g i e rest hw hq hp hg he hst => ?_⟩
    · rw [unmountReq, if_neg hw]
      rfl
    all_goals rw [unmountReq_ready hw]
    · exact ⟨_, rfl, .ofHold (settle_unmount_over (s := hold (.unmount tag) s) hw hp rfl hi hn)⟩
    · obtain ⟨hlnk, hcard, -, hgrants⟩ := unmount_waits (tag := tag) hw hg hp hn
      exact ⟨_, rfl, hlnk, hcard, hgrants⟩
    · exact ⟨_, rfl, (unmount_busy hw hp).1 hq hx⟩
    · rw [(unmount_busy hw hp).2 hx]
      exact ⟨_, rfl, rfl, ⟨rfl, rfl, rfl, rfl⟩, rfl, hp⟩
    · have hn : ∀ j ∈ (hold (.unmount tag) s).sdr.queue, needsUpdate (hold (.unmount tag) s) j = false := by
        rw [show (hold (.unmount tag) s).sdr.queue = [] from hq]
        exact fun j hj => absurd hj List.not_mem_nil
      obtain ⟨h1, h2, h3, h4, h5, h6, h7, h8, h9⟩ := UnmountOver.ofHold
        (settle_unmount_over (s := hold (.unmount tag) s) hw hp rfl ⟨ho, hc, hs, hd⟩ hn)
      obtain ⟨hadu, hchg⟩ := settle_ready_keeps (s := hold (.unmount tag) s) hw
      exact ⟨_, rfl, ⟨by simp, by simp, by simp⟩, ⟨by simp, by simp, by simp⟩, hadu, by simp, hchg, by simp,
        h1, h2, h3, h4, h5, h6, h7, h8, h9⟩
    · have hn : ∃ j ∈ s.sdr.queue, needsUpdate s j = true := by
        refine ⟨i, by simp [hq], ?_⟩
        obtain hst | hst := hst <;> simp [needsUpdate, he, hst]
      obtain ⟨hlnk, hcard, hgrants, -⟩ := unmount_waits (tag := tag) hw (by simp [hg]) hp hn
      obtain ⟨hport, -, hqueue⟩ := hgrants g hg
      obtain ⟨hx, hafter⟩ := grantOf_head (s := hold (.unmount tag) s) (g := g) hq he hst
      exact ⟨_, rfl, hlnk, by rw [hcard.cwr_eq rfl, hw], hqueue.trans hafter, hport.trans hx⟩
  · have hexec : exec .headerUpdateDone s = .next (settle (setPort none s)) := by
      have : portOp s = some (.headerUpdate i) := by simp [portOp, hp, hx]
      simp only [exec, execHeaderUpdateDone, whenUp_awake ha, this]
    obtain ⟨-, hunmount, -⟩ := settle_freed s
    obtain ⟨hwaits, hover⟩ := hunmount tag hw hr hg hidle
    refine ⟨_, hexec, ⟨by simp [setPort], by simp [setPort], by simp [setPort]⟩,
      ⟨by simp [setPort], by simp [setPort], by simp [setPort]⟩, hover, fun hn => ?_⟩
    obtain ⟨-, -, hlnk, hcard, hgrants⟩ := hwaits hn
    have hk : KeepsCardButPort (setPort none s) (settle (setPort none s)) := .trans ⟨rfl, rfl, rfl, rfl⟩ hcard
    exact ⟨hlnk, hcard, hgrants.before hk (by simp) (by rw [hlnk]; rfl) rfl rfl rfl rfl rfl⟩

end Sys2Proof.Machine
end

section
/-! The slot the directory chooses (R106): the FREE slot of lowest index, or else the unlocked recorded slot of lowest
sequence. -/

namespace Sys2Proof.Machine

/-! ## The first slot in a state -/

theorem findState_eq (st : SlotState) : ∀ (es : List Entry) (k : Nat),
    findState st k es = (es.findIdx? fun e => e.st == st).map (· + k)
  | [], _ => rfl
  | e :: rest, k => by
      by_cases h : e.st = st
      · simp [findState, List.findIdx?_cons, h]
      · simp only [findState, h, if_false, findState_eq st rest (k + 1), List.findIdx?_cons, beq_eq_false_iff_ne.mpr h,
          Bool.false_eq_true, Option.map_map]
        congr 1
        funext j
        simp only [Function.comp]
        omega

/-- Slot `i` is in state `st`. -/
def SlotIn (st : SlotState) (s : State) (i : Nat) : Prop := (entryAt s i).map Entry.st = some st

theorem findState_some (st : SlotState) (s : State) (i : Nat) :
    findState st 0 s.sdr.entries = some i ↔ SlotIn st s i ∧ ∀ j < i, ¬ SlotIn st s j := by
  have hin (j : Nat) (hj : j < s.sdr.entries.length) : SlotIn st s j ↔ s.sdr.entries[j].st = st := by
    simp [SlotIn, entryAt, List.getElem?_eq_getElem hj]
  rw [findState_eq]
  simp only [Nat.add_zero, Option.map_id', List.findIdx?_eq_some_iff_getElem]
  constructor
  · rintro ⟨hi, hst, hlow⟩
    exact ⟨(hin i hi).mpr (by simpa using hst), fun j hj h => hlow j hj (by simpa using (hin j (by omega)).mp h)⟩
  · rintro ⟨hst, hlow⟩
    have hi : i < s.sdr.entries.length := by
      by_contra hn
      simp [SlotIn, entryAt, List.getElem?_eq_none (Nat.le_of_not_lt hn)] at hst
    exact ⟨hi, by simpa using (hin i hi).mp hst,
      fun j hj h => hlow j hj ((hin j (by omega)).mpr (by simpa using h))⟩

theorem findState_none (st : SlotState) (s : State) :
    findState st 0 s.sdr.entries = none ↔ ∀ j, ¬ SlotIn st s j := by
  rw [findState_eq]
  simp only [Option.map_eq_none_iff, List.findIdx?_eq_none_iff, beq_eq_false_iff_ne, SlotIn, entryAt]
  constructor
  · intro h j hj
    obtain ⟨e, he, hst⟩ := Option.map_eq_some_iff.mp hj
    exact h e (List.mem_of_getElem? he) hst
  · intro h e he hst
    obtain ⟨j, hj⟩ := List.getElem?_of_mem he
    exact h j (by simp [hj, hst])

/-! ## The lowest sequence -/

/-- Of the entries with the lowest sequence the first is taken. -/
theorem lowestSeq_first (p : Nat → Entry → Bool) : ∀ (es : List Entry) (k q i : Nat), lowestSeq p k es = some (q, i) →
    ∀ j e, k + j < i → es[j]? = some e → e.sequence = some q → p (k + j) e = false
  | [], _, _, _, h => by simp [lowestSeq] at h
  | x :: es, k, q, i, h => by
      have later (hl : lowestSeq p (k + 1) es = some (q, i)) (hx : x.sequence = some q → p k x = false) :
          ∀ j e, k + j < i → (x :: es)[j]? = some e → e.sequence = some q → p (k + j) e = false := by
        intro j e hj he hq
        cases j with
        | zero =>
            cases he
            exact hx hq
        | succ j =>
            have := lowestSeq_first p es (k + 1) q i hl j e (by omega) he hq
            rwa [show k + 1 + j = k + (j + 1) by omega] at this
      simp only [lowestSeq] at h
      cases hx : x.sequence with
      | none => exact later (by simpa [hx] using h) (by simp [hx])
      | some r =>
          by_cases hp : p k x = true
          · simp only [hx, hp, if_true] at h
            have here (hr : some (r, k) = some (q, i)) :
                ∀ j e, k + j < i → (x :: es)[j]? = some e → e.sequence = some q → p (k + j) e = false := by
              cases hr
              intro j e hj
              omega
            cases hl : lowestSeq p (k + 1) es with
            | none => exact here (by simpa [hl] using h)
            | some y =>
                simp only [hl] at h
                split at h
                · exact here h
                · next hlt =>
                  cases h
                  refine later hl fun hq => ?_
                  cases hx.symm.trans hq
                  omega
          · simp only [Bool.not_eq_true] at hp
            simp only [hx, hp, Bool.false_eq_true, if_false] at h
            exact later h fun _ => hp

/-! ## The choice -/

/-- R106: slot `i` is recorded and unlocked, with sequence `q`. -/
def OldSlot (s : State) (i q : Nat) : Prop :=
  ∃ e, entryAt s i = some e ∧ (e.st = .closed ∨ e.st = .recovered) ∧ e.locks.impact = false ∧ e.locks.keep = false ∧
    e.sequence = some q

/-- R106: slot `i` is the one to open next. -/
def Chosen (s : State) (i : Nat) : Prop :=
  (SlotIn .free s i ∧ ∀ j < i, ¬ SlotIn .free s j) ∨
    ((∀ j, ¬ SlotIn .free s j) ∧ ∃ q, OldSlot s i q ∧ (∀ j p, OldSlot s j p → q ≤ p) ∧ ∀ j < i, ¬ OldSlot s j q)

theorem oldSlot_iff {s : State} {i q : Nat} : OldSlot s i q ↔
    ∃ e, s.sdr.entries[i]? = some e ∧ e.sequence = some q ∧ (recorded e && unlocked e) = true := by
  constructor
  · rintro ⟨e, he, hst, hi, hk, hq⟩
    exact ⟨e, he, hq, by obtain hst | hst := hst <;> simp [recorded, unlocked, hst, hi, hk]⟩
  · rintro ⟨e, he, hq, hp⟩
    simp only [recorded, unlocked, Bool.and_eq_true, Bool.or_eq_true, beq_iff_eq, Bool.not_eq_true'] at hp
    exact ⟨e, he, hp.1, hp.2.1, hp.2.2, hq⟩

/-- R106: what the directory chooses, while a sequence is left, is the slot to open next. -/
theorem chooseSlot_chosen {s : State} (hq : s.sdr.nextSeq ≠ none) :
    (∀ i, chooseSlot s = some i → Chosen s i) ∧ (chooseSlot s = none → ∀ i, ¬ Chosen s i) := by
  obtain ⟨n, hn⟩ := Option.ne_none_iff_exists'.mp hq
  simp only [chooseSlot, hn]
  cases hf : findState .free 0 s.sdr.entries with
  | some k =>
      refine ⟨fun i hi => ?_, fun h => nomatch h⟩
      cases hi
      exact .inl ((findState_some .free s k).mp hf)
  | none =>
      have hfree := (findState_none .free s).mp hf
      obtain ⟨hnone, hsome⟩ := lowestSeq_spec (fun _ e => recorded e && unlocked e) s.sdr.entries 0
      refine ⟨fun i hi => ?_, fun h i hc => ?_⟩
      · obtain ⟨⟨q, k⟩, hk, rfl⟩ := Option.map_eq_some_iff.mp hi
        have hfirst := lowestSeq_first _ _ _ _ _ hk
        obtain ⟨j, e, rfl, he, hq, hp, hlow⟩ := hsome q k hk
        rw [Nat.zero_add] at *
        refine .inr ⟨hfree, q, oldSlot_iff.mpr ⟨e, he, hq, hp⟩, fun j' p hold => ?_, fun j' hj hold => ?_⟩
        · obtain ⟨x, hx, hxq, hxp⟩ := oldSlot_iff.mp hold
          exact hlow j' x p hx hxq hxp
        · obtain ⟨x, hx, hxq, hxp⟩ := oldSlot_iff.mp hold
          have := hfirst j' x (by omega) hx hxq
          simp [this] at hxp
      · obtain ⟨hin, -⟩ | ⟨-, q, hold, -⟩ := hc
        · exact hfree i hin
        · obtain ⟨x, hx, hxq, hxp⟩ := oldSlot_iff.mp hold
          have := hnone (Option.map_eq_none_iff.mp h) i x q hx hxq
          simp [this] at hxp

/-- R106: there is at most one slot to open next. -/
theorem Chosen.unique {s : State} {i j : Nat} (hi : Chosen s i) (hj : Chosen s j) : i = j := by
  obtain ⟨hin, hlow⟩ | ⟨hfree, q, hold, hmin, hfirst⟩ := hi <;>
    obtain ⟨hin', hlow'⟩ | ⟨hfree', q', hold', hmin', hfirst'⟩ := hj
  · have h1 : ¬ j < i := fun h => hlow j h hin'
    have h2 : ¬ i < j := fun h => hlow' i h hin
    omega
  · exact absurd hin (hfree' i)
  · exact absurd hin' (hfree j)
  · have hq : q = q' := Nat.le_antisymm (hmin j q' hold') (hmin' i q hold)
    subst hq
    have h1 : ¬ j < i := fun h => hfirst j h hold'
    have h2 : ¬ i < j := fun h => hfirst' i h hold
    omega

theorem chooseSlot_iff {s : State} (hq : s.sdr.nextSeq ≠ none) (i : Nat) : chooseSlot s = some i ↔ Chosen s i := by
  obtain ⟨hsome, hnone⟩ := chooseSlot_chosen hq
  refine ⟨hsome i, fun hi => ?_⟩
  cases hc : chooseSlot s with
  | none => exact absurd hi (hnone hc i)
  | some j => rw [hi.unique (hsome j hc)]

end Sys2Proof.Machine
end

section
/-! O43: REC_START and REC_STOP (R106, R107, R120, R131, R132, R169). -/

namespace Sys2Proof.Machine

/-! ## The recording that begins (R107, R120) -/

/-- A cursor once slot `i` has been chosen (R107). -/
def cursorAfter (i : Nat) (c : Option Cursor) : Option Cursor :=
  c.map fun c => { c with stale := c.stale || c.slot == i }

/-- The state in which slot `i` has been opened with sequence `q` and records. -/
def recordingIn (i q : Nat) (s : State) : State :=
  { s with
    sdr := { s.sdr with
      entries := rewritten i (openedEntry q s.sdr.nextRec s.now) s.sdr.entries
      nextSeq := seqAfter q
      nextRec := recAfter s.sdr.nextRec }
    cbf := { s.cbf with assigned := 0, admitted := setAdmitted i 0 [] }
    cwr := { s.cwr with
      writer := .recording
      recId := some s.sdr.nextRec
      lastSlot := some i
      units := 0
      stopMark := none
      closeReason := none
      cursor := cursorAfter i s.cwr.cursor } }

theorem startRecording_eq {s : State} (hr : s.lnk.req = none) (i q : Nat) :
    startRecording i q s = recordingIn i q s := by
  have hu : ({ s with cbf := { s.cbf with admitted := [] } } : State).lnk.req = none := hr
  simp only [startRecording, openTheSlot, resetEntry_unheld hu]
  rfl

/-- The entry of the slot chosen (R107). -/
def openedAs (q : Nat) (s : State) : Entry :=
  { freeEntry with
    st := .opened
    sequence := some q
    recId := some s.sdr.nextRec
    openTime := some s.now }

/-- The entries of a directory with slot `i` chosen. -/
theorem recordingIn_entries {s : State} {i : Nat} {e : Entry} (q : Nat) (he : entryAt s i = some e) (j : Nat) :
    (entryAt (recordingIn i q s) j).map unqueued =
      if j = i then some (openedAs q s) else (entryAt s j).map unqueued := by
  simp only [recordingIn, entryAt, getElem?_rewritten, Option.map_map] at he ⊢
  by_cases hj : j = i
  · subst hj
    simp [he, openedEntry, unqueued, freeEntry, openedAs]
  · simp [hj]
    rfl

/-- The chosen slot has an entry. -/
theorem Chosen.entry {s : State} {i : Nat} (h : Chosen s i) : ∃ e, entryAt s i = some e := by
  obtain ⟨hin, -⟩ | ⟨-, q, ⟨e, he, -⟩, -⟩ := h
  · obtain ⟨e, he, -⟩ := Option.map_eq_some_iff.mp hin
    exact ⟨e, he⟩
  · exact ⟨e, he⟩

/-- With no slot open before, the slot chosen is the OPEN one; none is CLOSING that was not. -/
theorem recordingIn_slots {s : State} {i : Nat} (q : Nat) (h : Chosen s i) (ho : openSlot s = none)
    (hc : closingSlot s = none) :
    openSlot (recordingIn i q s) = some i ∧ closingSlot (recordingIn i q s) = none := by
  obtain ⟨e, he⟩ := h.entry
  have hst (j : Nat) : (entryAt (recordingIn i q s) j).map Entry.st =
      if j = i then some .opened else (entryAt s j).map Entry.st := by
    simp only [recordingIn, entryAt, getElem?_rewritten, Option.map_map] at he ⊢
    by_cases hj : j = i
    · subst hj
      simp [he, openedEntry]
    · simp [hj]
      rfl
  have hopen := (findState_none .opened s).mp ho
  have hclosing := (findState_none .closing s).mp hc
  refine ⟨(findState_some .opened _ i).mpr ⟨?_, fun j hj => ?_⟩, (findState_none .closing _).mpr fun j => ?_⟩
  · simp [SlotIn, hst]
  · have := hopen j
    simpa [SlotIn, hst, Nat.ne_of_lt hj] using this
  · have := hclosing j
    by_cases hj : j = i <;> simp_all [SlotIn]

/-! ## Settling with no UNMOUNT held -/

/-- Settling with no UNMOUNT held leaves the numbers of the directory, and the reply. -/
theorem settle_numbers {s : State} (hr : ∀ tag, s.lnk.req ≠ some (.unmount tag)) :
    (settle s).sdr.nextSeq = s.sdr.nextSeq ∧ (settle s).sdr.nextRec = s.sdr.nextRec ∧
      (settle s).lnk.reply = s.lnk.reply := by
  simp only [settle]
  rw [finishUnmount_none]
  · (repeat' split) <;> simp
  · (repeat' split) <;> simpa using hr

/-- Settling leaves a port that is taken, and what waits for it. -/
theorem settle_taken {s : State} (hr : ∀ tag, s.lnk.req ≠ some (.unmount tag)) (hp : s.cwr.port ≠ none) :
    settle s = refreshOffers s := by
  have hport : (refreshOffers s).cwr.port.isNone = false := by
    cases h : s.cwr.port with
    | none => exact absurd h hp
    | some x => simp [refreshOffers, h]
  simp only [settle, hport, Bool.false_and, Bool.false_eq_true, if_false]
  exact finishUnmount_none hr

/-! ## The close of a recording just begun (R169, R173) -/

/-- The emergency close of the OPEN slot `i` alone. -/
def closingAlone (i : Nat) (s : State) : State :=
  { s with
    sdr := { s.sdr with entries := rewritten i (fun e => { e with st := .closing }) s.sdr.entries, mark := none }
    cwr := { s.cwr with writer := .emergencyClose, stopMark := none, closeReason := some .emergency }
    ssv := { s.ssv with close := some ⟨s.ssv.budget, s.ssv.budget, .inherited, [i], false⟩ } }

theorem startClose_alone {s : State} {i : Nat} (hr : s.lnk.req = none) (ho : openSlot s = some i)
    (hc : closingSlot s = none) : startClose s = closingAlone i s := by
  have he : endMotionRead .state s = s := by simp [endMotionRead, hr]
  simp only [startClose, he, closeList, closeFirst, hc, ho, setSlotState, modEntry_eq]
  rfl

/-- All of the card writer but the port stands from `s` to `t`. -/
def KeepsWriter (s t : State) : Prop := t.cwr = { s.cwr with port := t.cwr.port }

theorem KeepsWriter.of_eq {s t : State} (h : t.cwr = s.cwr) : KeepsWriter s t := by rw [KeepsWriter, h]

theorem KeepsWriter.trans {s t u : State} (h : KeepsWriter s t) (k : KeepsWriter t u) : KeepsWriter s u := by
  rw [KeepsWriter] at *
  rw [k, h]

theorem withGeo_begin_keepsWriter (op : Xfer) (addr : Geometry → State → Nat) (blocks : Nat)
    (bytes : Geometry → State → List Byte) (s : State) :
    KeepsWriter s (withGeo (fun g s => begin op (addr g s) blocks (bytes g s) s) s) := by
  simp only [withGeo]
  split
  · exact .of_eq rfl
  · exact rfl

theorem beginHeader_keepsWriter (op : Xfer) (i : Nat) (bytes : Geometry → Entry → List Byte) (s : State) :
    KeepsWriter s (beginHeader op i bytes s) := by
  simp only [beginHeader, withGeo]
  split
  · exact .of_eq rfl
  · split
    · exact .of_eq rfl
    · exact rfl

section
variable (c : EmergencyClose) (k : Nat) (s : State)

theorem closeHeader_keepsWriter : KeepsWriter s (closeHeader k s) :=
  .trans (.of_eq rfl) (.trans (beginHeader_keepsWriter _ k _ (setPart .header s)) (.of_eq rfl))

theorem closeMotion_keepsWriter : KeepsWriter s (closeMotion c k s) := by
  have hend : KeepsWriter s (closeHeader k (loseRecords k s)) :=
    .trans (.of_eq (by simp)) (closeHeader_keepsWriter k (loseRecords k s))
  simp only [closeMotion]
  split
  · next o _ =>
    split
    · exact .trans (.of_eq rfl) (.trans (withGeo_begin_keepsWriter _ (fun g _ => motionBlock g o.slot o.number) 1
        (fun _ s => blockData o.real s.cbf) (setPart .motion s)) (.of_eq rfl))
    · exact hend
  · exact hend

theorem closeStream_keepsWriter : KeepsWriter s (closeStream c k s) := by
  have hend : KeepsWriter s (closeMotion c k (loseSegment k s)) :=
    .trans (.of_eq (by simp)) (closeMotion_keepsWriter c k (loseSegment k s))
  simp only [closeStream]
  split
  · next o _ =>
    split
    · exact .trans (.of_eq rfl) (.trans (withGeo_begin_keepsWriter _ (fun g _ => unitBlock g o.slot o.number) 128
        (fun _ s => unitData o.real s.cbf) (setPart .stream s)) (.of_eq rfl))
    · exact hend
  · exact hend

end

/-- A close with a slot to close keeps of the card writer all but the port. -/
theorem closeAdvance_keepsWriter {c : EmergencyClose} {s : State} {k : Nat} {rest : List Nat}
    (hc : s.ssv.close = some c) (ht : c.todo = k :: rest) : KeepsWriter s (closeAdvance s) := by
  have hv : KeepsWriter s (afterUpdates c s) := by
    refine .of_eq ?_
    simp only [afterUpdates]
    split <;> simp
  have hadv := closeAdvance_eq hc
  rw [hadv]
  split
  · next i _ =>
    refine hv.trans (.trans (.of_eq ?_) (.trans (beginHeader_keepsWriter (.emUpdate i) i updateHeader
      (dequeue i ((setPart .updates (afterUpdates c s)).sdr.queue.drop 1) (setPart .updates (afterUpdates c s))))
      (.of_eq rfl)))
    simp
  · simp only [ht]
    split
    · exact hv.trans (closeMotion_keepsWriter c k _)
    · exact hv.trans (closeStream_keepsWriter c k _)

/-- `u` and `v` agree on what an emergency close reads and reports. -/
structure ClosesAlike (u v : State) : Prop where
  now : u.now = v.now
  adu : u.adu = v.adu
  cbf : u.cbf = v.cbf
  directory : u.sdr.geo = v.sdr.geo ∧ u.sdr.entries = v.sdr.entries ∧ u.sdr.queue = v.sdr.queue
  recording : u.cwr.writer = v.cwr.writer ∧ u.cwr.recId = v.cwr.recId ∧ u.cwr.lastSlot = v.cwr.lastSlot
  arbiter : u.cwr.run = v.cwr.run ∧ u.cwr.offUnit = v.cwr.offUnit ∧ u.cwr.offBlock = v.cwr.offBlock ∧
    u.cwr.blockFirst = v.cwr.blockFirst
  chg : u.chg = v.chg
  ssv : u.ssv = v.ssv
  lnk : u.lnk = v.lnk

/-- What an emergency close does rests on nothing else. -/
theorem CloseGoesOn.congr {c : EmergencyClose} {u v t : State} (h : ClosesAlike u v) (k : CloseGoesOn c u t) :
    CloseGoesOn c v t := by
  obtain ⟨h1, h2, h3, ⟨h4, h5, h6⟩, ⟨h7, h8, h9⟩, ⟨h10, h11, h12, h13⟩, h14, h15, h16⟩ := h
  obtain ⟨now, msu, csu, ctx, adu, scn, cbf, ⟨geo, entries, nextSeq, nextRec, queue, mark⟩, ⟨writer, recId, lastSlot,
    stopMark, closeReason, port, run, units, offUnit, offBlock, blockFirst, cursor, present, cdet, cdetSince⟩, ips, chg,
    ssv, lnk, rst, pending⟩ := u
  dsimp only at h1 h2 h3 h4 h5 h6 h7 h8 h9 h10 h11 h12 h13 h14 h15 h16
  subst h1 h2 h3 h4 h5 h6 h7 h8 h9 h10 h11 h12 h13 h14 h15 h16
  exact k

end Sys2Proof.Machine
end

section
/-! O43, settled: the cases of REC_START and of REC_STOP. -/

namespace Sys2Proof.Machine

/-! ## REC_START (R120) -/

/-- The recording begun by a REC_START, answered; the port is still to be settled. -/
def recStarted (tag : Byte) (i q : Nat) (s : State) : State :=
  answer 0x22 tag .accepted (u16 i ++ u32 q ++ u16 s.sdr.nextRec) (recordingIn i q s)

section
variable {s : State} {tag : Byte} {i q : Nat}

/-- R120, R169: a REC_START with a slot to choose begins the recording there; in EMERGENCY its close begins at once. -/
theorem recStartReq_chosen (hr : s.lnk.req = none) (hw : s.cwr.writer = .ready) (hq : s.sdr.nextSeq = some q)
    (hc : Chosen s i) :
    recStartReq tag s =
      settle (if s.ssv.st = .emergency then startClose (recStarted tag i q s) else recStarted tag i q s) := by
  have hchoose : chooseSlot s = some i := (chooseSlot_iff (by simp [hq]) i).mpr hc
  simp only [recStartReq, if_pos hw, hchoose, hq, recStartWith, startRecording_eq hr]
  rfl

theorem recStartReq_noSlot (hw : s.cwr.writer = .ready) (h : s.sdr.nextSeq = none ∨ ∀ i, ¬ Chosen s i) :
    recStartReq tag s = answer 0x22 tag .noSlot [] s := by
  have hchoose : chooseSlot s = none := by
    cases hn : s.sdr.nextSeq with
    | none => simp [chooseSlot, hn]
    | some n =>
        refine Option.eq_none_iff_forall_ne_some.mpr fun i hi => ?_
        obtain h | h := h
        · exact nomatch hn.symm.trans h
        · exact h i ((chooseSlot_iff (by simp [hn]) i).mp hi)
  simp [recStartReq, hw, hchoose]

theorem recStarted_unheld (hr : s.lnk.req = none) (tag' : Byte) :
    (recStarted tag i q s).lnk.req ≠ some (.unmount tag') := by
  have : (recStarted tag i q s).lnk.req = none := hr
  simp [this]

/-- The law of the port holds as the recording begins. -/
theorem recStarted_portLaw (hr : s.lnk.req = none) : PortLaw (recStarted tag i q s) :=
  portLaw_unheld (by simp [recStarted, recordingIn, answer]) (recStarted_unheld hr)

/-- R125: with the port free, what the arbiter grants as the recording begins; the opening header when nothing is due
before it. -/
theorem recStarted_grants (hr : s.lnk.req = none) (hp : s.cwr.port = none) :
    ArbiterGrants (beforeGrant s (settle (recStarted tag i q s))) (settle (recStarted tag i q s)) := by
  have hlaw : PortLaw (recStarted tag i q s) := recStarted_portLaw hr
  have hgrants : ArbiterGrants (recStarted tag i q s) (settle (recStarted tag i q s)) := settle_arbitrates hlaw hp rfl
  obtain ⟨hcard, -, -, -, hlnk⟩ := settle_keeps hlaw
  exact hgrants.before hcard (by simp) (by rw [hlnk]) rfl rfl rfl rfl rfl

/-- R121: with no update due and no slot open or closing before, the opening header of the chosen slot has the port. -/
theorem recStarted_opening (hr : s.lnk.req = none) (hp : s.cwr.port = none) {g : Geometry} (hg : s.sdr.geo = some g)
    (hc : Chosen s i) (ho : openSlot s = none) (hl : closingSlot s = none)
    (hn : ∀ j ∈ s.sdr.queue, needsUpdate (settle (recStarted tag i q s)) j = false) :
    (settle (recStarted tag i q s)).cwr.port = some ⟨.openingHeader i, g.base + i * g.slotSize, 1,
      openHeader g.regionId (openedAs q s), 1, s.now⟩ := by
  have hlaw : PortLaw (recStarted tag i q s) := recStarted_portLaw hr
  obtain ⟨hport, -⟩ := settle_arbitrates hlaw hp rfl g hg
  obtain ⟨⟨-, -, hentries, -⟩, -⟩ := settle_keeps hlaw
  obtain ⟨hopen, hclosing⟩ := recordingIn_slots q hc ho hl
  have hopen : openSlot (recStarted tag i q s) = some i := hopen
  have hclosing : closingSlot (recStarted tag i q s) = none := hclosing
  have hnext : nextUpdate (recStarted tag i q s) = none := by
    refine List.find?_eq_none.mpr fun j hj => ?_
    rw [← SlotsAlike.needsUpdate_eq hentries]
    simpa using hn j hj
  obtain ⟨e, he⟩ := hc.entry
  obtain ⟨b, hb⟩ : ∃ b, entryAt (recStarted tag i q s) i = some { openedAs q s with queued := b } :=
    entry_of_unqueued ((recordingIn_entries q he i).trans (if_pos rfl))
  have hwritten : headerWritten (recStarted tag i q s) i = false := by
    simp only [headerWritten, hb]
    rfl
  have hnow : (recStarted tag i q s).now = s.now := rfl
  have hdue : openingTransfer g (recStarted tag i q s) = some ⟨.openingHeader i, headerBlock g i, 1,
      openHeader g.regionId { openedAs q s with queued := b }, 1, s.now⟩ := by
    simp [openingTransfer, hclosing, hopen, Option.filter, hwritten, headerTransfer, hb, hnow]
  rw [hport]
  simp only [grantOf, hnext, closedTransfer, hclosing, hdue]
  rfl

end

end Sys2Proof.Machine
end

section
/-! O43, settled: a REC_START in EMERGENCY, and REC_STOP. -/

namespace Sys2Proof.Machine

section
variable {s : State} {tag : Byte} {i q : Nat}

/-- R169: in EMERGENCY the recording just begun is the one to be closed. -/
theorem recStarted_closes (hr : s.lnk.req = none) (hc : Chosen s i) (ho : openSlot s = none)
    (hl : closingSlot s = none) :
    startClose (recStarted tag i q s) = closingAlone i (recStarted tag i q s) := by
  obtain ⟨hopen, hclosing⟩ := recordingIn_slots q hc ho hl
  exact startClose_alone hr hopen hclosing

theorem rewritten_rewritten (i : Nat) (f g : Entry → Entry) (es : List Entry) :
    rewritten i f (rewritten i g es) = rewritten i (fun e => f (g e)) es := by
  refine List.ext_getElem? fun j => ?_
  simp only [getElem?_rewritten, Option.map_map]
  congr 1
  funext e
  by_cases hj : j = i <;> simp [hj]

/-- No step of an emergency close touches the admitted counts. -/
theorem CloseGoesOn.admitted {c : EmergencyClose} {u t : State} {g : Geometry} (h : CloseGoesOn c u t)
    (hg : u.sdr.geo = some g) : t.cbf.admitted = u.cbf.admitted := by
  have := h g hg
  cases hs : closeStep c u <;> simp only [hs] at this
  case update => rw [this.2.1]
  case unit => rw [this.2.1]
  case block => rw [this.2.1]
  case header => rw [this.2.1]
  · rw [this.2.2.2.2.1]

/-- The state of which the close of the recording just begun is to be said: `s` with the slot chosen and CLOSING, the
admitted counts and the reply as they are left. -/
def closedAtOnce (i q : Nat) (admitted : List Admitted) (reply : Option Reply) (s : State) : State :=
  { s with
    sdr := { s.sdr with entries := rewritten i (fun e => { freeEntry with
      st := .closing
      sequence := some q
      recId := some s.sdr.nextRec
      openTime := some s.now
      queued := e.queued }) s.sdr.entries }
    cbf := { s.cbf with assigned := 0, admitted := admitted }
    cwr := { s.cwr with writer := .emergencyClose, recId := some s.sdr.nextRec, lastSlot := some i }
    ssv := { s.ssv with close := some ⟨s.ssv.budget, s.ssv.budget, .inherited, [i], false⟩ }
    lnk := { s.lnk with reply := reply } }

/-- R169, R173: in EMERGENCY the recording just begun is closed at once; on a free port the close goes on. -/
theorem recStarted_emergency (hr : s.lnk.req = none) (hp : s.cwr.port = none) :
    let t := settle (closingAlone i (recStarted tag i q s))
    t.cwr.writer = .emergencyClose ∧ t.cwr.recId = some s.sdr.nextRec ∧ t.cwr.closeReason = some .emergency ∧
      CloseGoesOn ⟨s.ssv.budget, s.ssv.budget, .inherited, [i], false⟩
        (closedAtOnce i q t.cbf.admitted t.lnk.reply s) t := by
  let u := closingAlone i (recStarted tag i q s)
  have hreq (tag') : u.lnk.req ≠ some (.unmount tag') := recStarted_unheld (tag := tag) (i := i) (q := q) hr tag'
  have hcwr := closeAdvance_keepsWriter (s := refreshOffers u) (k := i) rfl rfl
  have hs : settle u = closeAdvance (refreshOffers u) := settle_closing rfl hp hreq rfl (by rw [hcwr]; rfl)
  have hgo : CloseGoesOn ⟨s.ssv.budget, s.ssv.budget, .inherited, [i], false⟩ u (settle u) :=
    settle_goesOn rfl hp hreq rfl
  refine ⟨?_, ?_, ?_, fun g hg => ?_⟩
  · show (settle u).cwr.writer = _
    rw [hs, hcwr]; rfl
  · show (settle u).cwr.recId = _
    rw [hs, hcwr]; rfl
  · show (settle u).cwr.closeReason = _
    rw [hs, hcwr]; rfl
  · have halike : ClosesAlike u (closedAtOnce i q (settle u).cbf.admitted (settle u).lnk.reply s) := by
      rw [hgo.admitted hg, (settle_numbers hreq).2.2]
      exact ⟨rfl, rfl, rfl, ⟨rfl, rewritten_rewritten _ _ _ _, rfl⟩, ⟨rfl, rfl, rfl⟩,
        ⟨rfl, rfl, rfl, rfl⟩, rfl, rfl, rfl⟩
    exact hgo.congr halike g hg

end

end Sys2Proof.Machine
end

section
/-! O43, settled. -/

namespace Sys2Proof.Machine

/-! ## REC_STOP (R131, R132) -/

section
variable {s : State} {tag : Byte} {i : Nat}

/-- R132: a REC_STOP with a recording under way asks for a stop, and answers the slot it stops. -/
theorem recStopReq_asked (h : PortLaw s) (hw : s.cwr.writer = .recording ∨ s.cwr.writer = .rolling)
    (ho : openSlot s = some i) :
    let t := recStopReq tag s
    StopAsked .stop s t ∧ KeepsClock s t ∧ KeepsMotion s t ∧ KeepsPower s t ∧ t.adu = s.adu ∧
      t.lnk = { s.lnk with reply := some ⟨0xA3#8, tag, .accepted, u16 i⟩ } := by
  have hreq : recStopReq tag s = settle { askStop .stop s with
      lnk := { s.lnk with reply := some ⟨0xA3#8, tag, .accepted, u16 i⟩ } } := by
    obtain hw | hw := hw <;> simp [recStopReq, stopTaken, hw, ho, answer, optSlotCode]
  have hlaw := askStop_portLaw .stop h rfl rfl rfl (u := s)
    (l := { s.lnk with reply := some ⟨0xA3#8, tag, .accepted, u16 i⟩ }) rfl rfl
  obtain ⟨⟨h1, h2, h3⟩, ⟨h4, h5, h6⟩, ⟨h7, h8, h9, h10⟩, hadu, hlnk⟩ := settle_offCard hlaw
  refine ⟨askStop_settle_asked .stop h rfl rfl rfl rfl
    { s.lnk with reply := some ⟨0xA3#8, tag, .accepted, u16 i⟩ } rfl hreq, ?_⟩
  simp only [hreq]
  refine ⟨⟨h1.trans ?_, h2.trans ?_, h3.trans ?_⟩, ⟨h4.trans ?_, h5.trans ?_, h6.trans ?_⟩,
    ⟨h7.trans ?_, h8.trans ?_, h9.trans ?_, h10.trans ?_⟩, hadu.trans ?_, hlnk⟩ <;> simp

end

/-! ## REC_START -/

section
variable {s : State} {tag : Byte} {i q : Nat}

/-- R107, R120, R121: outside EMERGENCY the recording stands, its slot OPEN, and a free port is granted. -/
theorem recStarted_records (hr : s.lnk.req = none) (hc : Chosen s i) :
    let t := settle (recStarted tag i q s)
    t.cwr.writer = .recording ∧ t.cwr.recId = some s.sdr.nextRec ∧ t.cwr.lastSlot = some i ∧ t.cwr.stopMark = none ∧
      t.cwr.units = 0 ∧ t.cbf.assigned = 0 ∧ t.cbf.segs = s.cbf.segs ∧ t.lnk.events = s.lnk.events ∧
      (∀ j, (entryAt t j).map unqueued = if j = i then some (openedAs q s) else (entryAt s j).map unqueued) ∧
      (∀ c, s.cwr.cursor = some c → t.cwr.cursor = some { c with stale := c.stale || c.slot == i }) ∧
      (s.cwr.port ≠ none → t.cwr.port = s.cwr.port ∧ t.sdr.queue = s.sdr.queue ∧ t.cwr.run = s.cwr.run) := by
  have hlaw : PortLaw (recStarted tag i q s) := recStarted_portLaw hr
  obtain ⟨hcard, -, -, -, hlnk⟩ := settle_keeps hlaw
  have hcwr := hcard.cwr_eq rfl
  obtain ⟨hcbf, -⟩ := id hcard
  obtain ⟨e, he⟩ := hc.entry
  refine ⟨?_, ?_, ?_, ?_, ?_, ?_, ?_, ?_, fun j => ?_, fun c hcur => ?_, fun hp => ?_⟩
  iterate 5
    · rw [hcwr]
      rfl
  · rw [hcbf]; rfl
  · rw [hcbf]; rfl
  · rw [hlnk]; rfl
  · exact (hcard.entryAt_map unqueued (fun _ => rfl) j).trans (recordingIn_entries q he j)
  · rw [hcwr]
    simp [recStarted, recordingIn, answer, cursorAfter, hcur]
  · rw [settle_port hlaw hp]
    exact ⟨rfl, rfl, rfl⟩

/-- What holds of a REC_START in every supply state. -/
theorem recStarted_answers (hr : s.lnk.req = none) :
    let w := if s.ssv.st = .emergency then startClose (recStarted tag i q s) else recStarted tag i q s
    KeepsClock s (settle w) ∧ KeepsMotion s (settle w) ∧ (settle w).scn = s.scn ∧ (settle w).ips = s.ips ∧
      (settle w).lnk.reply = some ⟨0xA2#8, tag, .accepted, u16 i ++ u32 q ++ u16 s.sdr.nextRec⟩ ∧
      (settle w).sdr.nextSeq = seqAfter q ∧ (settle w).sdr.nextRec = recAfter s.sdr.nextRec := by
  intro w
  have hl : w.lnk = (recStarted tag i q s).lnk := by
    have he : endMotionRead .state (recStarted tag i q s) = recStarted tag i q s := by
      simp [endMotionRead, show (recStarted tag i q s).lnk.req = none from hr]
    simp only [w]
    split
    · simp [startClose, he]
    · rfl
  obtain ⟨hseq, hrec, hreply⟩ := settle_numbers (s := w) (by rw [hl]; exact recStarted_unheld hr)
  have hw : w.now = s.now ∧ w.rst = s.rst ∧ w.pending = s.pending ∧ w.msu = s.msu ∧ w.csu = s.csu ∧ w.ctx = s.ctx ∧
      w.scn = s.scn ∧ w.ips = s.ips ∧ w.sdr.nextSeq = seqAfter q ∧ w.sdr.nextRec = recAfter s.sdr.nextRec := by
    simp only [w]
    split
    · simp only [startClose_frame]
      exact ⟨rfl, rfl, rfl, rfl, rfl, rfl, rfl, rfl, rfl, rfl⟩
    · exact ⟨rfl, rfl, rfl, rfl, rfl, rfl, rfl, rfl, rfl, rfl⟩
  obtain ⟨h1, h2, h3, h4, h5, h6, h7, h8, h9, h10⟩ := hw
  simp only [KeepsClock, KeepsMotion, settle_frame]
  exact ⟨⟨h1, h2, h3⟩, ⟨h4, h5, h6⟩, h7, h8, by rw [hreply, hl]; rfl, hseq.trans h9, hrec.trans h10⟩

end

/-- Settles O43: REC_START by what the directory chooses, REC_STOP by the stop it asks for. -/
theorem recordingStartsAndStops : Obligations.RecordingStartsAndStops := by
  unfold Obligations.RecordingStartsAndStops
  refine ⟨fun tag s ht => ?_, fun tag s ht hlaw => ?_⟩
  · intro free old chosen
    obtain ⟨-, hr, -⟩ := id ht
    have hexec : exec (.recStart tag) s = .next (recStartReq tag s) := takeReq_takes ht _
    rw [hexec]
    refine ⟨fun hw => ?_, fun hw h => ?_, fun i q hw hq hc hm => ⟨_, rfl, ?_⟩⟩
    · simp [recStartReq, hw]
    · rw [recStartReq_noSlot hw h]; rfl
    · have hc : Chosen s i := hc
      obtain ⟨hclock, hmotion, hscn, hips, hreply, hseq, hrec⟩ := recStarted_answers (tag := tag) (i := i) (q := q) hr
      rw [recStartReq_chosen hr hw hq hc]
      refine ⟨hclock, hmotion, hscn, hips, hreply, hseq, hrec, fun hem => ?_, fun hem hp ho hl => ?_,
        fun hem hp ho hl => ?_⟩
      · rw [if_neg hem]
        obtain ⟨h1, h2, h3, h4, h5, h6, h7, h8, hentries, hcursor, htaken⟩ :=
          recStarted_records (tag := tag) (q := q) hr hc
        exact ⟨h1, h2, h3, h4, h5, h6, h7, h8, hentries, hcursor, htaken, recStarted_grants hr,
          fun g hp hg ho hl hn => recStarted_opening hr hp hg hc ho hl hn⟩
      · rw [if_pos hem, recStarted_closes hr hc ho hl,
          settle_taken (s := closingAlone i (recStarted tag i q s)) (recStarted_unheld (q := q) hr) hp]
        exact ⟨rfl, rfl, rfl, rfl⟩
      · rw [if_pos hem, recStarted_closes hr hc ho hl]
        exact recStarted_emergency hr hp
  · have hexec : exec (.recStop tag) s = .next (recStopReq tag s) := takeReq_takes ht _
    rw [hexec]
    refine ⟨fun h1 h2 => ?_, fun i hw ho => ⟨_, rfl, ?_⟩, fun i hw ho => ⟨_, rfl, ?_⟩⟩
    · simp [recStopReq, stopTaken, h1, h2]
    · obtain ⟨hstop, hclock, hmotion, hpower, hadu, hlnk⟩ := recStopReq_asked hlaw (.inl hw) ho
      obtain ⟨hclosing, -, -, htaken, hgrant⟩ := hstop
      have hcard := hclosing i hw ho
      have hcwr := hcard.cwr_eq rfl
      obtain ⟨hcbf, hsdr, -⟩ := id hcard
      refine ⟨hclock, hmotion, hpower, hadu, hlnk, by rw [hcwr], by rw [hcwr], hcbf, by rw [hsdr], fun hp => ?_,
        fun hp => hgrant hp (by rw [hw]; rfl), fun j => ?_⟩
      · exact ⟨(htaken (.inl hp)).1, (htaken (.inl hp)).2.2⟩
      · rw [hcard.entryAt_map unqueued (fun _ => rfl) j]
        simp only [entryAt, getElem?_rewritten, Option.map_map]
        congr 1
        funext e
        by_cases hj : j = i <;> simp [hj, unqueued]
    · obtain ⟨hstop, hclock, hmotion, hpower, hadu, hlnk⟩ := recStopReq_asked hlaw (.inr hw) ho
      obtain ⟨-, hmark, -, htaken, hgrant⟩ := hstop
      have hcard := hmark hw
      have hcwr := hcard.cwr_eq rfl
      obtain ⟨hcbf, hsdr, hentries, -⟩ := id hcard
      refine ⟨hclock, hmotion, hpower, hadu, hlnk, by rw [hcwr]; exact hw, by rw [hcwr], hcbf, by rw [hsdr], hentries,
        fun hp => ?_, fun hp => hgrant hp (by rw [hw]; rfl)⟩
      exact ⟨(htaken (.inl hp)).1, (htaken (.inl hp)).2.2⟩

end Sys2Proof.Machine
end

section
/-! O45: SLOT_READ and SLOT_LOCK (R105, R108, R113). -/

namespace Sys2Proof.Machine

/-- R105, R108: a directory stands outside UNMOUNTED, MOUNTING and FAULT. -/
theorem directoryUp_iff (w : Writer) : directoryUp w = true ↔ w ≠ .unmounted ∧ w ≠ .mounting ∧ w ≠ .fault := by
  cases w <;> simp [directoryUp]

/-! ## The entries of SLOT_READ's reply (Figure 12.9) -/

/-- A flag as a number. -/
def oneOf (b : Bool) : Nat := if b = true then 1 else 0

/-- An entry as Figure 12.9 lays it out. -/
def listedEntry (i : Nat) (e : Entry) : List Byte :=
  u16 i ++ u8 (slotStateCode e.st) ++ u8 (oneOf e.locks.impact + 2 * oneOf e.locks.keep)
    ++ u8 (oneOf e.sequence.isSome + 2 * oneOf e.recId.isSome + 4 * oneOf e.openTime.isSome
      + 8 * oneOf e.firstFrame.isSome)
    ++ u8 (oneOf e.queued + 2 * oneOf e.headerWritten) ++ u8 ((e.reason.map reasonCode).getD 0) ++ u8 e.impactCount
    ++ u32 (e.sequence.getD 0) ++ u16 (e.recId.getD 0) ++ u32 ((e.openTime.map BitVec.toNat).getD 0)
    ++ u32 e.streamBytes ++ u32 e.motionRecords ++ u32 e.motionDropped ++ u32 e.lostBytes
    ++ u32 ((e.firstFrame.map BitVec.toNat).getD 0)

theorem bitsCode_two (a b : Bool) : bitsCode [a, b] = oneOf a + 2 * oneOf b := by
  cases a <;> cases b <;> rfl

theorem bitsCode_four (a b c d : Bool) : bitsCode [a, b, c, d] = oneOf a + 2 * oneOf b + 4 * oneOf c + 8 * oneOf d := by
  cases a <;> cases b <;> cases c <;> cases d <;> rfl

theorem entryBytes_eq (i : Nat) (e : Entry) : entryBytes i e = listedEntry i e := by
  have hreason : optReasonCode e.reason = (e.reason.map reasonCode).getD 0 := by cases e.reason <;> rfl
  have hword (w : Option Word) : (w.getD 0).toNat = (w.map BitVec.toNat).getD 0 := by cases w <;> rfl
  simp only [entryBytes, listedEntry, lockCode, bitsCode_two, bitsCode_four, hreason, hword]

theorem entriesBytes_eq : ∀ (es : List Entry) (i : Nat),
    entriesBytes i es = (es.zipIdx i).flatMap fun x => listedEntry x.2 x.1
  | [], _ => rfl
  | e :: rest, i => by
      simp only [entriesBytes, List.zipIdx_cons, List.flatMap_cons, entryBytes_eq, entriesBytes_eq rest (i + 1)]

/-! ## A lock changed (R108) -/

section
variable {s : State} {i : Nat} {e : Entry} {l : LockSet}

/-- R108, R113: the queue after a lock set has become `l`. -/
def queueLocked (i : Nat) (l : LockSet) (e : Entry) (q : List Nat) : List Nat :=
  if l = e.locks ∨ i ∈ q then q else q ++ [i]

theorem setLocks_queue (he : entryAt s i = some e) :
    (setLocks i l s).sdr.queue = queueLocked i l e s.sdr.queue := by
  simp only [setLocks, he, queueLocked]
  by_cases hl : e.locks = l
  · simp [hl]
  · rw [if_neg hl, enqueue_queue]
    simp [Ne.symm hl]

theorem setLocks_entries (he : entryAt s i = some e) (j : Nat) :
    (entryAt (setLocks i l s) j).map unqueued =
      if j = i then some (unqueued { e with locks := l }) else (entryAt s j).map unqueued := by
  simp only [setLocks, he]
  by_cases hl : e.locks = l
  · subst hl
    by_cases hj : j = i
    · simp [hj, he]
    · simp [hj]
  · rw [if_neg hl, entryAt_congr (enqueue_unqueued i _) unqueued (fun _ => rfl)]
    simp only [modEntry_eq, entryAt, getElem?_rewritten, Option.map_map] at he ⊢
    by_cases hj : j = i
    · simp [hj, he]
    · simp [hj]
      rfl

/-- The rest of the state stands. -/
theorem setLocks_keeps (i : Nat) (l : LockSet) (s : State) :
    KeepsOffCard s (setLocks i l s) ∧ (setLocks i l s).cwr = s.cwr ∧ (setLocks i l s).cbf = s.cbf := by
  simp only [setLocks]
  (repeat' split) <;> simp [KeepsOffCard, KeepsClock, KeepsMotion, KeepsPower]

end

/-! ## SLOT_LOCK (R108) -/

section
variable {s : State} {slot : Half} {kind : Byte} {code tag : Byte} {on : Bool} {k : LockKind} {e : Entry}

theorem slotLockReq_noKind (hk : lockOf kind = none) :
    slotLockReq code tag on slot kind s = answer code tag .range [] s := by
  simp [slotLockReq, hk]

theorem slotLockReq_down (hk : lockOf kind = some k) (hd : directoryUp s.cwr.writer = false) :
    slotLockReq code tag on slot kind s = answer code tag .state [] s := by
  simp [slotLockReq, hk, hd]

theorem slotLockReq_noEntry (hk : lockOf kind = some k) (hd : directoryUp s.cwr.writer = true)
    (he : entryAt s slot.toNat = none) : slotLockReq code tag on slot kind s = answer code tag .range [] s := by
  simp [slotLockReq, hk, hd, he]

/-- R108: the host sets no IMPACT. -/
theorem slotLockReq_impact (hk : lockOf kind = some .impact) (hd : directoryUp s.cwr.writer = true) :
    slotLockReq code tag true slot kind s = answer code tag .range [] s := by
  simp only [slotLockReq, hk, hd]
  cases entryAt s slot.toNat <;> simp

theorem slotLockReq_unlockable (hk : lockOf kind = some k) (hd : directoryUp s.cwr.writer = true)
    (he : entryAt s slot.toNat = some e) (hi : ¬ (k = .impact ∧ on = true)) (hst : e.st = .free ∨ e.st = .bad) :
    slotLockReq code tag on slot kind s = answer code tag .state [] s := by
  simp only [slotLockReq, hk, hd, he, if_pos hst, if_neg hi, Bool.true_eq_false, if_false]

theorem slotLockReq_taken (hk : lockOf kind = some k) (hd : directoryUp s.cwr.writer = true)
    (he : entryAt s slot.toNat = some e) (hi : ¬ (k = .impact ∧ on = true)) (hst : ¬ (e.st = .free ∨ e.st = .bad)) :
    slotLockReq code tag on slot kind s =
      settle (answer code tag .ok (u8 (lockCode (locksAfter k on e.locks)))
        (setLocks slot.toNat (locksAfter k on e.locks) s)) := by
  simp [slotLockReq, hk, hd, he, hi, hst]

/-- R108, R113, R125: a lock changed, its header update asked for, and a free port granted. -/
theorem slotLock_locks {i : Nat} {l : LockSet} {status : Status} {data : List Byte} (hr : s.lnk.req = none)
    (hlaw : PortLaw s) (hup : directoryUp s.cwr.writer = true) (he : entryAt s i = some e) :
    let t := settle (answer code tag status data (setLocks i l s))
    let q' := queueLocked i l e s.sdr.queue
    KeepsClock s t ∧ KeepsMotion s t ∧ KeepsPower s t ∧ t.adu = s.adu ∧ t.cbf = s.cbf ∧
      t.lnk = { s.lnk with reply := some ⟨code + 0x80#8, tag, status, data⟩ } ∧ t.cwr.writer = s.cwr.writer ∧
      (∀ j, (entryAt t j).map unqueued =
        if j = i then some (unqueued { e with locks := l }) else (entryAt s j).map unqueued) ∧
      (s.cwr.port ≠ none → t.cwr.port = s.cwr.port ∧ t.sdr.queue = q') ∧
      (s.cwr.port = none → ArbiterGrants (beforeGrant { s with sdr := { s.sdr with queue := q' } } t) t) := by
  intro t q'
  obtain ⟨⟨hclock, hmotion, hpower, hadu, hlnk⟩, hcwr, hcbf⟩ := setLocks_keeps i l s
  let u := answer code tag status data (setLocks i l s)
  have hu : PortLaw u := by
    refine ⟨fun hw => ?_, fun tag' ht => ?_⟩
    · have h1 : u.cwr = s.cwr := hcwr
      rw [h1] at hw ⊢
      exact hlaw.1 hw
    · have h1 : u.lnk.req = (setLocks i l s).lnk.req := rfl
      rw [h1, hlnk, hr] at ht
      exact nomatch ht
  have hreply : u.lnk = { s.lnk with reply := some ⟨code + 0x80#8, tag, status, data⟩ } :=
    congrArg (fun n : Lnk => { n with reply := some ⟨code + 0x80#8, tag, status, data⟩ }) hlnk
  obtain ⟨⟨h1, h2, h3⟩, ⟨h4, h5, h6⟩, ⟨h7, h8, h9, h10⟩, h11, h12⟩ := settle_offCard hu
  obtain ⟨k1, k2, k3⟩ := hclock
  obtain ⟨k4, k5, k6⟩ := hmotion
  obtain ⟨k7, k8, k9, k10⟩ := hpower
  obtain ⟨hcard, -⟩ := settle_keeps hu
  have hqueue : u.sdr.queue = q' := setLocks_queue he
  have hportu : u.cwr.port = s.cwr.port := congrArg Cwr.port hcwr
  refine ⟨⟨h1.trans k1, h2.trans k2, h3.trans k3⟩, ⟨h4.trans k4, h5.trans k5, h6.trans k6⟩,
    ⟨h7.trans k7, h8.trans k8, h9.trans k9, h10.trans k10⟩, h11.trans hadu, ?_, h12.trans hreply, ?_, fun j => ?_,
    fun hp => ?_, fun hp => ?_⟩
  · exact (show t.cbf = u.cbf from hcard.1).trans hcbf
  · rw [show t.cwr = _ from hcard.cwr_eq hcwr]
  · exact (hcard.entryAt_map unqueued (fun _ => rfl) j).trans (setLocks_entries he j)
  · have ht : t = refreshOffers u := settle_port hu (by rwa [hportu])
    rw [ht]
    exact ⟨hportu, hqueue⟩
  · have ha : arbitrating u.cwr.writer = true := by
      have hne : s.cwr.writer ≠ .emergencyClose := fun hw => hlaw.1 hw hp
      rw [show u.cwr.writer = s.cwr.writer from congrArg Cwr.writer hcwr]
      revert hup hne
      cases s.cwr.writer <;> simp [directoryUp, arbitrating]
    have hgrants : ArbiterGrants u t := settle_arbitrates hu (hportu.trans hp) ha
    exact hgrants.before hcard h1 (by rw [show t.lnk = _ from h12]) hqueue.symm (congrArg Cwr.run hcwr).symm
      (congrArg Cwr.offUnit hcwr).symm (congrArg Cwr.offBlock hcwr).symm (congrArg Cwr.blockFirst hcwr).symm

end

/-! ## SLOT_READ (R105) -/

/-- R105: what a SLOT_READ with a directory and the slots asked for answers. -/
theorem slotReadReq_lists {s : State} {first : Half} {count tag : Byte} {g : Geometry}
    (hup : directoryUp s.cwr.writer = true) (hg : s.sdr.geo = some g)
    (h : 1 ≤ count.toNat ∧ count.toNat ≤ 16 ∧ first.toNat < s.sdr.entries.length) :
    let es := (s.sdr.entries.drop first.toNat).take count.toNat
    slotReadReq tag first count s = answer 0x25 tag .ok
      (u16 s.sdr.entries.length ++ u8 g.quota ++ u16 (s.sdr.entries.countP fun e => e.locks.impact)
        ++ u32 (s.sdr.nextSeq.getD Config.exhaustedSequence.toNat) ++ [if s.sdr.nextSeq = none then 1#8 else 0#8]
        ++ u8 es.length ++ (es.zipIdx first.toNat).flatMap fun x => listedEntry x.2 x.1) s := by
  intro es
  obtain ⟨h1, h2, h3⟩ := h
  have hthere : ¬ (count = 0 ∨ 16 < count.toNat ∨ s.sdr.entries.length ≤ first.toNat) := by
    rintro (rfl | h | h)
    · simp at h1
    · omega
    · omega
  have hseq : nextSeqField s.sdr.nextSeq = u32 (s.sdr.nextSeq.getD Config.exhaustedSequence.toNat) := by
    cases s.sdr.nextSeq <;> rfl
  have hflag : flag8 s.sdr.nextSeq.isNone = [if s.sdr.nextSeq = none then 1#8 else 0#8] := by
    cases s.sdr.nextSeq <;> rfl
  have hquota : quotaOf s = g.quota := by simp [quotaOf, hg]
  have hlocks : impactLocks s.sdr.entries = s.sdr.entries.countP fun e => e.locks.impact :=
    (List.countP_eq_length_filter).symm
  simp only [slotReadReq, hup, Bool.true_eq_false, if_false, if_neg hthere, hseq, hflag, hquota, hlocks,
    entriesBytes_eq]
  rfl

theorem slotReadReq_range {s : State} {first : Half} {count tag : Byte} (hup : directoryUp s.cwr.writer = true)
    (h : count = 0 ∨ 16 < count.toNat ∨ s.sdr.entries.length ≤ first.toNat) :
    slotReadReq tag first count s = answer 0x25 tag .range [] s := by
  simp only [slotReadReq, hup, if_pos h, Bool.true_eq_false, if_false]

theorem lockOf_iff (kind : Byte) : (kind ≠ 1#8 → kind ≠ 2#8 → lockOf kind = none) ∧
    ∀ k : LockKind, kind = (if k = .impact then 1#8 else 2#8) → lockOf kind = some k := by
  refine ⟨fun h1 h2 => ?_, fun k hk => ?_⟩
  · simp [lockOf, h1, h2]
  · cases k <;> subst hk <;> rfl

/-- Settles O45: SLOT_READ and SLOT_LOCK by their cases in order. -/
theorem directoryIsReadAndLocked : Obligations.DirectoryIsReadAndLocked := by
  unfold Obligations.DirectoryIsReadAndLocked
  refine ⟨fun tag count first s ht => ?_, fun tag kind slot s ht hlaw => ?_⟩
  · intro up there es one entry
    have hexec : exec (.slotRead tag first count) s = .next (slotReadReq tag first count s) := takeReq_takes ht _
    rw [hexec]
    refine ⟨fun hup => ?_, fun hup hth => ?_, fun hup hth g hg => ?_⟩
    · have hd : directoryUp s.cwr.writer = false := by
        rw [← Bool.not_eq_true, directoryUp_iff]
        exact hup
      simp [slotReadReq, hd]
    · have hd : directoryUp s.cwr.writer = true := (directoryUp_iff _).mpr hup
      have hbad : count = 0 ∨ 16 < count.toNat ∨ s.sdr.entries.length ≤ first.toNat := by
        by_contra hn
        refine hth ⟨?_, ?_, ?_⟩
        · by_contra h0
          exact hn (.inl (BitVec.eq_of_toNat_eq (by simp; omega)))
        · omega
        · omega
      exact congrArg _ (slotReadReq_range hd hbad)
    · exact congrArg _ (slotReadReq_lists ((directoryUp_iff _).mpr hup) hg hth)
  · intro up i locks
    obtain ⟨-, hr, -⟩ := id ht
    have hon : exec (.slotLockOn tag slot kind) s = .next (slotLockReq 0x26 tag true slot kind s) := takeReq_takes ht _
    have hoff : exec (.slotLockOff tag slot kind) s = .next (slotLockReq 0x27 tag false slot kind s) :=
      takeReq_takes ht _
    obtain ⟨hnone, hsome⟩ := lockOf_iff kind
    have hdown (h : ¬ up) : directoryUp s.cwr.writer = false := by
      rw [← Bool.not_eq_true, directoryUp_iff]
      exact h
    have hup' (h : up) : directoryUp s.cwr.writer = true := (directoryUp_iff _).mpr h
    refine ⟨fun h1 h2 => ?_, fun hkind => ?_⟩
    · rw [hon, hoff, slotLockReq_noKind (hnone h1 h2), slotLockReq_noKind (hnone h1 h2)]
      exact ⟨rfl, rfl⟩
    obtain ⟨k, hk⟩ : ∃ k, lockOf kind = some k := by
      obtain h | h := hkind
      · exact ⟨.impact, hsome .impact (by simpa using h)⟩
      · exact ⟨.keep, hsome .keep (by simpa using h)⟩
    rw [hon, hoff]
    refine ⟨fun hd => ?_, fun hup h1 => ?_, fun hup he => ?_, fun e hup he => ⟨fun hst => ⟨fun h2 => ?_, ?_⟩,
      fun hfree hbad on k hk hi => ?_⟩⟩
    · rw [slotLockReq_down hk (hdown hd), slotLockReq_down hk (hdown hd)]
      exact ⟨rfl, rfl⟩
    · exact congrArg _ (slotLockReq_impact (hsome .impact (by simpa using h1)) (hup' hup))
    · rw [slotLockReq_noEntry hk (hup' hup) he, slotLockReq_noEntry hk (hup' hup) he]
      exact ⟨rfl, rfl⟩
    · exact congrArg _ (slotLockReq_unlockable (hsome .keep (by simpa using h2)) (hup' hup) he (by simp) hst)
    · exact congrArg _ (slotLockReq_unlockable hk (hup' hup) he (by simp) hst)
    · intro l
      have hst : ¬ (e.st = .free ∨ e.st = .bad) := by tauto
      have hl : l = locksAfter k on e.locks := by cases k <;> rfl
      cases on with
      | true =>
          refine ⟨_, hon, ?_⟩
          rw [slotLockReq_taken (hsome k hk) (hup' hup) he (by tauto) hst, ← hl]
          exact slotLock_locks hr hlaw (hup' hup) he
      | false =>
          refine ⟨_, hoff, ?_⟩
          rw [slotLockReq_taken (hsome k hk) (hup' hup) he (by simp) hst, ← hl]
          exact slotLock_locks hr hlaw (hup' hup) he

end Sys2Proof.Machine
end

section
/-! A mount that ends at once, at a fault or a removal (R117, R135, R137, R140): what it answers, reports and leaves. -/

namespace Sys2Proof.Machine

/-- The requests held on the card's account are answered. -/
def requestsEnded (status : Status) (s : State) : State := endUnmount .state (endMotionRead status s)

/-- A mount has ended: a held MOTION_READ answered with `status` and a held UNMOUNT with STATE, the card's state given
up in state `w`, the CARD event `d` raised, and a recording ended with `reason`. -/
def mountEnded (w : Writer) (status : Status) (d : Detail) (reason : CloseReason) (s : State) : State :=
  checkStable (endRecording reason 0 0 (raise d (giveUpCard w (requestsEnded status s))))

section
variable {s : State} {w : Writer} {status : Status} {d : Detail} {reason : CloseReason}

theorem requestsEnded_cwr :
    (requestsEnded status s).cwr = { s.cwr with port := (requestsEnded status s).cwr.port } := by
  simp only [requestsEnded, endUnmount_frame, endMotionRead]
  (repeat' split) <;> rfl

/-- R140: a held MOTION_READ is answered with the status. -/
theorem requestsEnded_read {tag : Byte} {i k n taken} (h : s.lnk.req = some (.motionRead tag i k n taken)) :
    (requestsEnded status s).lnk = { s.lnk with req := none, reply := some ⟨0xA8#8, tag, status, []⟩ } := by
  have hr : (endMotionRead status s).lnk = { s.lnk with req := none, reply := some ⟨0xA8#8, tag, status, []⟩ } := by
    simp only [endMotionRead, h]
    (repeat' split) <;> rfl
  simp [requestsEnded, endUnmount, hr]

/-- R116, R137: a held UNMOUNT is answered STATE. -/
theorem requestsEnded_unmount {tag : Byte} (h : s.lnk.req = some (.unmount tag)) :
    (requestsEnded status s).lnk = { s.lnk with req := none, reply := some ⟨0xA1#8, tag, .state, []⟩ } := by
  have hr : endMotionRead status s = s := by simp [endMotionRead, h]
  simp only [requestsEnded, hr, endUnmount, h]
  rfl

/-- What a mount that ends at once leaves of the card side. -/
theorem mountEnded_leaves :
    let t := mountEnded w status d reason s
    KeepsClock s t ∧ KeepsMotion s t ∧ t.cwr = { s.cwr with
        writer := w
        port := none
        cursor := none
        stopMark := none
        closeReason := none
        recId := none
        lastSlot := t.cwr.lastSlot
        offUnit := false
        offBlock := false
        blockFirst := false } ∧
      t.sdr = Sdr.reset ∧ t.cbf = Cbf.reset ∧ t.ssv.close = none := by
  intro t
  have hcwr : (giveUpCard w (requestsEnded status s)).cwr = { s.cwr with
      writer := w
      port := none
      cursor := none
      stopMark := none
      closeReason := none
      offUnit := false
      offBlock := false
      blockFirst := false } := by
    simp only [giveUpCard, setWriter, discardDirectory, discardBuffer]
    rw [requestsEnded_cwr]
  have hsdr : (giveUpCard w (requestsEnded status s)).sdr = Sdr.reset := by
    simp only [giveUpCard, setWriter, discardDirectory, discardBuffer]
    split <;> rfl
  have hend := (endRecording_spec reason 0 0 (raise d (giveUpCard w (requestsEnded status s)))).1
  have ht : t.cwr = (endRecording reason 0 0 (raise d (giveUpCard w (requestsEnded status s)))).cwr := by
    simp [t, mountEnded]
  have hd : (raise d (giveUpCard w (requestsEnded status s))).cwr = (giveUpCard w (requestsEnded status s)).cwr := rfl
  have hclock : KeepsClock s t := by simp [KeepsClock, t, mountEnded, requestsEnded]
  have hmotion : KeepsMotion s t := by simp [KeepsMotion, t, mountEnded, requestsEnded]
  refine ⟨hclock, hmotion, ?_, ?_, ?_, ?_⟩
  · rw [ht, hend, hd, hcwr]
  · simp [t, mountEnded, hsdr]
  · simp [t, mountEnded]
  · simp [t, mountEnded]

/-- R135, R137: the CARD event, whatever else is raised after it. -/
theorem mountEnded_card (hd : detailClass d = .card) (hm : s.lnk.recordMask.getLsbD 3 = true) :
    (mountEnded w status d reason s).lnk.events.card = ⟨min 255 (s.lnk.events.card.count + 1), some d⟩ := by
  let v := giveUpCard w (requestsEnded status s)
  have hl : v.lnk.events = s.lnk.events ∧ v.lnk.recordMask = s.lnk.recordMask := by simp [v, requestsEnded]
  have hrec : v.lnk.recordMask.getLsbD (classBit (detailClass d)) = true := by
    rw [hl.2, hd]
    exact hm
  calc (mountEnded w status d reason s).lnk.events.card
      = eventGet (endRecording reason 0 0 (raise d v)).lnk.events .card :=
        checkStable_otherClass (k := .card) (by decide) _
    _ = eventGet (raise d v).lnk.events .card := by
        simp only [endRecording]
        split
        · rfl
        · exact raise_otherClass _ (by simp [detailClass])
    _ = countEvent (eventGet v.lnk.events .card) d := by rw [← hd]; exact raise_recorded hrec
    _ = _ := by rw [hl.1]; rfl

/-- R131, R135, R137: the RECORD event, of the recording that ends. -/
theorem mountEnded_record (hd : detailClass d = .card) (hm : s.lnk.recordMask.getLsbD 2 = true) {r : Nat}
    (hr : s.cwr.recId = some r) :
    (mountEnded w status d reason s).lnk.events.record = ⟨min 255 (s.lnk.events.record.count + 1),
      some (.recordStopped r reason s.now s.cwr.lastSlot 0 0)⟩ := by
  let v := giveUpCard w (requestsEnded status s)
  have hl : v.lnk.events = s.lnk.events ∧ v.lnk.recordMask = s.lnk.recordMask := by simp [v, requestsEnded]
  have hv : v.cwr.recId = s.cwr.recId ∧ v.cwr.lastSlot = s.cwr.lastSlot ∧ v.now = s.now := by
    refine ⟨by simp [v, requestsEnded], ?_, by simp [v, requestsEnded]⟩
    simp only [v, giveUpCard, setWriter, discardDirectory, discardBuffer]
    rw [requestsEnded_cwr]
  have hev : (raise d v).lnk.events.record = s.lnk.events.record :=
    (raise_otherClass (k := .record) v (by simp [hd])).trans (by rw [hl.1]; rfl)
  have hend := (endRecording_spec reason 0 0 (raise d v)).2 r (hv.1.trans hr) (by simpa [hl.2] using hm)
  have hst := checkStable_otherClass (k := .record) (by decide) (endRecording reason 0 0 (raise d v))
  have hnow : (raise d v).now = s.now := hv.2.2
  have hlast : (raise d v).cwr.lastSlot = s.cwr.lastSlot := hv.2.1
  rw [hev, hnow, hlast] at hend
  exact hst.trans hend

theorem mountEnded_replies :
    (mountEnded w status d reason s).lnk.req = (requestsEnded status s).lnk.req ∧
      (mountEnded w status d reason s).lnk.reply = (requestsEnded status s).lnk.reply := by
  simp [mountEnded]

/-- What a mount that ends at once answers, reports and leaves. -/
def EndsMount (w : Writer) (status : Status) (d : Detail) (reason : CloseReason) (s t : State) : Prop :=
  KeepsClock s t ∧ KeepsMotion s t ∧ t.cwr.present = s.cwr.present ∧ t.cwr.writer = w ∧ t.cwr.port = none ∧
    t.cwr.cursor = none ∧ t.cwr.stopMark = none ∧ t.cwr.recId = none ∧ t.sdr = Sdr.reset ∧ t.cbf = Cbf.reset ∧
    t.ssv.close = none ∧
    (s.lnk.recordMask.getLsbD 3 = true → t.lnk.events.card = ⟨min 255 (s.lnk.events.card.count + 1), some d⟩) ∧
    (∀ r, s.cwr.recId = some r → s.lnk.recordMask.getLsbD 2 = true →
      t.lnk.events.record = ⟨min 255 (s.lnk.events.record.count + 1),
        some (.recordStopped r reason s.now s.cwr.lastSlot 0 0)⟩) ∧
    (∀ tag i k n taken, s.lnk.req = some (.motionRead tag i k n taken) →
      t.lnk.req = none ∧ t.lnk.reply = some ⟨0xA8#8, tag, status, []⟩) ∧
    ∀ tag, s.lnk.req = some (.unmount tag) → t.lnk.req = none ∧ t.lnk.reply = some ⟨0xA1#8, tag, .state, []⟩

theorem mountEnded_ends (hd : detailClass d = .card) :
    EndsMount w status d reason s (mountEnded w status d reason s) := by
  obtain ⟨hclock, hmotion, hcwr, hsdr, hcbf, hclose⟩ := mountEnded_leaves (s := s) (w := w) (status := status) (d := d)
    (reason := reason)
  obtain ⟨hreq, hreply⟩ := mountEnded_replies (s := s) (w := w) (status := status) (d := d) (reason := reason)
  refine ⟨hclock, hmotion, by rw [hcwr], by rw [hcwr], by rw [hcwr], by rw [hcwr], by rw [hcwr], by rw [hcwr], hsdr,
    hcbf, hclose, mountEnded_card hd, fun r hr hm => mountEnded_record hd hm hr, fun tag i k n taken h => ?_,
    fun tag h => ?_⟩
  · rw [hreq, hreply, requestsEnded_read h]
    exact ⟨rfl, rfl⟩
  · rw [hreq, hreply, requestsEnded_unmount h]
    exact ⟨rfl, rfl⟩

end

end Sys2Proof.Machine
end

section
/-! O51: the card-detect input, insertion and removal (R116, R136, R137, R140). -/

namespace Sys2Proof.Machine

section
variable {s : State} {card : Bool} {began : Word}

/-- R136, R137: the input has differed from the presence for 20 ticks. -/
theorem detected_iff (h : s.cwr.cdetSince = some began) :
    detected card s = true ↔ (s.cwr.cdet = card ∧ s.cwr.present ≠ card) ∧ 20 ≤ (s.now - began).toNat := by
  have hticks : detectTicks = 20 := rfl
  simp only [detected, h, hticks, since, Bool.and_eq_true, beq_iff_eq, bne_iff_ne, decide_eq_true_eq]

theorem inserted_eq (h : detected true s = true) :
    inserted s = { s with
      cwr := { s.cwr with present := true, cdetSince := none }
      lnk := { s.lnk with events := eventsWith .cardInserted s } } := by
  rw [inserted, if_pos h, raise, raiseIn_eq]
  rfl

theorem removed_unmounted (h : detected false s = true) (hw : s.cwr.writer = .unmounted) :
    removed s = { s with
      cwr := { s.cwr with present := false, cdetSince := none }
      lnk := { s.lnk with events := eventsWith .cardRemoved s } } := by
  have hw' : (setPresent false s).cwr.writer = .unmounted := hw
  simp only [removed, if_pos h, if_pos hw', raise]
  rw [raiseIn_eq]
  rfl

/-- R137: a removal with a region mounted, or in MOUNTING or FAULT, ends the mount. -/
theorem removed_mounted (h : detected false s = true) (hw : s.cwr.writer ≠ .unmounted) :
    removed s = mountEnded .unmounted .noCard .cardRemoved .cardRemoved (setPresent false s) := by
  have hw' : (setPresent false s).cwr.writer ≠ .unmounted := hw
  simp only [removed, if_pos h, if_neg hw']
  rfl

end

/-- Settles O51: a card that comes is its event, one that goes ends what is mounted. -/
theorem cardComesAndGoes : Obligations.CardComesAndGoes := by
  unfold Obligations.CardComesAndGoes
  refine ⟨fun card s => rfl, fun s began ha hs => ?_⟩
  intro time
  have hins : exec .cardInserted s = .next (inserted s) := whenUp_awake ha _
  have hrem : exec .cardRemoved s = .next (removed s) := whenUp_awake ha _
  rw [hins, hrem]
  refine ⟨fun ht => ⟨?_, ?_⟩, fun ht hc hp => ⟨_, rfl, inserted_eq ((detected_iff hs).mpr ⟨⟨hc, by simp [hp]⟩, ht⟩)⟩,
    fun ht hc hp => ?_⟩
  · rw [inserted, if_neg fun hd => ht ((detected_iff hs).mp hd).2]
  · rw [removed, if_neg fun hd => ht ((detected_iff hs).mp hd).2]
  have hd : detected false s = true := (detected_iff hs).mpr ⟨⟨hc, by simp [hp]⟩, ht⟩
  refine ⟨fun hw => congrArg _ (removed_unmounted hd hw), fun hw => ⟨_, rfl, ?_⟩⟩
  rw [removed_mounted hd hw]
  have hends := mountEnded_ends (s := setPresent false s) (w := .unmounted) (status := .noCard) (d := .cardRemoved)
    (reason := .cardRemoved) rfl
  generalize mountEnded .unmounted .noCard .cardRemoved .cardRemoved (setPresent false s) = t at hends
  exact hends

end Sys2Proof.Machine
end

section
/-! O49: a header update, an opening header and a CLOSED header reach the card (R114, R121, R128, R129, R132, R173). -/

namespace Sys2Proof.Machine

/-- On a free port, with no UNMOUNT held, an arbiter's writer state is settled by a grant alone. -/
theorem settle_granted {u : State} (ha : arbitrating u.cwr.writer = true) (hr : ∀ tag, u.lnk.req ≠ some (.unmount tag))
    (hp : u.cwr.port = none) :
    KeepsOffCard u (settle u) ∧ KeepsCardButPort u (settle u) ∧ ArbiterGrants u (settle u) := by
  have hlaw : PortLaw u := portLaw_unheld (fun h => by simp [h, arbitrating] at ha) hr
  obtain ⟨hcard, -⟩ := settle_keeps hlaw
  exact ⟨settle_offCard hlaw, hcard, settle_arbitrates hlaw hp ha⟩

/-- A rewriting is known by what it does to the entry at its index. -/
theorem rewritten_congr {i : Nat} {f g : Entry → Entry} {es : List Entry} (h : ∀ e, es[i]? = some e → f e = g e) :
    rewritten i f es = rewritten i g es := by
  refine List.ext_getElem? fun j => ?_
  simp only [getElem?_rewritten]
  cases he : es[j]? with
  | none => rfl
  | some e =>
      by_cases hj : j = i
      · subst hj
        simp [h e he]
      · simp [hj]

/-- The entry that is rewritten. -/
theorem entryAt_modEntry_same {s : State} {i : Nat} {e : Entry} (he : entryAt s i = some e) (f : Entry → Entry) :
    entryAt (modEntry i f s) i = some (f e) := by
  have he' : s.sdr.entries[i]? = some e := he
  simp only [modEntry_eq, entryAt, getElem?_rewritten, he', Option.map_some, if_true]

section
variable {s : State} {x : Transfer} {i : Nat} {e : Entry} {reason : CloseReason}

/-! ## An opening header on card (R121, R129) -/

/-- The entry of slot `i` has its header written and SLOT(opened) is raised; the port is free. -/
def openingOnCard (i : Nat) (e : Entry) (s : State) : State :=
  { s with
    sdr := { s.sdr with entries := rewritten i (fun y => { y with headerWritten := true }) s.sdr.entries }
    cwr := { s.cwr with port := none }
    lnk := { s.lnk with
      events := eventsWith (.slotOpened i (e.sequence.getD 0) (e.recId.getD 0) (e.openTime.getD 0)) s } }

theorem openedEvent_eq (he : entryAt s i = some e) :
    openedEvent i (modEntry i (fun e => { e with headerWritten := true }) (setPort none s)) = openingOnCard i e s := by
  have hi : entryAt (modEntry i (fun e => { e with headerWritten := true }) (setPort none s)) i =
      some { e with headerWritten := true } := entryAt_modEntry_same (s := setPort none s) he _
  simp only [openedEvent, hi, raise]
  rw [raiseIn_eq, modEntry_eq]
  rfl

theorem openingOnCard_slots (i : Nat) (e : Entry) (s : State) : openSlot (openingOnCard i e s) = openSlot s := by
  have h : openSlot (openingOnCard i e s) = openSlot (modEntry i (fun y => { y with headerWritten := true }) s) := by
    rw [modEntry_eq]
    rfl
  exact h.trans (openSlot_congr (slotsOf_modEntry i _ s fun _ => ⟨rfl, rfl⟩))

/-- R129: the rollover ends in RECORDING, or in STOPPING by the stop mark. -/
theorem endRollover_spec (i : Nat) (s : State) :
    (s.cwr.stopMark = none →
      endRollover i s = { s with cwr := { s.cwr with writer := .recording, closeReason := none } }) ∧
      ∀ reason, s.cwr.stopMark = some reason →
        endRollover i s = { s with
          sdr := { s.sdr with entries := rewritten i (fun y => { y with st := .closing }) s.sdr.entries, mark := none }
          cwr := { s.cwr with writer := .stopping, closeReason := some reason, stopMark := none } } := by
  refine ⟨fun h => ?_, fun reason h => ?_⟩
  · simp only [endRollover, h]
    rfl
  · simp only [endRollover, h, setSlotState, modEntry_eq]
    rfl

/-! ## A CLOSED header on card (R128) -/

/-- Slot `i` is committed with `reason`: its entry CLOSED, what waits of its motion records dropped, and SLOT(closed)
raised; the port is free. -/
def closedOnCard (i : Nat) (reason : CloseReason) (e : Entry) (s : State) : State :=
  let dropped := min 4294967295 (e.motionDropped + pendingOf i s.cbf.pend)
  { s with
    sdr := { s.sdr with
      entries := rewritten i (fun y => { y with st := .closed, reason := some reason, motionDropped := dropped })
        s.sdr.entries }
    cbf := { s.cbf with pend := s.cbf.pend.filter fun r => r.slot != i }
    cwr := { s.cwr with port := none }
    lnk := { s.lnk with events := eventsWith (.slotClosed i reason (e.sequence.getD 0) e.streamBytes e.lostBytes
      e.motionRecords dropped 0 []) s } }

theorem commitSlot_eq (he : entryAt s i = some e) :
    commitSlot i reason 0 [] (setPort none s) = closedOnCard i reason e s := by
  have he' : s.sdr.entries[i]? = some e := he
  have hlost : entryAt (loseRecords i (setPort none s)) i =
      some { e with motionDropped := satAdd32 e.motionDropped (pendingOf i s.cbf.pend) } :=
    entryAt_modEntry_same (s := { setPort none s
      with cbf := { s.cbf with pend := s.cbf.pend.filter fun r => r.slot != i } })
      he _
  have hclosed := entryAt_modEntry_same hlost fun e => { e with st := .closed, reason := some reason }
  have hes : rewritten i (fun e => { e with st := .closed, reason := some reason }) (rewritten i
      (fun e => { e with motionDropped := satAdd32 e.motionDropped (pendingOf i s.cbf.pend) }) s.sdr.entries) =
      (closedOnCard i reason e s).sdr.entries := by
    rw [rewritten_rewritten]
    refine rewritten_congr fun y hy => ?_
    cases he'.symm.trans hy
    rfl
  simp only [commitSlot, hclosed, raise]
  rw [raiseIn_eq, modEntry_eq, loseRecords_eq]
  simp only [setPort, hes]
  rfl

end

end Sys2Proof.Machine
end

section
/-! O49, settled. -/

namespace Sys2Proof.Machine

section
variable {s : State} {x : Transfer} {i : Nat} {e : Entry} {reason : CloseReason} {c : EmergencyClose}

theorem headerUpdateDone_eq (ha : Awake s) (hp : s.cwr.port = some x) (hx : x.op = .headerUpdate i) :
    exec .headerUpdateDone s = .next (settle (setPort none s)) := by
  have hop : portOp s = some (.headerUpdate i) := by simp [portOp, hp, hx]
  simp only [exec, execHeaderUpdateDone, whenUp_awake ha, hop]

theorem openingHeaderDone_eq (ha : Awake s) (hp : s.cwr.port = some x) (hx : x.op = .openingHeader i) :
    exec .openingHeaderDone s = .next (openingDone i s) := by
  have hop : portOp s = some (.openingHeader i) := by simp [portOp, hp, hx]
  simp only [exec, execOpeningHeaderDone, whenUp_awake ha, hop]

theorem closedHeaderDone_eq (ha : Awake s) (hp : s.cwr.port = some x) (hx : x.op = .closedHeader i reason) :
    exec .closedHeaderDone s = .next (closedDone i reason s) := by
  have hop : portOp s = some (.closedHeader i reason) := by simp [portOp, hp, hx]
  simp only [exec, execClosedHeaderDone, whenUp_awake ha, hop]

theorem openingDone_eq (he : entryAt s i = some e) :
    openingDone i s = settle (if s.cwr.writer = .rolling ∧ openSlot s = some i
      then endRollover i (openingOnCard i e s) else openingOnCard i e s) := by
  simp only [openingDone, openedEvent_eq he, openingOnCard_slots]
  rfl

/-! ## In an emergency close (R173) -/

theorem closeNext_nil {u : State} (hc : u.ssv.close = some c) (ht : (c.todo.filter fun k => k != i) = []) :
    closeNext i u = { u with ssv := { u.ssv with close := some { c with todo := [] } } } := by
  simp [closeNext, hc, ht, modClose]

theorem closeNext_cons {u : State} {k : Nat} {rest : List Nat} (hc : u.ssv.close = some c)
    (ht : (c.todo.filter fun k => k != i) = k :: rest) :
    closeNext i u = { u with
      sdr := { u.sdr with entries := rewritten k (fun y => { y with st := .closing }) u.sdr.entries }
      ssv := { u.ssv with close := some { c with todo := k :: rest } } } := by
  simp [closeNext, hc, ht, modClose, setSlotState, modEntry_eq]

/-- R173: an inherited opening header is its slot's, and the close goes on. -/
theorem openingDone_goesOn (h : PortLaw s) (hw : s.cwr.writer = .emergencyClose) (hc : s.ssv.close = some c)
    (he : entryAt s i = some e) : CloseGoesOn c (openingOnCard i e s) (openingDone i s) := by
  have hne : ¬ (s.cwr.writer = .rolling ∧ openSlot s = some i) := by simp [hw]
  rw [openingDone_eq he, if_neg hne]
  exact settle_goesOn hw rfl (h.noUnmount (by simp [hw])) hc

/-- R173: an inherited CLOSED header commits its slot, and the close goes on with the rest. -/
theorem closedDone_goesOn (h : PortLaw s) (hw : s.cwr.writer = .emergencyClose) (hc : s.ssv.close = some c)
    (he : entryAt s i = some e) :
    CloseGoesOn { c with todo := c.todo.filter fun k => k != i } (closeNext i (closedOnCard i reason e s))
      (closedDone i reason s) := by
  have hd : closedDone i reason s = settle (closeNext i (closedOnCard i reason e s)) := by
    have hwc : (closedOnCard i reason e s).cwr.writer = .emergencyClose := hw
    simp only [closedDone, commitSlot_eq he, hwc]
  have hr (tag : Byte) : (closedOnCard i reason e s).lnk.req ≠ some (.unmount tag) := h.noUnmount (by simp [hw]) tag
  rw [hd]
  refine settle_goesOn (by simpa [closedOnCard] using hw) (by simp [closedOnCard]) (by simpa using hr) ?_
  have hcc : (closedOnCard i reason e s).ssv.close = some c := hc
  cases ht : c.todo.filter fun k => k != i with
  | nil => rw [closeNext_nil hcc ht]
  | cons k rest => rw [closeNext_cons hcc ht]

/-! ## While recording -/

/-- What the completion of a header leaves while recording. -/
def HeaderFrame (s t : State) : Prop :=
  KeepsClock s t ∧ KeepsMotion s t ∧ KeepsPower s t ∧ t.adu = s.adu ∧ t.cwr.cursor = s.cwr.cursor ∧
    t.lnk = { s.lnk with events := t.lnk.events } ∧ t.cbf.segs = s.cbf.segs

/-- A change of the card side from `s` to `u` that frees the port, settled by a grant. -/
theorem HeaderFrame.settle {u : State} (hf : HeaderFrame s u) (h : PortLaw s) (hs : Records s.cwr.writer)
    (ha : arbitrating u.cwr.writer = true) (hp : u.cwr.port = none) (hq : s.sdr.queue = u.sdr.queue)
    (hrun : s.cwr.run = u.cwr.run) (ho : s.cwr.offUnit = u.cwr.offUnit) (hb : s.cwr.offBlock = u.cwr.offBlock)
    (hfirst : s.cwr.blockFirst = u.cwr.blockFirst) :
    let t := Machine.settle u
    HeaderFrame s t ∧ t.lnk = u.lnk ∧ KeepsCardButPort u t ∧ ArbiterGrants (beforeGrant s t) t := by
  intro t
  obtain ⟨⟨k1, k2, k3⟩, ⟨k4, k5, k6⟩, ⟨k7, k8, k9, k10⟩, k11, k12, k13, k14⟩ := hf
  have hr (tag : Byte) : u.lnk.req ≠ some (.unmount tag) := by
    rw [k13]
    exact h.noUnmount (by obtain h | h | h := hs <;> simp [h]) tag
  obtain ⟨⟨⟨h1, h2, h3⟩, ⟨h4, h5, h6⟩, ⟨h7, h8, h9, h10⟩, h11, h12⟩, hcard, hgrants⟩ := settle_granted ha hr hp
  have hcwr := hcard.cwr_eq rfl
  refine ⟨⟨⟨h1.trans k1, h2.trans k2, h3.trans k3⟩, ⟨h4.trans k4, h5.trans k5, h6.trans k6⟩,
    ⟨h7.trans k7, h8.trans k8, h9.trans k9, h10.trans k10⟩, h11.trans k11, ?_, ?_, ?_⟩, h12, hcard,
    hgrants.before hcard h1 (by rw [h12]) hq hrun ho hb hfirst⟩
  · rw [show t.cwr = _ from hcwr]
    exact k12
  · rw [show t.lnk = u.lnk from h12]
    exact k13
  · rw [show t.cbf = u.cbf from hcard.1]
    exact k14

theorem openingOnCard_frame (i : Nat) (e : Entry) (s : State) : HeaderFrame s (openingOnCard i e s) :=
  ⟨⟨rfl, rfl, rfl⟩, ⟨rfl, rfl, rfl⟩, ⟨rfl, rfl, rfl, rfl⟩, rfl, rfl, rfl, rfl⟩

theorem closedOnCard_frame (i : Nat) (reason : CloseReason) (e : Entry) (s : State) :
    HeaderFrame s (closedOnCard i reason e s) :=
  ⟨⟨rfl, rfl, rfl⟩, ⟨rfl, rfl, rfl⟩, ⟨rfl, rfl, rfl, rfl⟩, rfl, rfl, rfl, rfl⟩

/-- One entry after its opening header is on card. -/
theorem openingOnCard_entry (he : entryAt s i = some e) :
    entryAt (openingOnCard i e s) i = some { e with headerWritten := true } := by
  have he' : s.sdr.entries[i]? = some e := he
  simp only [openingOnCard, entryAt, getElem?_rewritten, he', Option.map_some, if_true]

/-- The entry once its CLOSED header is on card. -/
theorem closedOnCard_entry (he : entryAt s i = some e) :
    entryAt (closedOnCard i reason e s) i = some { e with
      st := .closed
      reason := some reason
      motionDropped := min 4294967295 (e.motionDropped + pendingOf i s.cbf.pend) } := by
  have he' : s.sdr.entries[i]? = some e := he
  simp only [closedOnCard, entryAt, getElem?_rewritten, he', Option.map_some, if_true]

end

end Sys2Proof.Machine
end

section
/-! O49, settled: the rows of a header's completion. -/

namespace Sys2Proof.Machine

section
variable {s : State} {x : Transfer} {i : Nat} {e : Entry} {reason : CloseReason}

/-- SLOT(opened) of the slot with the entry `e`. -/
def openedDetail (i : Nat) (e : Entry) : Detail :=
  .slotOpened i (e.sequence.getD 0) (e.recId.getD 0) (e.openTime.getD 0)

/-- What an opening header on card leaves in every case: all but the writer's state and its slot's. -/
def OpeningLeaves (i : Nat) (e : Entry) (s t : State) : Prop :=
  HeaderFrame s t ∧ t.cbf = s.cbf ∧ ArbiterGrants (beforeGrant s t) t ∧ t.lnk.events = eventsWith (openedDetail i e) s

/-- R121: an opening header that ends no rollover. -/
theorem openingDone_stays (h : PortLaw s) (hs : Records s.cwr.writer) (he : entryAt s i = some e)
    (hn : ¬ (s.cwr.writer = .rolling ∧ openSlot s = some i)) :
    OpeningLeaves i e s (openingDone i s) ∧ (openingDone i s).cwr.writer = s.cwr.writer ∧
      (entryAt (openingDone i s) i).map unqueued = some (unqueued { e with headerWritten := true }) := by
  rw [openingDone_eq he, if_neg hn]
  obtain ⟨hframe, hlnk, hcard, hgrants⟩ :=
    (openingOnCard_frame i e s).settle h hs hs.arbitrating rfl rfl rfl rfl rfl rfl
  refine ⟨⟨hframe, hcard.1, hgrants, by rw [hlnk]; rfl⟩, by rw [hcard.cwr_eq rfl]; rfl, ?_⟩
  rw [hcard.entryAt_map unqueued (fun _ => rfl), openingOnCard_entry he]
  rfl

/-- R129: an opening header that ends the rollover, with no stop asked for. -/
theorem openingDone_rolls (h : PortLaw s) (hw : s.cwr.writer = .rolling) (ho : openSlot s = some i)
    (he : entryAt s i = some e) (hm : s.cwr.stopMark = none) :
    OpeningLeaves i e s (openingDone i s) ∧ (openingDone i s).cwr.writer = .recording ∧
      (openingDone i s).cwr.closeReason = none ∧
      (entryAt (openingDone i s) i).map unqueued = some (unqueued { e with headerWritten := true }) := by
  have hs : Records s.cwr.writer := .inr (.inl hw)
  rw [openingDone_eq he, if_pos ⟨hw, ho⟩, (endRollover_spec i (openingOnCard i e s)).1 hm]
  obtain ⟨hframe, hlnk, hcard, hgrants⟩ := HeaderFrame.settle (s := s)
    (u := { openingOnCard i e s
      with cwr := { (openingOnCard i e s).cwr with writer := .recording, closeReason := none } })
    (openingOnCard_frame i e s) h hs rfl rfl rfl rfl rfl rfl rfl
  refine ⟨⟨hframe, hcard.1, hgrants, by rw [hlnk]; rfl⟩, by rw [hcard.cwr_eq rfl], by rw [hcard.cwr_eq rfl], ?_⟩
  rw [hcard.entryAt_map unqueued (fun _ => rfl)]
  exact congrArg (Option.map unqueued) (openingOnCard_entry he)

/-- R129, R131: an opening header that ends the rollover, with the stop mark set. -/
theorem openingDone_stops (h : PortLaw s) (hw : s.cwr.writer = .rolling) (ho : openSlot s = some i)
    (he : entryAt s i = some e) (hm : s.cwr.stopMark = some reason) :
    OpeningLeaves i e s (openingDone i s) ∧ (openingDone i s).cwr.writer = .stopping ∧
      (openingDone i s).cwr.closeReason = some reason ∧ (openingDone i s).cwr.stopMark = none ∧
      (entryAt (openingDone i s) i).map unqueued =
        some (unqueued { e with headerWritten := true, st := .closing }) := by
  have hs : Records s.cwr.writer := .inr (.inl hw)
  rw [openingDone_eq he, if_pos ⟨hw, ho⟩, (endRollover_spec i (openingOnCard i e s)).2 reason hm]
  obtain ⟨hframe, hlnk, hcard, hgrants⟩ := HeaderFrame.settle (s := s)
    (u := { openingOnCard i e s with
      sdr := { (openingOnCard i e s).sdr with
        entries := rewritten i (fun y => { y with st := .closing }) (openingOnCard i e s).sdr.entries, mark := none }
      cwr := { (openingOnCard i e s).cwr with writer := .stopping, closeReason := some reason, stopMark := none } })
    (openingOnCard_frame i e s) h hs rfl rfl rfl rfl rfl rfl rfl
  refine ⟨⟨hframe, hcard.1, hgrants, by rw [hlnk]; rfl⟩, by rw [hcard.cwr_eq rfl], by rw [hcard.cwr_eq rfl],
    by rw [hcard.cwr_eq rfl], ?_⟩
  rw [hcard.entryAt_map unqueued (fun _ => rfl)]
  have he' : (openingOnCard i e s).sdr.entries[i]? = some { e with headerWritten := true } := openingOnCard_entry he
  simp only [entryAt, getElem?_rewritten, he', Option.map_some, if_true]

/-- SLOT(closed) of the slot with the entry `e`, as its CLOSED header commits it. -/
def closedDetail (i : Nat) (reason : CloseReason) (e : Entry) (s : State) : Detail :=
  .slotClosed i reason (e.sequence.getD 0) e.streamBytes e.lostBytes e.motionRecords
    (min 4294967295 (e.motionDropped + pendingOf i s.cbf.pend)) 0 []

/-- The state before the port is settled, of a CLOSED header on card while recording. -/
def closedSettled (reason : CloseReason) (u : State) : State :=
  if u.cwr.writer = .stopping
  then endRecording reason 0 0 (setWriter .ready { u with cwr := { u.cwr with closeReason := none } })
  else { u with cwr := { u.cwr with closeReason := none } }

theorem closedDone_eq (hs : Records s.cwr.writer) (he : entryAt s i = some e) :
    closedDone i reason s = settle (closedSettled reason (closedOnCard i reason e s)) := by
  have hw : (closedOnCard i reason e s).cwr.writer = s.cwr.writer := rfl
  simp only [closedDone, commitSlot_eq he, closedSettled, hw]
  obtain hs | hs | hs := hs <;> simp [hs]

/-- R132: in STOPPING the CLOSED header ends the recording. -/
theorem endRecording_raises {u : State} {r : Nat} (hr : u.cwr.recId = some r) :
    (endRecording reason 0 0 u).lnk.events = eventsWith (.recordStopped r reason u.now u.cwr.lastSlot 0 0) u := by
  simp only [endRecording, hr]
  rfl

/-- What the CLOSED header of a stop leaves before the port is settled. -/
theorem closedSettled_stopping {u : State} (hw : u.cwr.writer = .stopping) :
    HeaderFrame u (closedSettled reason u) ∧ (closedSettled reason u).cbf = u.cbf ∧
      (closedSettled reason u).sdr.entries = u.sdr.entries ∧ (closedSettled reason u).sdr.queue = u.sdr.queue ∧
      (closedSettled reason u).cwr = { u.cwr with
        writer := .ready
        closeReason := none
        recId := none
        lastSlot := (closedSettled reason u).cwr.lastSlot } ∧
      ∀ r, u.cwr.recId = some r → (closedSettled reason u).lnk.events =
        eventsWith (.recordStopped r reason u.now u.cwr.lastSlot 0 0) u := by
  simp only [closedSettled, hw, if_true]
  obtain ⟨hcwr, -⟩ := endRecording_spec reason 0 0
    (setWriter .ready { u with cwr := { u.cwr with closeReason := none } })
  have hlnk (v : State) : (endRecording reason 0 0 v).lnk =
      { v.lnk with events := (endRecording reason 0 0 v).lnk.events } := by
    simp only [endRecording]
    split
    · rfl
    · exact raiseIn_eq _ _
  refine ⟨⟨⟨by simp, by simp, by simp⟩, ⟨by simp, by simp, by simp⟩, ⟨by simp, by simp, by simp, by simp⟩, by simp,
    by simp, ?_, by simp⟩, by simp, by simp, by simp, hcwr, fun r hr => ?_⟩
  · exact hlnk _
  · exact endRecording_raises (u := setWriter .ready { u with cwr := { u.cwr with closeReason := none } }) hr

/-- What a CLOSED header on card leaves in every case. -/
def ClosedLeaves (i : Nat) (reason : CloseReason) (e : Entry) (s t : State) : Prop :=
  HeaderFrame s t ∧ ArbiterGrants (beforeGrant s t) t ∧ t.cbf.pend = (s.cbf.pend.filter fun r => r.slot != i) ∧
    (entryAt t i).map unqueued = some (unqueued { e with
      st := .closed
      reason := some reason
      motionDropped := min 4294967295 (e.motionDropped + pendingOf i s.cbf.pend) })

theorem closedDone_records (h : PortLaw s) (hs : Records s.cwr.writer) (hw : s.cwr.writer ≠ .stopping)
    (he : entryAt s i = some e) :
    ClosedLeaves i reason e s (closedDone i reason s) ∧ (closedDone i reason s).cwr.writer = s.cwr.writer ∧
      (closedDone i reason s).cwr.recId = s.cwr.recId ∧
      (closedDone i reason s).lnk.events = eventsWith (closedDetail i reason e s) s := by
  have hwc : (closedOnCard i reason e s).cwr.writer ≠ .stopping := hw
  rw [closedDone_eq hs he, closedSettled, if_neg hwc]
  obtain ⟨hframe, hlnk, hcard, hgrants⟩ := HeaderFrame.settle (s := s)
    (u := { closedOnCard i reason e s with cwr := { (closedOnCard i reason e s).cwr with closeReason := none } })
    (closedOnCard_frame i reason e s) h hs hs.arbitrating rfl rfl rfl rfl rfl rfl
  refine ⟨⟨hframe, hgrants, by rw [hcard.1]; rfl, ?_⟩, by rw [hcard.cwr_eq rfl]; rfl, by rw [hcard.cwr_eq rfl]; rfl,
    by rw [hlnk]; rfl⟩
  rw [hcard.entryAt_map unqueued (fun _ => rfl)]
  exact congrArg (Option.map unqueued) (closedOnCard_entry he)

theorem closedDone_stops (h : PortLaw s) (hw : s.cwr.writer = .stopping) (he : entryAt s i = some e) :
    ClosedLeaves i reason e s (closedDone i reason s) ∧ (closedDone i reason s).cwr.writer = .ready ∧
      (closedDone i reason s).cwr.recId = none ∧
      ∀ r, s.cwr.recId = some r → (closedDone i reason s).lnk.events =
        eventsWith (.recordStopped r reason s.now s.cwr.lastSlot 0 0)
          { s with lnk := { s.lnk with events := eventsWith (closedDetail i reason e s) s } } := by
  have hs : Records s.cwr.writer := .inr (.inr hw)
  obtain ⟨hstop, hcbf, hentries, hqueue, hcwr, hevents⟩ := closedSettled_stopping (reason := reason)
    (u := closedOnCard i reason e s) hw
  rw [closedDone_eq hs he]
  generalize closedSettled reason (closedOnCard i reason e s) = u at *
  obtain ⟨hframe, hlnk, hcard, hgrants⟩ := HeaderFrame.settle (s := s) (u := u) hstop h hs (by rw [hcwr]; rfl)
    (by rw [hcwr]; rfl) hqueue.symm (by rw [hcwr]; rfl) (by rw [hcwr]; rfl) (by rw [hcwr]; rfl) (by rw [hcwr]; rfl)
  refine ⟨⟨hframe, hgrants, by rw [hcard.1, hcbf]; rfl, ?_⟩, by rw [hcard.cwr_eq hcwr], by rw [hcard.cwr_eq hcwr],
    fun r hr => ?_⟩
  · rw [hcard.entryAt_map unqueued (fun _ => rfl), entryAt, hentries]
    exact congrArg (Option.map unqueued) (closedOnCard_entry he)
  · rw [hlnk]
    exact (hevents r hr).trans (eventsWith_congr _ rfl rfl)

end

/-- Settles O49: each header on card, in an emergency close and while recording. -/
theorem headersComplete : Obligations.HeadersComplete := by
  unfold Obligations.HeadersComplete
  refine ⟨fun s x i ha hp hx => ?_, fun s x c i e ha h hw hc hp he => ⟨fun hx => ?_, fun reason hx => ?_⟩,
    fun s x i e ha h hs hp he => ?_⟩
  · refine ⟨_, headerUpdateDone_eq ha hp hx, ⟨by simp [setPort], by simp [setPort], by simp [setPort]⟩,
      ⟨by simp [setPort], by simp [setPort], by simp [setPort]⟩, settle_freed s⟩
  · exact ⟨_, openingHeaderDone_eq ha hp hx, ⟨by simp, by simp, by simp⟩, ⟨by simp, by simp, by simp⟩,
      openingDone_goesOn h hw hc he⟩
  · intro dropped rest closed
    refine ⟨_, closedHeaderDone_eq ha hp hx, ⟨by simp, by simp, by simp⟩, ⟨by simp, by simp, by simp⟩, ?_⟩
    have hgo := closedDone_goesOn (reason := reason) h hw hc he
    have hcc : (closedOnCard i reason e s).ssv.close = some c := hc
    cases ht : c.todo.filter fun k => k != i with
    | nil =>
        rw [closeNext_nil hcc ht, ht] at hgo
        simp only [rest, ht]
        exact hgo
    | cons k ks =>
        rw [closeNext_cons hcc ht, ht] at hgo
        simp only [rest, ht]
        exact hgo
  · intro frame
    refine ⟨fun hx => ?_, fun hx => ?_, fun reason hx => ?_⟩
    · have hr : ∀ tag, s.lnk.req ≠ some (.unmount tag) :=
        h.noUnmount (by obtain hs | hs | hs := hs <;> simp [hs])
      obtain ⟨hpower, hadu, hlnk, hcard, -⟩ := (settle_freed s).1 (Records.arbitrating hs) hr
      refine ⟨_, headerUpdateDone_eq ha hp hx, ⟨⟨by simp [setPort], by simp [setPort], by simp [setPort]⟩,
        ⟨by simp [setPort], by simp [setPort], by simp [setPort]⟩, hpower, hadu, by rw [hcard.cwr_eq rfl], ?_,
        by rw [hcard.1]⟩, hlnk, hcard⟩
      rw [hlnk]
    · refine ⟨_, openingHeaderDone_eq ha hp hx, ?_⟩
      by_cases hroll : s.cwr.writer = .rolling ∧ openSlot s = some i
      · obtain ⟨hw, ho⟩ := hroll
        cases hm : s.cwr.stopMark with
        | none =>
            obtain ⟨⟨hframe, hcbf, hgrants, hev⟩, hrest⟩ := openingDone_rolls h hw ho he hm
            exact ⟨hframe, hcbf, hgrants, hev, fun hn => absurd ⟨hw, ho⟩ hn,
              fun _ _ => ⟨fun _ => hrest, fun reason hr => nomatch hr⟩⟩
        | some reason =>
            obtain ⟨⟨hframe, hcbf, hgrants, hev⟩, hrest⟩ := openingDone_stops h hw ho he hm
            refine ⟨hframe, hcbf, hgrants, hev, fun hn => absurd ⟨hw, ho⟩ hn,
              fun _ _ => ⟨fun hr => (nomatch hr), fun reason' hr => ?_⟩⟩
            cases hr
            exact hrest
      · obtain ⟨⟨hframe, hcbf, hgrants, hev⟩, hrest⟩ := openingDone_stays h hs he hroll
        exact ⟨hframe, hcbf, hgrants, hev, fun _ => hrest, fun hw ho => absurd ⟨hw, ho⟩ hroll⟩
    · intro dropped closed
      refine ⟨_, closedHeaderDone_eq ha hp hx, ?_⟩
      by_cases hw : s.cwr.writer = .stopping
      · obtain ⟨⟨hframe, hgrants, hpend, hentry⟩, hrest⟩ := closedDone_stops (reason := reason) h hw he
        exact ⟨hframe, hgrants, hpend, hentry, fun hn => absurd hw hn, fun _ => hrest⟩
      · obtain ⟨⟨hframe, hgrants, hpend, hentry⟩, hrest⟩ := closedDone_records (reason := reason) h hs hw he
        exact ⟨hframe, hgrants, hpend, hentry, fun _ => hrest, fun hn => absurd hn hw⟩

end Sys2Proof.Machine
end

section
/-! The end of a header scan: what repeats a sequence is FREE (R100), and the numbers that follow (R101). -/

namespace Sys2Proof.Machine

variable {es : List Entry} {i j k q : Nat}

/-! ## Repeated sequences (R100) -/

/-- As `repeated`, where the sequences `seen` have been read before the entries. -/
def repeatedAfter (seen : List Nat) (es : List Entry) (j : Nat) : Bool :=
  ((es[j]?.bind Entry.sequence).map fun q =>
    seen.contains q || (es.take j).any fun e => e.sequence == some q).getD false

theorem repeatedAfter_nil (es : List Entry) : repeatedAfter [] es = repeated es := by
  funext j
  simp only [repeatedAfter, repeated]
  cases es[j]?.bind Entry.sequence <;> simp

theorem repeatedAfter_zero (seen : List Nat) (e : Entry) (es : List Entry) :
    repeatedAfter seen (e :: es) 0 = (e.sequence.map seen.contains).getD false := by
  simp only [repeatedAfter, List.getElem?_cons_zero, Option.bind_some, List.take_zero, List.any_nil, Bool.or_false]

/-- After an entry without a sequence, or with one already seen, nothing more repeats. -/
theorem repeatedAfter_old {seen : List Nat} {e : Entry} (h : ∀ q, e.sequence = some q → q ∈ seen) (es : List Entry) :
    (fun j => repeatedAfter seen (e :: es) (j + 1)) = repeatedAfter seen es := by
  funext j
  simp only [repeatedAfter, List.getElem?_cons_succ, List.take_succ_cons, List.any_cons]
  cases es[j]?.bind Entry.sequence with
  | none => rfl
  | some r =>
      by_cases hr : e.sequence = some r
      · simp [h r hr]
      · simp [beq_eq_false_iff_ne.mpr hr]

/-- After an entry with a sequence not yet seen, that sequence repeats. -/
theorem repeatedAfter_new {e : Entry} (h : e.sequence = some q) (seen : List Nat) (es : List Entry) :
    (fun j => repeatedAfter seen (e :: es) (j + 1)) = repeatedAfter (q :: seen) es := by
  funext j
  simp only [repeatedAfter, List.getElem?_cons_succ, List.take_succ_cons, List.any_cons, h]
  cases es[j]?.bind Entry.sequence with
  | none => rfl
  | some r => simp [← Bool.or_assoc, Bool.or_comm (decide (r = q)), beq_eq_decide, eq_comm (a := q)]

/-- R100: what repeats becomes FREE, and is counted. -/
theorem dropConflicts_eq : ∀ (es : List Entry) (seen : List Nat),
    dropConflicts seen es = (es.mapIdx fun j e => if repeatedAfter seen es j then freeEntry else e,
      (List.range es.length).countP (repeatedAfter seen es))
  | [], _ => rfl
  | e :: es, seen => by
      have step (x : Entry) (seen' : List Nat) (h0 : x = if repeatedAfter seen (e :: es) 0 then freeEntry else e)
          (h : (fun j => repeatedAfter seen (e :: es) (j + 1)) = repeatedAfter seen' es) :
          (x :: (dropConflicts seen' es).1,
            (dropConflicts seen' es).2 + if repeatedAfter seen (e :: es) 0 then 1 else 0) =
            ((e :: es).mapIdx fun j e' => if repeatedAfter seen (e :: es) j then freeEntry else e',
              (List.range (e :: es).length).countP (repeatedAfter seen (e :: es))) := by
        have hcount : repeatedAfter seen (e :: es) ∘ Nat.succ = repeatedAfter seen' es := h
        rw [dropConflicts_eq es seen', List.mapIdx_cons, List.length_cons, List.range_succ_eq_map, List.countP_cons,
          List.countP_map, hcount, h0]
        simp only [congrFun h]
      cases hq : e.sequence with
      | none =>
          have h0 : repeatedAfter seen (e :: es) 0 = false := by simp [repeatedAfter_zero, hq]
          have := step e seen (by simp [h0]) (repeatedAfter_old (by simp [hq]) es)
          rw [← this, h0]
          simp [dropConflicts, hq]
      | some q =>
          have h0 : repeatedAfter seen (e :: es) 0 = seen.contains q := by simp [repeatedAfter_zero, hq]
          by_cases hs : seen.contains q = true
          · have hold : ∀ r, e.sequence = some r → r ∈ seen := fun r hr => by
              rw [hq] at hr
              cases hr
              simpa using hs
            rw [← step freeEntry seen (by rw [h0, if_pos hs]) (repeatedAfter_old hold es), h0]
            simp only [dropConflicts, hq, if_pos hs]
          · rw [← step e (q :: seen) (by rw [h0, if_neg hs]) (repeatedAfter_new hq seen es), h0]
            simp only [dropConflicts, hq, if_neg hs, Nat.add_zero]

theorem dropConflicts_withoutRepeats (es : List Entry) :
    dropConflicts [] es = (withoutRepeats es, (List.range es.length).countP (repeated es)) := by
  rw [dropConflicts_eq, repeatedAfter_nil]
  rfl

theorem withoutRepeats_getElem? (es : List Entry) (k : Nat) :
    (withoutRepeats es)[k]? = es[k]?.map fun e => if repeated es k then freeEntry else e := by
  simp [withoutRepeats]

/-- A sequence that is left was read, in an entry that does not repeat. -/
theorem withoutRepeats_sequence (h : (withoutRepeats es)[k]?.bind Entry.sequence = some q) :
    es[k]?.bind Entry.sequence = some q ∧ repeated es k = false := by
  rw [withoutRepeats_getElem?] at h
  cases hr : repeated es k <;> cases he : es[k]? <;> simp_all [freeEntry]

theorem repeated_later (hi : es[i]?.bind Entry.sequence = some q) (hj : es[j]?.bind Entry.sequence = some q)
    (hlt : i < j) : repeated es j = true := by
  obtain ⟨e, he, hq⟩ := Option.bind_eq_some_iff.mp hi
  have hm : e ∈ es.take j := List.mem_of_getElem? (i := i) (by rw [List.getElem?_take_of_lt hlt, he])
  simp only [repeated, hj]
  exact List.any_eq_true.mpr ⟨e, hm, by simp [hq]⟩

/-- R100: no sequence is left twice. -/
theorem withoutRepeats_distinct (hi : (withoutRepeats es)[i]?.bind Entry.sequence = some q)
    (hj : (withoutRepeats es)[j]?.bind Entry.sequence = some q) : i = j := by
  obtain ⟨hi, hir⟩ := withoutRepeats_sequence hi
  obtain ⟨hj, hjr⟩ := withoutRepeats_sequence hj
  obtain hlt | heq | hlt := Nat.lt_trichotomy i j
  · exact Bool.noConfusion (hjr.symm.trans (repeated_later hi hj hlt))
  · exact heq
  · exact Bool.noConfusion (hir.symm.trans (repeated_later hj hi hlt))

/-- Locks that were read with a sequence are left with one of their own. -/
theorem withoutRepeats_locks (h : LocksNumbered es) : LocksSequenced (withoutRepeats es) := by
  have numbered : LocksNumbered (withoutRepeats es) := by
    intro e he hi
    obtain ⟨k, hk⟩ := List.mem_iff_getElem?.mp he
    rw [withoutRepeats_getElem?] at hk
    obtain ⟨x, hx, rfl⟩ := Option.map_eq_some_iff.mp hk
    split at hi
    · simp [freeEntry, noLocks] at hi
    · next hr =>
      rw [if_neg hr]
      exact h x (List.mem_of_getElem? hx) hi
  have found {k : Nat} (hk : holdsImpact (withoutRepeats es) k = true) :
      (withoutRepeats es)[k]?.bind Entry.sequence = some (seqAt (withoutRepeats es) k) := by
    obtain ⟨e, he, hi⟩ := holdsImpact_iff.mp hk
    obtain ⟨q, hq⟩ := Option.ne_none_iff_exists'.mp (numbered e (List.mem_of_getElem? he) hi)
    simp [seqAt, he, hq]
  exact ⟨numbered, fun j k hj hk hjk => withoutRepeats_distinct (found hj) (hjk ▸ found hk)⟩

/-! ## The next numbers (R101) -/

theorem nextNumbers_none (h : ∀ e ∈ es, e.sequence = none) : nextNumbers es = (some 1, 1) := by
  have hnone : greatestSeq (fun _ _ => true) 0 es = none := by
    cases hg : greatestSeq (fun _ _ => true) 0 es with
    | none => rfl
    | some found =>
        obtain ⟨e, he, hq, -⟩ := ((greatestSeq_spec (fun _ _ => true) es 0).2 found.1 found.2 hg).getElem?
        exact absurd (hq.symm.trans (h e (List.mem_of_getElem? he))) (Option.some_ne_none _)
  simp [nextNumbers, hnone]

/-- R101: the numbers after those of the entry of greatest sequence, where no sequence is carried twice. -/
theorem nextNumbers_greatest {e : Entry}
    (hd : ∀ i j q : Nat, es[i]?.bind Entry.sequence = some q → es[j]?.bind Entry.sequence = some q → i = j)
    (he : es[j]? = some e) (hq : e.sequence = some q) (hmax : ∀ x ∈ es, ∀ p, x.sequence = some p → p ≤ q) :
    nextNumbers es = (seqAfter q, recAfter (e.recId.getD 0)) := by
  obtain ⟨hn, hs⟩ := greatestSeq_spec (fun _ _ => true) es 0
  cases hg : greatestSeq (fun _ _ => true) 0 es with
  | none => exact Bool.noConfusion (hn hg j e q he hq)
  | some found =>
      obtain ⟨r, i⟩ := found
      obtain ⟨x, hx, hxr, -⟩ := (hs r i hg).getElem?
      obtain ⟨-, -, -, -, -, -, hbefore⟩ := hs r i hg
      have hr : r = q := Nat.le_antisymm (hmax x (List.mem_of_getElem? hx) r hxr) (hbefore j e q he hq rfl)
      subst hr
      have hij : i = j := hd i j r (by simp [hx, hxr]) (by simp [he, hq])
      subst hij
      rw [he] at hx
      cases hx
      simp [nextNumbers, hg, he]

end Sys2Proof.Machine
end

section
/-! R102: the excess of IMPACT locks a mount releases, from the lowest sequence on. -/

namespace Sys2Proof.Machine

variable {u v : State} {es es' : List Entry} {i k n p r : Nat}

/-! ## What one release leaves -/

/-- Every entry that carries IMPACT may be released where there are no candidates. -/
theorem length_releasable : ∀ es : List Entry, (releasable [] es).length = impactLocks es
  | [] => rfl
  | e :: es => by
      have hrest : (fun j => holdsImpact (e :: es) (j + 1) && !([] : List Nat).contains (j + 1)) =
          fun j => holdsImpact es j && !([] : List Nat).contains j := by
        funext j
        simp [holdsImpact]
      have h := length_releasable es
      simp only [releasable, impactLocks, ← List.countP_eq_length_filter] at h ⊢
      rw [List.length_cons, List.range_succ_eq_map, List.countP_cons, List.countP_map, List.countP_cons, ← h]
      have hcomp : (fun j => holdsImpact (e :: es) j && !([] : List Nat).contains j) ∘ Nat.succ =
          fun j => holdsImpact es j && !([] : List Nat).contains j := hrest
      rw [hcomp]
      simp [holdsImpact]

theorem ImpactsAre.length {on : Nat → Bool} (h : ImpactsAre on u v) : v.sdr.entries.length = u.sdr.entries.length := by
  have hnone (k : Nat) : u.sdr.entries.length ≤ k ↔ v.sdr.entries.length ≤ k := by
    have hk := congrArg Option.isNone (h k)
    rw [Option.isNone_map, Option.isNone_map, Bool.eq_iff_iff, Option.isNone_iff_eq_none,
      Option.isNone_iff_eq_none] at hk
    exact (List.getElem?_eq_none_iff.symm.trans hk.symm).trans List.getElem?_eq_none_iff
  exact Nat.le_antisymm ((hnone _).mp (Nat.le_refl _)) ((hnone _).mpr (Nat.le_refl _))

/-- IMPACT changes no sequence. -/
theorem ImpactsAre.sequence {on : Nat → Bool} (h : ImpactsAre on u v) (k : Nat) :
    v.sdr.entries[k]?.bind Entry.sequence = u.sdr.entries[k]?.bind Entry.sequence := by
  have := congrArg (fun x => x.bind Entry.sequence) (h k)
  simp only [Option.bind_map] at this
  exact this

theorem ImpactsAre.seqAt {on : Nat → Bool} (h : ImpactsAre on u v) (k : Nat) :
    seqAt v.sdr.entries k = seqAt u.sdr.entries k := congrArg (Option.getD · 0) (h.sequence k)

/-- The entries `es'` are those of `es` without the IMPACT of entry `i`. -/
structure LeavesImpact (i : Nat) (es es' : List Entry) : Prop where
  length : es'.length = es.length
  sequence : ∀ k : Nat, es'[k]?.bind Entry.sequence = es[k]?.bind Entry.sequence
  holds : ∀ k, holdsImpact es' k = (holdsImpact es k && !(k == i))

theorem releaseSlot_leaves (i : Nat) (u : State) : LeavesImpact i u.sdr.entries (releaseSlot i u).sdr.entries where
  length := (releaseSlot_impacts i u).length
  sequence := (releaseSlot_impacts i u).sequence
  holds k := by
    rw [(releaseSlot_impacts i u).holds]
    by_cases hk : k < u.sdr.entries.length
    · by_cases hki : k = i <;> simp [hk, hki]
    · simp [hk, holdsImpact]

namespace LeavesImpact

theorem seqAt (h : LeavesImpact i es es') (k : Nat) : seqAt es' k = seqAt es k :=
  congrArg (Option.getD · 0) (h.sequence k)

theorem releasable (h : LeavesImpact i es es') : releasable [] es' = (releasable [] es).filter fun k => !(k == i) := by
  simp only [Machine.releasable, h.length, List.filter_filter]
  refine congrArg (List.filter · _) (funext fun k => ?_)
  rw [h.holds]
  simp [Bool.and_comm]

theorem locksSequenced (h : LeavesImpact i es es') (hs : LocksSequenced es) : LocksSequenced es' := by
  obtain ⟨hnumbered, hdistinct⟩ := hs
  have old {k : Nat} (hk : holdsImpact es' k = true) : holdsImpact es k = true := by
    rw [h.holds] at hk
    exact (Bool.and_eq_true_iff.mp hk).1
  refine ⟨fun e he hi hq => ?_, fun j k hj hk hjk => hdistinct j k (old hj) (old hk) (by rwa [← h.seqAt, ← h.seqAt])⟩
  obtain ⟨k, hk⟩ := List.mem_iff_getElem?.mp he
  obtain ⟨x, hx, hxi⟩ := holdsImpact_iff.mp (old (holdsImpact_iff.mpr ⟨e, hk, hi⟩))
  have hseq := h.sequence k
  rw [hk, hx, Option.bind_some, Option.bind_some, hq] at hseq
  exact hnumbered x (List.mem_of_getElem? hx) hxi hseq.symm

/-- One lock fewer. -/
theorem impactLocks (h : LeavesImpact i es es') (hi : i ∈ Machine.releasable [] es) :
    impactLocks es' + 1 = impactLocks es := by
  have hnd : (Machine.releasable [] es).Nodup := List.nodup_range.filter _
  have hlen := List.length_erase_of_mem hi
  have hpos : 0 < (Machine.releasable [] es).length := List.length_pos_of_mem hi
  rw [hnd.erase_eq_filter] at hlen
  rw [← length_releasable, ← length_releasable, h.releasable]
  simp only [bne] at hlen
  omega

/-- Of `n + 1` releases the first is that of the lowest sequence, the others are those among what is left. -/
theorem amongLowest (h : LeavesImpact i es es') (hs : LocksSequenced es) (hi : i ∈ Machine.releasable [] es)
    (hleast : ∀ k ∈ Machine.releasable [] es, Machine.seqAt es i ≤ Machine.seqAt es k) (n k : Nat) :
    amongLowest (n + 1) (Machine.releasable [] es) es k =
      (k == i || amongLowest n (Machine.releasable [] es') es' k) := by
  have hnd : (Machine.releasable [] es).Nodup := List.nodup_range.filter _
  simp only [Machine.amongLowest, h.seqAt, h.releasable]
  by_cases hki : k = i
  · subst hki
    have hzero : (Machine.releasable [] es).countP (fun j => decide (Machine.seqAt es j < Machine.seqAt es k)) = 0 :=
      List.countP_eq_zero.mpr fun j hj => by simpa using hleast j hj
    simp [hi, hzero]
  · by_cases hk : k ∈ Machine.releasable [] es
    · have hbelow : Machine.seqAt es i < Machine.seqAt es k :=
        Nat.lt_of_le_of_ne (hleast k hk) fun he =>
          hki (hs.2 k i (mem_releasable.mp hk).1 (mem_releasable.mp hi).1 he.symm)
      have hcount := (List.perm_cons_erase hi).countP_eq fun j => decide (Machine.seqAt es j < Machine.seqAt es k)
      rw [List.countP_cons, decide_eq_true hbelow, hnd.erase_eq_filter] at hcount
      simp only [bne] at hcount
      simp [hk, hki, hcount]
    · simp [hk, hki]

end LeavesImpact

/-! ## All the releases -/

/-- The events of one release and then of `n` more. -/
theorem ReleasesReported.after {x y : EvEntry} (h : LeavesImpact i es es') (hs : LocksSequenced es)
    (hi : i ∈ releasable [] es) (hleast : ∀ k ∈ releasable [] es, seqAt es i ≤ seqAt es k)
    (hr : ReleasesReported n (releasable [] es') es' (countEvent x (.slotReleased i)) y) :
    ReleasesReported (n + 1) (releasable [] es) es x y := by
  obtain ⟨hzero, hmore⟩ := hr
  have hlow (m k : Nat) := h.amongLowest hs hi hleast m k
  refine ⟨fun h0 => absurd h0 (Nat.succ_ne_zero n), fun _ => ?_⟩
  obtain rfl | hpos := Nat.eq_zero_or_pos n
  · rw [hzero rfl]
    exact ⟨rfl, i, rfl, by simp [hlow], amongLowest_zero ..⟩
  · obtain ⟨hcount, j, hdetail, hin, hout⟩ := hmore hpos
    obtain ⟨m, rfl⟩ := Nat.exists_eq_succ_of_ne_zero (Nat.ne_of_gt hpos)
    have hji : j ≠ i := fun he => by
      subst he
      simp [amongLowest, h.releasable] at hin
    refine ⟨by rw [hcount]; simp only [countEvent]; omega, j, hdetail, by simp [hlow, hin], ?_⟩
    rw [Nat.add_sub_cancel, hlow, beq_eq_false_iff_ne.mpr hji]
    exact hout

/-- R102: `n` locks have been released from `u` to `v`, in ascending sequence. -/
structure ExcessReleased (n : Nat) (u v : State) : Prop where
  impacts : ImpactsAre
    (fun k => holdsImpact u.sdr.entries k && !amongLowest n (releasable [] u.sdr.entries) u.sdr.entries k) u v
  events : u.lnk.recordMask.getLsbD 1 = true →
    ReleasesReported n (releasable [] u.sdr.entries) u.sdr.entries u.lnk.events.slot v.lnk.events.slot
  card : v.lnk.events.card = u.lnk.events.card
  queue : (∀ k ∈ u.sdr.queue, holdsImpact u.sdr.entries k = false) →
    ∃ more, v.sdr.queue = u.sdr.queue ++ more ∧
      (∀ k, k ∈ more ↔ amongLowest n (releasable [] u.sdr.entries) u.sdr.entries k = true) ∧
      more.Pairwise fun a b => seqAt u.sdr.entries a < seqAt u.sdr.entries b

theorem excessReleased_none (u : State) : ExcessReleased 0 u u where
  impacts := (impactsAre_same rfl).congr fun k _ => by simp [amongLowest_zero]
  events _ := ⟨fun _ => rfl, fun h => absurd h (Nat.lt_irrefl 0)⟩
  card := rfl
  queue _ := ⟨[], by simp, by simp [amongLowest_zero], .nil⟩

/-- R102, R110: a release is no event of the class CARD. -/
theorem releaseSlot_card (i : Nat) (u : State) : (releaseSlot i u).lnk.events.card = u.lnk.events.card := by
  have hl : (releaseSlot i u).lnk = (raise (.slotReleased i) u).lnk := by simp [releaseSlot]
  rw [hl]
  exact raise_otherClass (k := .card) u (by simp [detailClass])

/-- The lowest released, then the excess of what is left. -/
theorem ExcessReleased.after (hs : LocksSequenced u.sdr.entries) (hi : i ∈ releasable [] u.sdr.entries)
    (hleast : ∀ k ∈ releasable [] u.sdr.entries, seqAt u.sdr.entries i ≤ seqAt u.sdr.entries k)
    (h : ExcessReleased n (releaseSlot i u) v) : ExcessReleased (n + 1) u v := by
  have hl := releaseSlot_leaves i u
  have hlow := hl.amongLowest hs hi hleast
  refine ⟨((releaseSlot_impacts i u).trans h.impacts).congr fun k _ => ?_, fun hm => ?_, ?_, fun hq => ?_⟩
  · rw [hl.holds, hlow]
    simp [Bool.and_assoc]
  · refine ReleasesReported.after hl hs hi hleast ?_
    rw [← releaseSlot_event i hm]
    exact h.events (by simpa using hm)
  · rw [h.card, releaseSlot_card]
  · have hfresh : i ∉ u.sdr.queue := fun hm => Bool.noConfusion ((hq i hm).symm.trans (mem_releasable.mp hi).1)
    have hqueue : (releaseSlot i u).sdr.queue = u.sdr.queue ++ [i] := by
      simp [releaseSlot, enqueue_queue, hfresh]
    obtain ⟨more, hv, hmem, hsorted⟩ := h.queue fun k hk => by
      rw [hqueue, List.mem_append, List.mem_singleton] at hk
      rw [hl.holds]
      obtain hk | rfl := hk
      · simp [hq k hk]
      · simp
    refine ⟨i :: more, by rw [hv, hqueue, List.append_assoc]; rfl, fun k => ?_, ?_⟩
    · rw [List.mem_cons, hmem, hlow, Bool.or_eq_true, beq_iff_eq]
    · simp only [hl.seqAt] at hsorted
      refine List.pairwise_cons.mpr ⟨fun k hk => ?_, hsorted⟩
      have hleft : k ∈ (releasable [] u.sdr.entries).filter fun k => !(k == i) := by
        have := (hmem k).mp hk
        simp only [amongLowest, Bool.and_eq_true, List.contains_eq_mem, decide_eq_true_eq, hl.releasable] at this
        exact this.1
      obtain ⟨hk, hki⟩ := List.mem_filter.mp hleft
      refine Nat.lt_of_le_of_ne (hleast k hk) fun he => ?_
      have := hs.2 k i (mem_releasable.mp hk).1 (mem_releasable.mp hi).1 he.symm
      simp [this] at hki

/-- R102: the search for the next release. -/
theorem lowestSeq_excess (hs : LocksSequenced es) :
    (lowestSeq (fun _ e => e.locks.impact) 0 es = none → releasable [] es = []) ∧
      ∀ p r, lowestSeq (fun _ e => e.locks.impact) 0 es = some (p, r) →
        r ∈ releasable [] es ∧ ∀ k ∈ releasable [] es, seqAt es r ≤ seqAt es k := by
  have hp : (fun (_ : Nat) (e : Entry) => e.locks.impact) =
      fun j e => e.locks.impact && !([] : List Nat).contains j := by
    simp
  obtain ⟨hnone, hsome⟩ := lowestSeq_releasable (cands := []) hs
  rw [hp]
  refine ⟨hnone, fun p r h => ?_⟩
  obtain ⟨hmem, hlow⟩ := hsome p r h
  refine ⟨hmem, fun k hk => ?_⟩
  have hr : amongLowest 1 (releasable [] es) es r = true := by simp [hlow]
  simp only [amongLowest, Bool.and_eq_true, decide_eq_true_eq, Nat.lt_one_iff, List.countP_eq_zero, Nat.not_lt] at hr
  exact hr.2 k hk

/-- R102: with fuel for all of it, the excess is released. -/
theorem releaseExcess_released : ∀ (fuel : Nat) (u : State), LocksSequenced u.sdr.entries →
    impactLocks u.sdr.entries - quotaOf u ≤ fuel →
    (releaseExcess fuel u).2 = impactLocks u.sdr.entries - quotaOf u ∧
      ExcessReleased (impactLocks u.sdr.entries - quotaOf u) u (releaseExcess fuel u).1
  | 0, u, _, hf => by
      rw [Nat.le_zero.mp hf]
      exact ⟨rfl, excessReleased_none u⟩
  | fuel + 1, u, hs, hf => by
      obtain ⟨hnone, hsome⟩ := lowestSeq_excess hs
      by_cases hover : quotaOf u < impactLocks u.sdr.entries
      · cases hlow : lowestSeq (fun _ e => e.locks.impact) 0 u.sdr.entries with
        | none =>
            have := hnone hlow
            rw [← length_releasable, this] at hover
            exact absurd hover (Nat.not_lt_zero _)
        | some found =>
            obtain ⟨p, r⟩ := found
            obtain ⟨hmem, hleast⟩ := hsome p r hlow
            have hl := releaseSlot_leaves r u
            have hone := hl.impactLocks hmem
            have hquota : quotaOf (releaseSlot r u) = quotaOf u := by simp [quotaOf]
            have hn : impactLocks u.sdr.entries - quotaOf u =
                impactLocks (releaseSlot r u).sdr.entries - quotaOf (releaseSlot r u) + 1 := by
              rw [hquota]
              omega
            obtain ⟨hcount, hrest⟩ := releaseExcess_released fuel (releaseSlot r u) (hl.locksSequenced hs) (by omega)
            simp only [releaseExcess, if_pos hover, hlow]
            rw [hn]
            exact ⟨by rw [hcount], hrest.after hs hmem hleast⟩
      · have hzero : impactLocks u.sdr.entries - quotaOf u = 0 := by omega
        simp only [releaseExcess, if_neg hover, hzero]
        exact ⟨trivial, excessReleased_none u⟩

end Sys2Proof.Machine
end

section
/-! O47: a mount's bring-up, its passes and its completion (R97 to R102). -/

namespace Sys2Proof.Machine

/-! ## The completion (R98, R101, R102) -/

section
variable {s u v : State} {st : SlotState}

/-- IMPACT changes no slot's state. -/
theorem ImpactsAre.countSlots {on : Nat → Bool} (h : ImpactsAre on u v) (st : SlotState) :
    countSlots st v.sdr.entries = countSlots st u.sdr.entries := by
  have hst : v.sdr.entries.map Entry.st = u.sdr.entries.map Entry.st := by
    refine List.ext_getElem? fun k => ?_
    have hk := congrArg (Option.map Entry.st) (h k)
    rw [Option.map_map, Option.map_map] at hk
    rw [List.getElem?_map, List.getElem?_map]
    exact hk
  have hcount := congrArg (List.countP fun x => x == st) hst
  rw [List.countP_map, List.countP_map] at hcount
  simp only [Machine.countSlots, ← List.countP_eq_length_filter]
  exact hcount

theorem holdsImpact_eq_impact {es : List Entry} {e : Entry} {k : Nat} (h : es[k]? = some e) :
    holdsImpact es k = e.locks.impact := by
  simp only [holdsImpact, h, Option.map_some, Option.getD_some]

/-- The mount of the region `g` has completed, from `u` to `t`: `n` excess locks are released, CARD(mounted) is raised
and the port is granted. -/
structure MountCompleted (g : Geometry) (conflicts n : Nat) (u t : State) : Prop where
  writer : t.cwr.writer = .ready
  cbf : t.cbf = u.cbf
  nextSeq : t.sdr.nextSeq = u.sdr.nextSeq
  nextRec : t.sdr.nextRec = u.sdr.nextRec
  impacts : ImpactsAre
    (fun k => holdsImpact u.sdr.entries k && !amongLowest n (releasable [] u.sdr.entries) u.sdr.entries k) u t
  slotEvents : u.lnk.recordMask.getLsbD 1 = true →
    ReleasesReported n (releasable [] u.sdr.entries) u.sdr.entries u.lnk.events.slot t.lnk.events.slot
  cardEvent : u.lnk.recordMask.getLsbD 3 = true →
    t.lnk.events.card = countEvent u.lnk.events.card (.cardMounted u.sdr.entries.length
      (countSlots .free u.sdr.entries) (countSlots .closed u.sdr.entries) (countSlots .recovered u.sdr.entries)
      (countSlots .bad u.sdr.entries) conflicts n g.quota u.sdr.nextSeq u.sdr.nextRec)
  grants : (∀ k ∈ u.sdr.queue, holdsImpact u.sdr.entries k = false) →
    ∃ more, (∀ k, k ∈ more ↔ amongLowest n (releasable [] u.sdr.entries) u.sdr.entries k = true) ∧
      more.Pairwise (fun a b => seqAt u.sdr.entries a < seqAt u.sdr.entries b) ∧
      ArbiterGrants (beforeGrant { u with sdr := { u.sdr with queue := u.sdr.queue ++ more } } t) t

/-- R102: the mount completes. -/
theorem completeMount_completed {g : Geometry} (hg : u.sdr.geo = some g) (hp : u.cwr.port = none)
    (hr : ∀ tag, u.lnk.req ≠ some (.unmount tag)) (hs : LocksSequenced u.sdr.entries) (conflicts : Nat) :
    MountCompleted g conflicts (impactLocks u.sdr.entries - g.quota) u (completeMount conflicts u) := by
  have hquota : quotaOf u = g.quota := by simp [quotaOf, hg]
  have hfuel : impactLocks u.sdr.entries - quotaOf u ≤ u.sdr.entries.length :=
    (Nat.sub_le _ _).trans (List.length_filter_le _ _)
  obtain ⟨hcount, hreleased⟩ := releaseExcess_released u.sdr.entries.length u hs hfuel
  rw [hquota] at hcount hreleased
  have hframe := releaseExcess_frame u.sdr.entries.length u
  simp only [completeMount]
  generalize releaseExcess u.sdr.entries.length u = r at hcount hreleased hframe
  obtain ⟨v, m⟩ := r
  obtain ⟨hnow, -, -, -, -, -, hcbf, hgeo, hseq, hrec, -, hcwr, -, -, -, hreq, -, -, hmask, -⟩ := hframe
  dsimp only at hcount hreleased hnow hcbf hgeo hseq hrec hcwr hreq hmask ⊢
  subst hcount
  obtain ⟨himpacts, hevents, hcard, hqueue⟩ := hreleased
  obtain ⟨w, hw⟩ : ∃ w : State, raise (mountedDetail conflicts (impactLocks u.sdr.entries - g.quota)
    (setWriter .ready v)) (setWriter .ready v) = w := ⟨_, rfl⟩
  have hwlnk : w.lnk = raiseIn v.lnk (mountedDetail conflicts (impactLocks u.sdr.entries - g.quota)
    (setWriter .ready v)) := by rw [← hw]; rfl
  have hwsdr : w.sdr = { v.sdr with mark := none } := by rw [← hw]; rfl
  have hwcwr : w.cwr = { u.cwr with writer := .ready } := by rw [← hw, ← hcwr]; rfl
  have hwcbf : w.cbf = u.cbf := by rw [← hw, ← hcbf]; rfl
  have hwreq : w.lnk.req = u.lnk.req := by
    rw [hwlnk, raiseIn_eq]
    exact hreq
  have hslot : w.lnk.events.slot = v.lnk.events.slot := by
    rw [← hw]
    exact raise_otherClass (k := .slot) (setWriter .ready v) (by simp [mountedDetail, detailClass])
  have hdetail : mountedDetail conflicts (impactLocks u.sdr.entries - g.quota) (setWriter .ready v) =
      .cardMounted u.sdr.entries.length (countSlots .free u.sdr.entries) (countSlots .closed u.sdr.entries)
        (countSlots .recovered u.sdr.entries) (countSlots .bad u.sdr.entries) conflicts
        (impactLocks u.sdr.entries - g.quota) g.quota u.sdr.nextSeq u.sdr.nextRec := by
    simp [mountedDetail, setWriter, quotaOf, hgeo, hg, himpacts.length, himpacts.countSlots, hseq, hrec]
  rw [hw]
  obtain ⟨⟨⟨hsnow, -⟩, -, -, -, hslnk⟩, hskeeps, hgrants⟩ := settle_granted (u := w) (by rw [hwcwr]; rfl)
    (fun tag => by rw [hwreq]; exact hr tag) (by rw [hwcwr]; exact hp)
  obtain ⟨hscbf, hssdr, hsentries, hscwr⟩ := hskeeps
  refine ⟨?_, hscbf.trans hwcbf, by rw [hssdr, hwsdr, ← hseq], by rw [hssdr, hwsdr, ← hrec], fun k => ?_, fun hm => ?_,
    fun hm => ?_, fun hq => ?_⟩
  · rw [hscwr, hwcwr]
  · rw [entryAt_congr hsentries unqueued (fun _ => rfl) k, entryAt, hwsdr]
    exact himpacts k
  · rw [hslnk, hslot]
    exact hevents hm
  · rw [hslnk, ← hw, ← hcard, ← hdetail]
    exact raise_recorded (d := mountedDetail conflicts _ (setWriter .ready v)) (hmask ▸ hm)
  · obtain ⟨more, hmore, hmem, hsorted⟩ := hqueue hq
    refine ⟨more, hmem, hsorted, hgrants.before ⟨hscbf, hssdr, hsentries, hscwr⟩ hsnow (by rw [hslnk]) ?_ ?_ ?_ ?_ ?_⟩
    · rw [hwsdr, hmore]
    all_goals rw [hwcwr]

end

/-! ## A slot passed (R98, R99) -/

section
variable {s : State} {g : Geometry} {e : Entry} {i : Nat}

/-- The state in which the pass goes on after an entry. -/
def withEntry (e : Entry) (s : State) : State :=
  { s with sdr := { s.sdr with entries := s.sdr.entries ++ [e] }, cwr := { s.cwr with port := none } }

/-- R98, R99: the header of the next slot is written or read. -/
theorem mountStep_next (hg : s.sdr.geo = some g) (hi : i < g.slotCount) :
    mountStep i s = setPort (some (if g.format = true
      then ⟨.formatHeader i, g.base + i * g.slotSize, 1, blankHeader g.regionId, 1, s.now⟩
      else ⟨.scanRead i, g.base + i * g.slotSize, 1, [], 1, s.now⟩)) s := by
  simp only [mountStep, hg, if_pos hi]
  split <;> rfl

theorem mountEntry_eq (i : Nat) (e : Entry) (s : State) : mountEntry i e s = mountStep (i + 1) (withEntry e s) := rfl

theorem mountStep_format (hg : s.sdr.geo = some g) (hf : g.format = true) (hi : i = g.slotCount) :
    mountStep i s = completeFormat s := by
  simp only [mountStep, hg, hi, Nat.lt_irrefl, if_false, hf, if_true]

theorem mountStep_scan (hg : s.sdr.geo = some g) (hf : g.format = false) (hi : i = g.slotCount) :
    mountStep i s = completeScan s := by
  simp only [mountStep, hg, hi, Nat.lt_irrefl, if_false, hf, Bool.false_eq_true]

/-- R98: the last slot of a format pass has its entry. -/
theorem mountEntry_format (hr : ∀ tag, s.lnk.req ≠ some (.unmount tag)) (hg : s.sdr.geo = some g)
    (hf : g.format = true) (hlen : i = s.sdr.entries.length) (hlast : i + 1 = g.slotCount)
    (hst : ∀ x ∈ s.sdr.entries ++ [e], x.st = .free ∨ x.st = .bad)
    (hlocks : ∀ x ∈ s.sdr.entries ++ [e], x.locks.impact = false) :
    FormatCompletes g (s.sdr.entries ++ [e]) s (mountEntry i e s) := by
  let u : State := { withEntry e s with sdr := { (withEntry e s).sdr with nextSeq := some 1, nextRec := 1 } }
  have hstep : mountEntry i e s = completeMount 0 u := by
    rw [mountEntry_eq, mountStep_format (s := withEntry e s) hg hf hlast]
    rfl
  have hnone (k : Nat) : holdsImpact (s.sdr.entries ++ [e]) k = false := by
    by_contra hk
    obtain ⟨x, hx, hxi⟩ := holdsImpact_iff.mp (Bool.not_eq_false _ ▸ hk)
    exact Bool.noConfusion (hxi.symm.trans (hlocks x (List.mem_of_getElem? hx)))
  have hs : LocksSequenced (s.sdr.entries ++ [e]) :=
    ⟨fun x hx hi => Bool.noConfusion (hi.symm.trans (hlocks x hx)),
      fun j _ hj => Bool.noConfusion ((hnone j).symm.trans hj)⟩
  have hzero : impactLocks (s.sdr.entries ++ [e]) = 0 := by
    rw [impactLocks, List.length_eq_zero_iff, List.filter_eq_nil_iff]
    exact fun x hx => by simp [hlocks x hx]
  have hcount {st : SlotState} (h1 : st ≠ .free) (h2 : st ≠ .bad) : countSlots st (s.sdr.entries ++ [e]) = 0 := by
    rw [countSlots, List.length_eq_zero_iff, List.filter_eq_nil_iff]
    intro x hx he
    obtain h | h := hst x hx
    · exact h1 ((beq_iff_eq.mp he).symm.trans h)
    · exact h2 ((beq_iff_eq.mp he).symm.trans h)
  have hn : impactLocks u.sdr.entries - g.quota = 0 := by
    rw [show u.sdr.entries = s.sdr.entries ++ [e] from rfl, hzero, Nat.zero_sub]
  have hdone := completeMount_completed (u := u) hg rfl hr hs 0
  rw [hn] at hdone
  rw [hstep]
  obtain ⟨more, hmem, -, hgrants⟩ := hdone.grants fun k _ => hnone k
  have hnil : more = [] := List.eq_nil_iff_forall_not_mem.mpr fun k hk => by
    simpa [amongLowest_zero] using (hmem k).mp hk
  subst hnil
  refine ⟨hdone.writer, hdone.nextSeq, hdone.nextRec, hdone.cbf, List.ext_getElem? fun k => ?_, fun hm => ?_, ?_⟩
  · rw [List.getElem?_map, List.getElem?_map]
    refine (hdone.impacts k).trans (Option.map_congr fun x hx => ?_)
    beta_reduce
    rw [amongLowest_zero, holdsImpact_eq_impact hx, Bool.not_false, Bool.and_true]
    rfl
  · rw [hdone.cardEvent hm]
    simp [u, withEntry, countEvent, hcount, ← hlen, hlast]
  · rw [List.append_nil] at hgrants
    exact hgrants

/-- R100 to R102: the last slot of a header scan has its entry. -/
theorem mountEntry_scan (hr : ∀ tag, s.lnk.req ≠ some (.unmount tag)) (hg : s.sdr.geo = some g)
    (hf : g.format = false) (hlen : i = s.sdr.entries.length) (hlast : i + 1 = g.slotCount)
    (hlocks : LocksNumbered (s.sdr.entries ++ [e])) (hq : s.sdr.queue = []) :
    ScanCompletes g (s.sdr.entries ++ [e]) s (mountEntry i e s) := by
  let es := withoutRepeats (s.sdr.entries ++ [e])
  let numbers := nextNumbers es
  let u : State := { withEntry e s with
    sdr := { (withEntry e s).sdr with entries := es, nextSeq := numbers.1, nextRec := numbers.2 } }
  have hstep : mountEntry i e s =
      completeMount ((List.range (s.sdr.entries ++ [e]).length).countP (repeated (s.sdr.entries ++ [e]))) u := by
    rw [mountEntry_eq, mountStep_scan (s := withEntry e s) hg hf hlast, completeScan]
    simp only [withEntry, dropConflicts_withoutRepeats, u, numbers, es]
  have hdone := completeMount_completed (u := u) hg rfl hr (withoutRepeats_locks hlocks)
    ((List.range (s.sdr.entries ++ [e]).length).countP (repeated (s.sdr.entries ++ [e])))
  have hesLength : es.length = g.slotCount := by simp [es, withoutRepeats, ← hlen, hlast]
  rw [hstep]
  obtain ⟨more, hmem, hsorted, hgrants⟩ := hdone.grants fun k hk => by simp [u, withEntry, hq] at hk
  refine ⟨hdone.writer, hdone.cbf, ⟨fun hnone => ?_, fun j q x hx hxq hmax => ?_⟩, fun k => ?_, hdone.slotEvents,
    fun hm => ?_, more, hmem, hsorted, ?_⟩
  · have hnums : numbers = (some 1, 1) := nextNumbers_none hnone
    exact ⟨hdone.nextSeq.trans (congrArg Prod.fst hnums), hdone.nextRec.trans (congrArg Prod.snd hnums)⟩
  · have hnums : numbers = (seqAfter q, recAfter (x.recId.getD 0)) :=
      nextNumbers_greatest (fun _ _ _ => withoutRepeats_distinct) hx hxq hmax
    exact ⟨hdone.nextSeq.trans (congrArg Prod.fst hnums), hdone.nextRec.trans (congrArg Prod.snd hnums)⟩
  · refine (hdone.impacts k).trans (Option.map_congr fun x hx => ?_)
    beta_reduce
    rw [holdsImpact_eq_impact hx]
    rfl
  · rw [hdone.cardEvent hm, hdone.nextSeq, hdone.nextRec]
    simp only [show u.sdr.entries = es from rfl, hesLength]
    rfl
  · have hqueue : u.sdr.queue ++ more = more := by simp [u, withEntry, hq]
    rw [hqueue] at hgrants
    exact hgrants

end

end Sys2Proof.Machine
end

section
/-! O47: a mount's bring-up and the completions of its passes (R97 to R102). -/

namespace Sys2Proof.Machine

variable {s : State} {g : Geometry} {x : Transfer} {i : Nat} {e : Entry}

theorem portOp_eq (hx : s.cwr.port = some x) : portOp s = some x.op := by simp [portOp, hx]

/-- R97: a mount that fails leaves the card, with CARD(fault). -/
theorem mountFailed_leaves (cause : CardCause) (s : State) :
    (mountFailed cause s).cwr.writer = .unmounted ∧ (mountFailed cause s).cwr.port = none ∧
      (mountFailed cause s).sdr = Sdr.reset ∧
      (mountFailed cause s).lnk.events = eventsWith (.cardFault cause none) s := by
  refine ⟨rfl, rfl, rfl, ?_⟩
  have hl : (giveUpCard .unmounted s).lnk = s.lnk := by simp
  simp only [mountFailed, raise, eventsWith, hl]

/-- R98, R99: a slot before the last passed. -/
theorem mountEntry_next (hg : s.sdr.geo = some g) (hi : i + 1 < g.slotCount) (e : Entry) :
    mountEntry i e s = setPort (some (if g.format = true
      then ⟨.formatHeader (i + 1), g.base + (i + 1) * g.slotSize, 1, blankHeader g.regionId, 1, s.now⟩
      else ⟨.scanRead (i + 1), g.base + (i + 1) * g.slotSize, 1, [], 1, s.now⟩)) (withEntry e s) :=
  mountStep_next (s := withEntry e s) hg hi

/-- R97: bring-up on a card that holds the region. -/
theorem broughtUp_begins (hg : s.sdr.geo = some g) (hn : 0 < g.slotCount) {capacity : Nat}
    (hc : g.base + g.len ≤ capacity) :
    broughtUp capacity s = { s with cwr := { s.cwr with port := some (if g.format = true
      then ⟨.formatHeader 0, g.base, 1, blankHeader g.regionId, 1, s.now⟩
      else ⟨.scanRead 0, g.base, 1, [], 1, s.now⟩) } } := by
  have hnot : ¬ capacity < g.base + g.len := Nat.not_lt.mpr hc
  have hstep := mountStep_next (s := setPort none s) hg hn
  simp only [broughtUp, hg, if_neg hnot, hstep, Nat.zero_mul, Nat.add_zero]
  rfl

theorem bringUpDone_next (ha : Awake s) (hx : s.cwr.port = some x) (hop : x.op = .identify) (capacity : Nat) :
    exec (.bringUpDone capacity) s = .next (broughtUp capacity s) := by
  show execBringUpDone capacity s = _
  rw [execBringUpDone, whenUp_awake ha]
  simp only [portOp_eq hx, hop]

theorem formatHeaderDone_next (ha : Awake s) (hx : s.cwr.port = some x) (hop : x.op = .formatHeader i) :
    exec .formatHeaderDone s = .next (mountEntry i freeEntry s) := by
  show execFormatHeaderDone s = _
  rw [execFormatHeaderDone, whenUp_awake ha]
  simp only [portOp_eq hx, hop]

theorem scanReadDone_next (ha : Awake s) (hg : s.sdr.geo = some g) (hx : s.cwr.port = some x) (hop : x.op = .scanRead i)
    (block : List Byte) : exec (.scanReadDone block) s =
      if block.length = 512 then .next (mountEntry i (classify g block) s) else .fault .badBlockLength := by
  have ha' : s.rst.active = false := ha
  show execScanReadDone block s = _
  simp [execScanReadDone, ha', portOp_eq hx, hop, hg]

/-- Settles O47: bring-up begins the pass or ends the mount, a slot passed begins the next one, and the last one
completes the mount. -/
theorem mountPassesSlots : Obligations.MountPassesSlots := by
  unfold Obligations.MountPassesSlots
  refine ⟨fun s g x capacity ha hw hg hx hop hn => ?bringUp, fun s g x i ha hlaw hw hg hx hop hf hi => ?format,
    fun s g x i block ha hlaw hw hg hx hop hf hi => ?scan⟩
  case bringUp =>
    rw [bringUpDone_next ha hx hop]
    refine ⟨fun hc => ⟨_, rfl, ?_⟩, fun hc => ?_⟩
    · rw [broughtUp, hg]
      simp only [if_pos hc]
      exact mountFailed_leaves .range s
    · rw [broughtUp_begins hg (Nat.lt_of_lt_of_le Nat.zero_lt_two hn) hc]
      exact ⟨_, rfl, rfl, rfl⟩
  case format =>
    have hr := hlaw.noUnmount (by rw [hw]; simp)
    rw [formatHeaderDone_next ha hx hop]
    refine ⟨fun hi' => ⟨_, rfl, ?_⟩, fun hlast hst hlocks => ⟨_, rfl, ?_⟩⟩
    · rw [mountEntry_next hg hi', if_pos hf]
      exact ⟨hw, rfl, rfl, rfl, rfl⟩
    · have hnew (p : Entry → Prop) (hp : ∀ e ∈ s.sdr.entries, p e) (hfree : p freeEntry) :
          ∀ e ∈ s.sdr.entries ++ [freeEntry], p e := by simpa [or_imp, forall_and] using ⟨hp, hfree⟩
      obtain ⟨hwr, hseq, hrec, -, hentries, hcard, hgrants⟩ := mountEntry_format (i := i) (e := freeEntry) hr hg hf
        (Nat.succ.inj hi) hlast (hnew _ hst (.inl rfl)) (hnew _ hlocks rfl)
      exact ⟨hwr, hseq, hrec, hentries, hcard, hgrants⟩
  case scan =>
    have hr := hlaw.noUnmount (by rw [hw]; simp)
    rw [scanReadDone_next ha hg hx hop]
    refine ⟨fun hb => if_neg hb, fun hb => ?_⟩
    rw [if_pos hb]
    refine ⟨fun hi' => ⟨_, rfl, ?_⟩, fun hlast hlocks hq => ⟨_, rfl, ?_⟩⟩
    · rw [mountEntry_next hg hi', if_neg (by simp [hf])]
      exact ⟨hw, rfl, rfl, rfl, rfl⟩
    · obtain ⟨hwr, hcbf, ⟨hnone, hgreatest⟩, hentries, hslot, hcard, hgrants⟩ :=
        mountEntry_scan hr hg hf hi hlast hlocks hq
      exact ⟨hwr, hcbf, hentries, hslot, hcard, hgrants, hnone, hgreatest⟩

end Sys2Proof.Machine
end

section
/-! O50: a failed attempt is retried, and the third failure ends the transfer by its kind (R126, R130, R135, R140). -/

namespace Sys2Proof.Machine

variable {s : State} {x : Transfer} {i : Nat}

/-! ## The attempts and their time (R126) -/

/-- A transfer that begins within an emergency close has one attempt (R174). -/
def ownOfClose (op : Xfer) : Prop :=
  (∃ i, op = .emUpdate i) ∨ (∃ i n, op = .emUnit i n) ∨ (∃ i n, op = .emBlock i n) ∨ ∃ i, op = .emClosed i

def readsCard (op : Xfer) : Prop := op = .identify ∨ (∃ i, op = .scanRead i) ∨ ∃ w, op = .hostRead w

theorem attemptsFor_three {op : Xfer} (h : ¬ ownOfClose op) : attemptsFor op = 3 := by
  cases op <;> simp_all [ownOfClose, attemptsFor]

theorem attemptsFor_le (op : Xfer) : attemptsFor op ≤ 3 := by
  cases op <;> simp [attemptsFor]

theorem attemptTicks_read {op : Xfer} (h : readsCard op) : attemptTicks op = 410 := by
  obtain rfl | ⟨i, rfl⟩ | ⟨w, rfl⟩ := h <;> rfl

theorem attemptTicks_write {op : Xfer} (h : ¬ readsCard op) : attemptTicks op = 1024 := by
  cases op
  case identify => exact absurd (.inl rfl) h
  case scanRead i => exact absurd (.inr (.inl ⟨i, rfl⟩)) h
  case hostRead w => exact absurd (.inr (.inr ⟨w, rfl⟩)) h
  all_goals rfl

theorem cardAttemptFailed_next (ha : Awake s) : exec .cardAttemptFailed s = .next (attemptFailed s) := whenUp_awake ha _

theorem cardAttemptTimeout_next (ha : Awake s) : exec .cardAttemptTimeout s = .next (attemptTimeout s) :=
  whenUp_awake ha _

theorem attemptFailed_retries (hx : s.cwr.port = some x) (h : x.attempt < attemptsFor x.op) :
    attemptFailed s = setPort (some { x with attempt := x.attempt + 1, began := s.now }) s := by
  simp only [attemptFailed, hx, if_pos h]

theorem attemptFailed_ends (hx : s.cwr.port = some x) (h : attemptsFor x.op ≤ x.attempt) :
    attemptFailed s = transferFailed x s := by
  simp only [attemptFailed, hx, if_neg (Nat.not_lt.mpr h)]

theorem attemptTimeout_due (hx : s.cwr.port = some x) (h : attemptTicks x.op ≤ (s.now - x.began).toNat) :
    attemptTimeout s = attemptFailed s := by
  simp only [attemptTimeout, hx]
  exact if_pos h

theorem attemptTimeout_early (hx : s.cwr.port = some x) (h : ¬ attemptTicks x.op ≤ (s.now - x.began).toNat) :
    attemptTimeout s = s := by
  simp only [attemptTimeout, hx]
  exact if_neg h

/-! ## A write that fails (R130, R135) -/

theorem writerFault_eq (slot addr : Nat) (kind : WriteKind) (s : State) :
    writerFault slot addr kind s = mountEnded .fault .state (.cardFault .write (some (slot, addr, kind)))
      .cardFault s :=
  rfl

/-- The kind of write a transfer of the recording is, and its slot. -/
def WritesFor (op : Xfer) (i : Nat) (kind : WriteKind) : Prop :=
  ((op = .headerUpdate i ∨ op = .openingHeader i ∨ ∃ r, op = .closedHeader i r) ∧ kind = .header) ∨
    ((∃ n, op = .streamUnit i n) ∧ kind = .streamUnit) ∨ ((∃ n, op = .motionBlock i n) ∧ kind = .motionBlock)

/-- R135, R173: outside an emergency close, or for the CLOSED header one has inherited, the writer goes to FAULT. -/
theorem transferFailed_write {kind : WriteKind}
    (hw : s.cwr.writer ≠ .emergencyClose ∨ ∃ r, x.op = .closedHeader i r) (hop : WritesFor x.op i kind) :
    transferFailed x s = writerFault i x.addr kind s := by
  have hclosed {r : CloseReason} (h : x.op = .closedHeader i r) :
      transferFailed x s = writerFault i x.addr .header s := by simp only [transferFailed, h]
  obtain ⟨hop | hop | ⟨r, hop⟩, rfl⟩ | ⟨⟨n, hop⟩, rfl⟩ | ⟨⟨n, hop⟩, rfl⟩ := hop
  case inl.inr.inr => exact hclosed hop
  all_goals
    have hw' : (s.cwr.writer == .emergencyClose) = false := by simpa [hop] using hw
    simp only [transferFailed, hop, hw', Bool.false_eq_true, if_false]

/-! ## A host read that fails (R140) -/

/-- R140: a held MOTION_READ is answered, and a host read under way for it is wanted no more. -/
theorem endMotionRead_held {tag : Byte} {k n : Nat} {taken : Word} (status : Status)
    (h : s.lnk.req = some (.motionRead tag i k n taken)) :
    (setPort none (endMotionRead status s)) = { setPort none s with
      lnk := { s.lnk with req := none, reply := some ⟨0xA8#8, tag, status, []⟩ } } := by
  simp only [endMotionRead, h]
  (repeat' split) <;> rfl

/-- R140: the port is free again, and what holds the cursor keeps it. -/
theorem hostRead_fails {tag : Byte} {k n : Nat} {taken : Word} (hw : s.cwr.writer ≠ .emergencyClose)
    (h : s.lnk.req = some (.motionRead tag i k n taken)) :
    let t := settle (setPort none (endMotionRead .notReady s))
    t.cwr.cursor = s.cwr.cursor ∧ t.cwr.writer = s.cwr.writer ∧
      (arbitrating s.cwr.writer = true → ArbiterGrants (beforeGrant s t) t) ∧
      t.lnk = { s.lnk with req := none, reply := some ⟨0xA8#8, tag, .notReady, []⟩ } := by
  rw [endMotionRead_held .notReady h]
  let u : State := { setPort none s with lnk := { s.lnk with req := none, reply := some ⟨0xA8#8, tag, .notReady, []⟩ } }
  have hlaw : PortLaw u := portLaw_unheld hw fun _ => by simp [u]
  obtain ⟨⟨hnow, -⟩, -, -, -, hlnk⟩ := settle_offCard hlaw
  obtain ⟨hkeeps, -⟩ := settle_keeps hlaw
  have hcwr := hkeeps.2.2.2
  exact ⟨by rw [hcwr]; rfl, by rw [hcwr]; rfl, fun ha => (settle_arbitrates hlaw rfl ha).before hkeeps hnow
    (congrArg Lnk.req hlnk) rfl rfl rfl rfl rfl, hlnk⟩

/-- Settles O50: a failed attempt is retried until the third, which ends the transfer by its kind. -/
theorem attemptsFail : Obligations.AttemptsFail := by
  unfold Obligations.AttemptsFail
  intro s x ha hx
  rw [cardAttemptFailed_next ha, cardAttemptTimeout_next ha]
  intro own reads time
  refine ⟨fun hown h3 => ?_, fun hr hw => ?_, fun hlate => ?_, fun h3 => ?_⟩
  · rw [attemptFailed_retries hx ((attemptsFor_three hown).symm ▸ h3)]
    rfl
  · by_cases h : reads
    · rw [attemptTimeout_due hx ((attemptTicks_read h).trans_le (hr h))]
    · rw [attemptTimeout_due hx ((attemptTicks_write h).trans_le (hw h))]
  · obtain ⟨h, ht⟩ | ⟨h, ht⟩ := hlate
    · rw [attemptTimeout_early hx ((attemptTicks_read h).symm ▸ ht)]
    · rw [attemptTimeout_early hx ((attemptTicks_write h).symm ▸ ht)]
  · rw [attemptFailed_ends hx ((attemptsFor_le x.op).trans h3)]
    refine ⟨fun i kind hw hop => ⟨_, rfl, ?write⟩, fun tag i k n taken hop hw hr => ⟨_, rfl, ?wanted⟩,
      fun hop => ⟨_, rfl, ?unwanted⟩, fun i g hop hg hi => ⟨_, rfl, ?passes⟩, fun i g hw hlaw hg hlen hlast => ?ends,
      fun hop => ⟨_, rfl, ?identify⟩⟩
    case write =>
      have hw' : s.cwr.writer ≠ .emergencyClose ∨ ∃ r, x.op = .closedHeader i r :=
        hw.imp (fun h he => by simp [he] at h) And.right
      rw [transferFailed_write hw' hop, writerFault_eq]
      obtain ⟨hclock, hmotion, -, hwriter, hport, hcursor, hstop, hrec, hsdr, hcbf, -, hrest⟩ :=
        mountEnded_ends (s := s) (w := .fault) (status := .state)
          (d := .cardFault .write (some (i, x.addr, kind))) (reason := .cardFault) rfl
      exact ⟨hclock, hmotion, hwriter, hport, hcursor, hstop, hrec, hsdr, hcbf, hrest⟩
    case wanted =>
      have hfail : transferFailed x s = settle (setPort none (endMotionRead .notReady s)) := by
        simp only [transferFailed, hop, if_true]
      rw [hfail]
      exact hostRead_fails hw hr
    case unwanted =>
      have hfail : transferFailed x s = settle (setPort none s) := by
        simp only [transferFailed, hop, Bool.false_eq_true, if_false]
      rw [hfail]
      refine ⟨?_, ?_, settle_freed s⟩
      · simp [KeepsClock]
      · simp [KeepsMotion]
    case passes =>
      have hfail : transferFailed x s = mountEntry i badEntry s := by
        obtain hop | hop := hop <;> simp only [transferFailed, hop]
      rw [hfail, mountEntry_next hg hi]
      refine ⟨rfl, rfl, rfl, ?_⟩
      show some _ = some _
      split <;> rfl
    case ends =>
      have hr := hlaw.noUnmount (by rw [hw]; simp)
      have hnew (p : Entry → Prop) (hp : ∀ e ∈ s.sdr.entries, p e) (hbad : p badEntry) :
          ∀ e ∈ s.sdr.entries ++ [badEntry], p e := by simpa [or_imp, forall_and] using ⟨hp, hbad⟩
      refine ⟨fun hop hf hst hlocks => ⟨_, rfl, ?_⟩, fun hop hf hlocks hq => ⟨_, rfl, ?_⟩⟩
      · rw [show transferFailed x s = mountEntry i badEntry s by simp only [transferFailed, hop]]
        exact mountEntry_format hr hg hf hlen hlast (hnew _ hst (.inr rfl)) (hnew _ hlocks rfl)
      · rw [show transferFailed x s = mountEntry i badEntry s by simp only [transferFailed, hop]]
        exact mountEntry_scan hr hg hf hlen hlast hlocks hq
    case identify =>
      rw [show transferFailed x s = mountFailed .bringUp s by simp only [transferFailed, hop]]
      obtain ⟨hwriter, -, hsdr, hevents⟩ := mountFailed_leaves .bringUp s
      exact ⟨hwriter, hsdr, hevents⟩

end Sys2Proof.Machine
end

section
/-! O60: what a mount reads from a slot header (R98, R99, R114, R205). -/

namespace Sys2Proof.Machine

/-! ## Fields of a block (chapter 12) -/

section
variable {block : List Byte} {g : Geometry} {e : Entry} {k n code : Nat}

/-- The byte at an offset. -/
def byteNum (block : List Byte) (k : Nat) : Nat := (block[k]?.getD 0#8).toNat

theorem fieldAt_succ (block : List Byte) (k n : Nat) :
    fieldAt block k (n + 1) = byteNum block k + 256 * fieldAt block (k + 1) n := by
  by_cases hk : k < block.length
  · simp only [fieldAt, byteNum, List.drop_eq_getElem_cons hk, List.take_succ_cons, fromLe, List.getElem?_eq_getElem hk,
      Option.getD_some]
  · have hle : block.length ≤ k := Nat.le_of_not_lt hk
    simp [fieldAt, byteNum, List.drop_eq_nil_of_le hle, List.drop_eq_nil_of_le (Nat.le_succ_of_le hle), fromLe, hle]

theorem fieldAt_zero (block : List Byte) (k : Nat) : fieldAt block k 0 = 0 := rfl

theorem fieldAt_one (block : List Byte) (k : Nat) : fieldAt block k 1 = byteNum block k := by
  simp only [fieldAt_succ, fieldAt_zero, Nat.mul_zero, Nat.add_zero]

theorem fieldAt_two (block : List Byte) (k : Nat) :
    fieldAt block k 2 = byteNum block k + 256 * byteNum block (k + 1) := by
  simp only [fieldAt_succ, fieldAt_zero, Nat.mul_zero, Nat.add_zero]

theorem fieldAt_four (block : List Byte) (k : Nat) :
    fieldAt block k 4 =
      byteNum block k + 256 * byteNum block (k + 1) +
        65536 * (byteNum block (k + 2) + 256 * byteNum block (k + 3)) := by
  simp only [fieldAt_succ, fieldAt_zero, Nat.add_assoc, Nat.reduceAdd]
  omega

theorem fromLe_u8 (h : n < 256) : fromLe (u8 n) = n := by
  simp only [u8, fromLe, BitVec.toNat_ofNat]
  omega

theorem fromLe_u16 (h : n < 65536) : fromLe (u16 n) = n := by
  simp only [u16, fromLe, BitVec.toNat_ofNat]
  omega

theorem fromLe_u32 (h : n < 4294967296) : fromLe (u32 n) = n := by
  simp only [u32, fromLe, BitVec.toNat_ofNat]
  omega

/-! ## The header block read (R99, R205) -/

/-- R99, R205: a block that holds a header of the region. -/
def HeaderOf (g : Geometry) (block : List Byte) : Prop :=
  (crc32 (block.take 508)).toNat = fieldAt block 508 4 ∧ fieldAt block 0 4 = headerMarker ∧
    fieldAt block 4 4 = g.regionId.toNat ∧ (fieldAt block 8 1 = 1 ∨ fieldAt block 8 1 = 2) ∧
    fieldAt block 28 4 ≤ g.units * 65536 ∧ fieldAt block 32 4 ≤ 32 * g.motion

theorem classify_other (h : ¬ HeaderOf g block) : classify g block = freeEntry := by
  simp only [classify, ite_eq_left_iff]
  intro hcrc hmarker hregion hcode hstream hmotion
  refine absurd ⟨not_not.mp hcrc, not_not.mp hmarker, not_not.mp hregion, ?_, Nat.le_of_not_lt hstream,
    Nat.le_of_not_lt hmotion⟩ h
  omega

/-- R99: the entry a header gives. -/
theorem classify_header (h : HeaderOf g block) : classify g block =
    { st := if fieldAt block 8 1 = 2 then .closed else .recovered
      sequence := some (fieldAt block 12 4)
      recId := some (fieldAt block 16 2)
      locks := ⟨(fieldAt block 9 1).testBit 0, (fieldAt block 9 1).testBit 1⟩
      openTime := some (BitVec.ofNat 32 (fieldAt block 20 4))
      headerWritten := false
      streamBytes := fieldAt block 28 4
      motionRecords := fieldAt block 32 4
      motionDropped := fieldAt block 36 4
      lostBytes := fieldAt block 40 4
      firstFrame := if (fieldAt block 18 1).testBit 0 then some (BitVec.ofNat 32 (fieldAt block 24 4)) else none
      impactCount := fieldAt block 11 1
      reason := if fieldAt block 8 1 = 2 then reasonOfCode (fieldAt block 10 1) else none
      queued := false } := by
  obtain ⟨hcrc, hmarker, hregion, hcode, hstream, hmotion⟩ := h
  unfold classify
  dsimp only
  rw [if_neg (not_not.mpr hcrc), if_neg (not_not.mpr hmarker), if_neg (not_not.mpr hregion), if_neg (by omega),
    if_neg (Nat.not_lt.mpr hstream), if_neg (Nat.not_lt.mpr hmotion)]

/-- R99: the close reason of a code, by its place among the reasons. -/
theorem reasonOfCode_eq (n : Nat) : reasonOfCode n =
    [CloseReason.full, .stop, .guard, .noSlot, .emergency][n - 1]?.filter fun _ => decide (n ≠ 0) := by
  match n with
  | 0 | 1 | 2 | 3 | 4 | 5 => rfl
  | n + 6 => simp [reasonOfCode]

theorem reasonOfCode_reasonCode (r : CloseReason) :
    reasonOfCode (reasonCode r) = if reasonCode r ≤ 5 then some r else none := by
  cases r <;> rfl

/-! ## The header block written (Figure 12.10, R205) -/

/-- R205: the check word of a sealed block is the CRC-32 of what stands before it. -/
theorem sealHeader_crc {body : List Byte} (h : body.length ≤ 508) :
    (crc32 ((sealHeader body).take 508)).toNat = fieldAt (sealHeader body) 508 4 := by
  rw [fieldAt_four]
  exact sealHeader_check body h

theorem fieldAt_sealHeader {body : List Byte} (h : k + n ≤ body.length) :
    fieldAt (sealHeader body) k n = fieldAt body k n := by
  have hk : k ≤ body.length := Nat.le_of_add_right_le h
  have hn : n ≤ (body.drop k).length := by
    rw [List.length_drop]
    omega
  simp only [fieldAt, sealHeader, List.append_assoc, List.drop_append_of_le_length hk, List.take_append_of_le_length hn]

/-- Figure 12.10: the fields of a slot header, before the padding and the check word. -/
def headerBody (id : Word) (code reason : Nat) (e : Entry) : List Byte :=
  u32 headerMarker ++ u32 id.toNat ++ u8 code ++ u8 (lockCode e.locks) ++ u8 reason
    ++ u8 e.impactCount ++ u32 (e.sequence.getD 0) ++ u16 (e.recId.getD 0) ++ flag8 e.firstFrame.isSome ++ u8 0
    ++ u32 (e.openTime.getD 0).toNat ++ u32 (e.firstFrame.getD 0).toNat ++ u32 e.streamBytes
    ++ u32 e.motionRecords ++ u32 e.motionDropped ++ u32 e.lostBytes

theorem headerBody_length (id : Word) (code reason : Nat) (e : Entry) : (headerBody id code reason e).length = 44 := by
  simp [headerBody, u32, u16, u8, flag8]

theorem entryHeader_sealed (id : Word) (code reason : Nat) (e : Entry) :
    entryHeader id code reason e = sealHeader (headerBody id code reason e) := by
  rw [entryHeader, headerBody]

theorem fieldAt_entryHeader {id : Word} {reason : Nat} (h : k + n ≤ 44) :
    fieldAt (entryHeader id code reason e) k n = fieldAt (headerBody id code reason e) k n := by
  rw [entryHeader_sealed, fieldAt_sealHeader (by rwa [headerBody_length])]

/-- Figure 12.10: where each field of a header stands. -/
theorem headerBody_fields (id : Word) (code reason : Nat) (e : Entry) :
    let block := headerBody id code reason e
    (fieldAt block 0 4 = fromLe (u32 headerMarker) ∧ fieldAt block 4 4 = fromLe (u32 id.toNat)) ∧
      fieldAt block 8 1 = fromLe (u8 code) ∧ fieldAt block 9 1 = fromLe (u8 (lockCode e.locks)) ∧
      fieldAt block 10 1 = fromLe (u8 reason) ∧ fieldAt block 11 1 = fromLe (u8 e.impactCount) ∧
      fieldAt block 12 4 = fromLe (u32 (e.sequence.getD 0)) ∧ fieldAt block 16 2 = fromLe (u16 (e.recId.getD 0)) ∧
      fieldAt block 18 1 = fromLe (flag8 e.firstFrame.isSome) ∧
      fieldAt block 20 4 = fromLe (u32 (e.openTime.getD 0).toNat) ∧
      fieldAt block 24 4 = fromLe (u32 (e.firstFrame.getD 0).toNat) ∧
      fieldAt block 28 4 = fromLe (u32 e.streamBytes) ∧ fieldAt block 32 4 = fromLe (u32 e.motionRecords) ∧
      fieldAt block 36 4 = fromLe (u32 e.motionDropped) ∧ fieldAt block 40 4 = fromLe (u32 e.lostBytes) := by
  simp [headerBody, u32, u16, u8, flag8, fieldAt]

/-- The fields of a header before its entry's. -/
theorem entryHeader_region (id : Word) (code reason : Nat) (e : Entry) :
    (entryHeader id code reason e).length = 512 ∧
      (crc32 ((entryHeader id code reason e).take 508)).toNat = fieldAt (entryHeader id code reason e) 508 4 ∧
      fieldAt (entryHeader id code reason e) 0 4 = headerMarker ∧
      fieldAt (entryHeader id code reason e) 4 4 = id.toNat := by
  have hlen : (headerBody id code reason e).length ≤ 508 := by
    rw [headerBody_length]
    decide
  obtain ⟨⟨hmarker, hid⟩, -⟩ := headerBody_fields id code reason e
  rw [fieldAt_entryHeader (k := 0) (by decide), fieldAt_entryHeader (k := 4) (by decide), hmarker, hid,
    fromLe_u32 (by decide), fromLe_u32 id.isLt, entryHeader_sealed]
  exact ⟨sealHeader_length _ hlen, sealHeader_crc hlen, rfl, rfl⟩

/-- The numbers of an entry fit the fields of Figure 12.10. -/
structure FitsHeader (e : Entry) : Prop where
  sequence : e.sequence.getD 0 < 4294967296
  recId : e.recId.getD 0 < 65536
  streamBytes : e.streamBytes < 4294967296
  motionRecords : e.motionRecords < 4294967296
  motionDropped : e.motionDropped < 4294967296
  lostBytes : e.lostBytes < 4294967296
  impactCount : e.impactCount < 256

theorem lockCode_lt (l : LockSet) : lockCode l < 256 := by
  obtain ⟨a, b⟩ := l
  cases a <;> cases b <;> decide

/-- The fields of a header that its entry gives. -/
theorem entryHeader_fields (h : FitsHeader e) {id : Word} {code reason : Nat} (hc : code < 256) (hr : reason < 256) :
    let block := entryHeader id code reason e
    fieldAt block 8 1 = code ∧ fieldAt block 9 1 = lockCode e.locks ∧ fieldAt block 10 1 = reason ∧
      fieldAt block 11 1 = e.impactCount ∧ fieldAt block 12 4 = e.sequence.getD 0 ∧
      fieldAt block 16 2 = e.recId.getD 0 ∧ fieldAt block 18 1 = (if e.firstFrame.isSome then 1 else 0) ∧
      fieldAt block 20 4 = (e.openTime.getD 0).toNat ∧ fieldAt block 24 4 = (e.firstFrame.getD 0).toNat ∧
      fieldAt block 28 4 = e.streamBytes ∧ fieldAt block 32 4 = e.motionRecords ∧
      fieldAt block 36 4 = e.motionDropped ∧ fieldAt block 40 4 = e.lostBytes := by
  have hflag : (if e.firstFrame.isSome then 1 else 0) < 256 := by split <;> decide
  intro block
  have field {k n : Nat} (hk : k + n ≤ 44) : fieldAt block k n = fieldAt (headerBody id code reason e) k n :=
    fieldAt_entryHeader hk
  rw [field (by decide), field (by decide), field (by decide), field (by decide), field (by decide), field (by decide),
    field (by decide), field (by decide), field (by decide), field (by decide), field (by decide), field (by decide),
    field (by decide)]
  obtain ⟨-, h8, h9, h10, h11, h12, h16, h18, h20, h24, h28, h32, h36, h40⟩ := headerBody_fields id code reason e
  rw [h8, h9, h10, h11, h12, h16, h18, h20, h24, h28, h32, h36, h40]
  exact ⟨fromLe_u8 hc, fromLe_u8 (lockCode_lt e.locks), fromLe_u8 hr, fromLe_u8 h.impactCount, fromLe_u32 h.sequence,
    fromLe_u16 h.recId, fromLe_u8 hflag, fromLe_u32 (e.openTime.getD 0).isLt, fromLe_u32 (e.firstFrame.getD 0).isLt,
    fromLe_u32 h.streamBytes, fromLe_u32 h.motionRecords, fromLe_u32 h.motionDropped, fromLe_u32 h.lostBytes⟩

end

end Sys2Proof.Machine
end

section
/-! O60: a header written is read back (R98, R99, R114, R205). -/

namespace Sys2Proof.Machine

section
variable {g : Geometry} {e : Entry} {code reason : Nat} {q r : Nat} {t : Word}

theorem lockCode_bits (l : LockSet) : (lockCode l).testBit 0 = l.impact ∧ (lockCode l).testBit 1 = l.keep := by
  obtain ⟨a, b⟩ := l
  cases a <;> cases b <;> decide

/-- R99: the entry read from a header that an entry of the region gave. -/
theorem classify_entryHeader (h : FitsHeader e) (hcode : code = 1 ∨ code = 2) (hr : reason < 256)
    (hq : e.sequence = some q) (hrec : e.recId = some r) (ht : e.openTime = some t)
    (hstream : e.streamBytes ≤ g.units * 65536) (hmotion : e.motionRecords ≤ 32 * g.motion) :
    classify g (entryHeader g.regionId code reason e) =
      { e with
        st := if code = 2 then .closed else .recovered
        headerWritten := false
        reason := if code = 2 then reasonOfCode reason else none
        queued := false } := by
  obtain ⟨-, hcrc, hmarker, hregion⟩ := entryHeader_region g.regionId code reason e
  obtain ⟨h8, h9, h10, h11, h12, h16, h18, h20, h24, h28, h32, h36, h40⟩ :=
    entryHeader_fields h (id := g.regionId) (code := code) (by omega) hr
  have hheader : HeaderOf g (entryHeader g.regionId code reason e) :=
    ⟨hcrc, hmarker, hregion, h8.symm ▸ hcode, h28.symm ▸ hstream, h32.symm ▸ hmotion⟩
  obtain ⟨himpact, hkeep⟩ := lockCode_bits e.locks
  have hfirst : (if (if e.firstFrame.isSome then 1 else 0 : Nat).testBit 0 then
      some (BitVec.ofNat 32 (e.firstFrame.getD 0).toNat) else none) = e.firstFrame := by
    cases e.firstFrame <;> simp
  rw [classify_header hheader, h8, h9, h10, h11, h12, h16, h18, h20, h24, h28, h32, h36, h40, himpact, hkeep, hfirst,
    hq, hrec, ht]
  simp

/-- A header of another region, or of no state, is read as FREE. -/
theorem classify_entryHeader_other {other : Word} (ho : other ≠ g.regionId) :
    classify g (entryHeader other code reason e) = freeEntry := by
  refine classify_other fun ⟨_, _, hregion, _⟩ => ho (BitVec.eq_of_toNat_eq ?_)
  obtain ⟨-, -, -, hid⟩ := entryHeader_region other code reason e
  exact hid.symm.trans hregion

theorem classify_blankHeader (g : Geometry) : classify g (blankHeader g.regionId) = freeEntry := by
  have hzero : fieldAt (blankHeader g.regionId) 8 1 = 0 := by
    have hlen : (u32 headerMarker ++ u32 g.regionId.toNat).length = 8 := by simp [u32]
    rw [blankHeader, sealHeader, hlen, fieldAt, List.append_assoc, List.drop_left' hlen,
      List.take_append_of_le_length (by rw [List.length_replicate]; decide), List.take_replicate]
    rfl
  refine classify_other fun ⟨_, _, _, hcode, _⟩ => ?_
  rw [hzero] at hcode
  exact hcode.elim (fun h => Nat.noConfusion h) fun h => Nat.noConfusion h

theorem reasonCode_lt (c : CloseReason) : reasonCode c < 256 := by
  cases c <;> decide

/-! ## A header update (R114) -/

theorem updateHeader_reason (h : e.st ≠ .opened) :
    updateHeader g e = closedHeader g.regionId (optReasonCode e.reason) e := by
  rw [updateHeader, if_neg h]

theorem updateHeader_opened (h : e.st = .opened) : updateHeader g e = openHeader g.regionId e := by
  rw [updateHeader, if_pos h]

end

/-- Settles O60: the fields of a sealed header are those it was written with. -/
theorem headersReadBack : Obligations.HeadersReadBack := by
  unfold Obligations.HeadersReadBack
  intro g e q r t reason hq hqlt hrec hrlt ht hstream hstream' hmotion hmotion' hdropped hlost himpacts
  have hfits : FitsHeader e :=
    ⟨by rwa [hq], by rwa [hrec], hstream', hmotion', hdropped, hlost, himpacts⟩
  have hread {code n : Nat} (hc : code = 1 ∨ code = 2) (hn : n < 256) :=
    classify_entryHeader (g := g) hfits hc hn hq hrec ht hstream hmotion
  have hlength (id : Word) (code n : Nat) : (entryHeader id code n e).length = 512 := (entryHeader_region id code n e).1
  refine ⟨hlength .., hlength .., ?_, ?_, hlength .., ?_, fun hst hnone => ?_, fun hst hsome => ?_, updateHeader_opened,
    classify_blankHeader g, fun other ho => ⟨classify_entryHeader_other ho, classify_entryHeader_other ho⟩,
    by decide +kernel, fun block _ => ?_⟩
  · rw [closedHeader, hread (.inr rfl) (reasonCode_lt reason), ← reasonOfCode_reasonCode]
    rfl
  · rw [openHeader, hread (.inl rfl) (by decide)]
    rfl
  · rw [closedHeader, hread (.inr rfl) (by decide)]
    rfl
  · rw [updateHeader_reason (by obtain h | h := hst <;> simp [h]), hnone]
    rfl
  · rw [updateHeader_reason (by simp [hst]), hsome]
    rfl
  · intro byte half word locked vouched
    have hone (k : Nat) : fieldAt block k 1 = byte k := fieldAt_one block k
    have htwo (k : Nat) : fieldAt block k 2 = half k := fieldAt_two block k
    have hfour (k : Nat) : fieldAt block k 4 = word k := fieldAt_four block k
    have hvouched : HeaderOf g block ↔ vouched := by
      simp only [HeaderOf, hone, hfour]
      exact Iff.rfl
    refine ⟨fun h => classify_other fun hh => h (hvouched.mp hh), fun h => ?_⟩
    have hbit (b : Nat) : (byte 9).testBit b = locked b := by
      simp [locked, Nat.testBit_eq_decide_div_mod_eq, beq_eq_decide]
    have hflag : (byte 18).testBit 0 = decide (byte 18 % 2 = 1) := by
      simp [Nat.testBit_zero]
    rw [classify_header (hvouched.mpr h)]
    simp only [hone, htwo, hfour, hbit, hflag, reasonOfCode_eq, decide_eq_true_eq]

end Sys2Proof.Machine
end
